-- ==== Sys2Proof/Word.lean ====
section
/-!
DEFINITION. The byte of the control link (R163) and the little-endian readings of section 11.7.
-/
namespace Sys2Proof

/-- One byte of the control link. -/
abbrev Byte := BitVec 8

/-- A two-byte field, low byte first (section 11.7: "Multi-byte fields are little-endian"). -/
def le16 (b0 b1 : Byte) : Nat := b0.toNat + 256 * b1.toNat

/-- A four-byte field, low byte first (section 11.7). -/
def le32 (b0 b1 b2 b3 : Byte) : Nat :=
  b0.toNat + 256 * b1.toNat + 65536 * b2.toNat + 16777216 * b3.toNat

end Sys2Proof
end

