-- ==== Sys2Proof/Syntax.lean ====
section
/-!
DEFINITION. The commands of the block: one constructor of `Instr` per row of spec/opcode_table.json.
A command is an input that changes level, a byte event of the control link, the execution of the request that
stands at the front of the inbox, a field report, or the expiry of a timer.
-/
namespace Sys2Proof

/-- A slot of a source position (R22). -/
inductive Slot where
  | face | lane
  deriving DecidableEq, Repr

/-- A position of the bench, and with it its field line (R155): SP0 to SP3, OP0 to OP11. -/
inductive Pos where
  | src (p : Fin 4)
  | ord (q : Fin 12)
  deriving DecidableEq, Repr

/-- A gross weight as an order module reports it (R156): grams, or OVERLOAD. -/
inductive Gross where
  | grams (g : Nat)
  | overload
  deriving DecidableEq, Repr

/-- The cause a module names in a FAULT report (R156). -/
inductive ModCause where
  | scale | reader | gate
  deriving DecidableEq, Repr

/-- A SURVEY-ANSWER (R156). At a slot or an order position, `none` is "absent", `some none` is "present, id NONE",
`some (some id)` is "present, this id read". -/
inductive SurveyAnswer where
  | source (face lane : Option (Option Nat))
  | order (tote : Option (Option Nat)) (g : Gross)
  deriving DecidableEq, Repr

/-- The outcome of a profile store, decided by the image memory (R151). -/
inductive StoreOutcome where
  | ok | failed
  deriving DecidableEq, Repr

/-- The commands. Each constructor is one row of the table. A request row has no operand of its own: it executes
the request at the front of the inbox (R164), and that request carries the fields. -/
inductive Instr where
  | powerUp
  | resetLine
  | holdOn
  | holdOff
  | keyInputChange (level : Bool)
  | frameReceived (bytes : List Byte)
  | byteGapTimeout (next : Byte)
  | frameSent
  | unknownRequest
  | offer
  | recall
  | wallAdd
  | wallUrge
  | wallWindow
  | wallShut
  | wallRebase
  | wallRelease
  | posOpen
  | posClose
  | posOpenOrder
  | posCloseOrder
  | benchStart
  | benchDrain
  | restart
  | profileSet
  | profileGet
  | profileStore
  | lockShift
  | queryBench
  | queryPosition
  | queryOffer
  | queryOrder
  | storeCompletion (outcome : StoreOutcome)
  | sourceArrived (p : Fin 4) (slot : Slot) (id : Option Nat)
  | sourceDeparted (p : Fin 4) (slot : Slot)
  | orderArrived (q : Fin 12) (slot : Option Slot) (id : Option Nat)
  | orderDeparted (q : Fin 12) (slot : Option Slot)
  | stable (pos : Pos) (g : Gross)
  | keyShort (pos : Pos)
  | keyButton (pos : Pos) (button : Nat)
  | faultReport (pos : Pos) (cause : ModCause)
  | surveyAnswer (pos : Pos) (answer : SurveyAnswer)
  | ack (pos : Pos) (seq : Nat)
  | ackTimerExpiry (pos : Pos)
  | surveyTimerExpiry (pos : Pos)
  | lapse (p : Fin 4) (slot : Slot)
  | jam (p : Fin 4) (slot : Slot)
  | settleTimerExpiry (p : Fin 4)
  | orphanTimerExpiry (p : Fin 4)
  | orderLeaveTimerExpiry (q : Fin 12)
  | orderSettleTimerExpiry (q : Fin 12)
  | idleTimerExpiry
  | warningMarginReached (tote : Nat)
  | exposureExpiry (tote : Nat)
  | putGraceTimerExpiry
  | resetOn
  | badLength (lo hi : Byte)
  deriving DecidableEq, Repr

end Sys2Proof
end

