-- ==== Sys2Proof/Decode.lean ====
section
/-!
DEFINITION. The commands a word of the table's bits spells. No row of spec/opcode_table.json gives bits: the commands are
events, and the requests among them arrive as frames on the control link (Machine/Operands.lean, Machine/Link.lean).
-/
namespace Sys2Proof

/-- The command that a word spells: none, since no row of the table gives bits. -/
def decodeTableWord (_nbits _w : Nat) : Option Instr := none

end Sys2Proof
end

