-- ==== Sys2Proof/Config.lean ====
section
/-!
DEFINITION. The figures the manual fixes for every part, and the free values: results the manual does not state.
A free value is an opaque constant, so no proof can rest on what it is.
-/
namespace Sys2Proof.Config

/-- Capacity of the offer list (R1). -/
def offerCapacity : Nat := 32
/-- Most entries of a line's put list (R6). -/
def putListCapacity : Nat := 12
/-- Capacity of the inbox (R164). -/
def inboxCapacity : Nat := 4
/-- Reply entries of the outbound queue (R166). -/
def replyEntries : Nat := 4
/-- Notices held from which maskable notices are discarded and no grant is made (R46, R168). -/
def noticeThreshold : Nat := 48
/-- Notice entries of the outbound queue (R168). -/
def noticeCapacity : Nat := 64
/-- Greatest tote id and order ref (sections 1.2, 4.2). -/
def idMax : Nat := 4294967295
/-- Greatest gross weight of an order module, in grams (R156). -/
def grossMax : Nat := 60000
/-- Load of a survey timer, in tenths (R142, R160). -/
def surveyTenths : Nat := 20
/-- Load of an acknowledgement timer, in tenths (R158). -/
def ackTenths : Nat := 5
/-- The value at which the bench clock holds (R136). -/
def clockMax : Nat := 4294967295
/-- Start byte of a frame (R163). -/
def startByte : Byte := 0xC3

/-- FREE VALUE (log entry 7): the flag that WALL-ADD or WALL-URGE reads from a byte other than 0 and 1.
R64 and R66 refuse no such byte and state no result for it. -/
opaque flagOfByte : Byte → Bool

/-- FREE VALUE (log entry 8): the registration counter after a registration made at its greatest value,
4,294,967,295. R62 lets it grow and section 4.2 bounds it. -/
opaque registrationAfterMax : Nat

/-- FREE VALUE (log entry 9): the reply kind to a request whose kind plus 0x80 does not fit one byte (R166). -/
opaque replyKindBeyond : Byte → Byte

/-- FREE VALUE (log entry 39): the bytes that the image memory gives for a field, by its number, when the contents read
back at the completion of the n-th spoiled store do not agree (R151). -/
opaque spoiledBytes : Nat → Nat → List Byte

/-- FREE VALUE (log entry 39): the check word in the image memory after the n-th spoiled store (R151). -/
opaque spoiledCheck : Nat → Nat

end Sys2Proof.Config
end

