-- ==== Sys2Proof/Machine/State.lean ====
section
/-!
DEFINITION. The state of the part, block by block (00_scope.md section 5), as plain data, and its value right after
reset. Weights are grams, timers tenths of a second, `none` a stopped timer (R23).
-/
namespace Sys2Proof.Machine

/-- Temperature class of an offer (section 1.2). -/
inductive Temp where
  | ambient | chilled | frozen
  deriving DecidableEq, Repr

/-- Request class of a waiting offer (R44); `ret` is RETURN. -/
inductive ReqClass where
  | ret | expedite | cold | ambient
  deriving DecidableEq, Repr

/-- Offer states (section 1.2). -/
inductive OfferState where
  | waiting | called | staged | present | leaving
  deriving DecidableEq, Repr

/-- Release reasons (R170). -/
inductive Reason where
  | done | orphan | exposed | idleRescue | recall | fault | unread | wrongTote | unknown
  deriving DecidableEq, Repr

/-- Line states (section 1.3); `opn` is OPEN. -/
inductive LineState where
  | opn | done | short
  deriving DecidableEq, Repr

/-- Put modes (R14). -/
inductive PutMode where
  | weigh | press
  deriving DecidableEq, Repr

/-- An entry of a line's put list (R6). -/
structure PutEntry where
  tote : Nat
  comp : Nat
  units : Nat
  deriving DecidableEq, Repr

/-- A line record (section 1.3). `unit` is u, `bounds` is (umin, umax). -/
structure OLine where
  ref : Nat
  qty : Nat
  unit : Option Nat
  bounds : Option (Nat × Nat)
  volume : Nat
  mode : PutMode
  charge : Nat
  done : Nat := 0
  state : LineState := .opn
  puts : List PutEntry := []
  deriving DecidableEq, Repr

/-- The exposure figures of a cold offer (R117): budget in seconds, used in tenths, warning flag. -/
structure Exposure where
  budget : Nat
  used : Nat
  warning : Bool := false
  deriving DecidableEq, Repr

/-- An offer record (section 1.2). -/
structure Offer where
  tote : Nat
  temp : Temp
  exposure : Option Exposure
  lines : List OLine
  state : OfferState := .waiting
  place : Option (Fin 4 × Slot) := none
  lapses : Nat := 0
  ret : Bool := false
  presented : Option Nat := none
  reason : Option Reason := none
  deriving DecidableEq, Repr

/-- Position states of a source position (R22); `opn` is OPEN. -/
inductive SrcState where
  | closed | opn | closing | faulted
  deriving DecidableEq, Repr

/-- Fault causes (R26, R60); a source JAM names the slot whose leave timer expired. -/
inductive Cause where
  | survey | kind | jam (slot : Option Slot) | line | scale | reader | gate
  deriving DecidableEq, Repr

/-- Face states (R22). -/
inductive FaceState where
  | empty | called | advancing | present | leaving | settling
  deriving DecidableEq, Repr

/-- Lane states (R22). -/
inductive LaneState where
  | empty | called | staged | leaving
  deriving DecidableEq, Repr

/-- The reason of a release held for an ADVANCING face (R23). -/
inductive HeldRelease where
  | exposed | idleRescue
  deriving DecidableEq, Repr

/-- A face slot (R22, R23): the offer it names, the id read of a LEAVING tote without an offer (R25), its timers and
its held release. -/
structure Face where
  state : FaceState := .empty
  offer : Option Nat := none
  idRead : Option Nat := none
  callT : Option Nat := none
  leaveT : Option Nat := none
  settleT : Option Nat := none
  orphanT : Option Nat := none
  held : Option HeldRelease := none
  deriving DecidableEq, Repr

/-- A lane slot (R22, R23). -/
structure Lane where
  state : LaneState := .empty
  offer : Option Nat := none
  idRead : Option Nat := none
  callT : Option Nat := none
  leaveT : Option Nat := none
  deriving DecidableEq, Repr

/-- A source position. While it is CLOSED or FAULTED its slot states do not exist (R22) and `face` and `lane` hold
their blank values. `depth` is its own lane depth (R42), `surveyT` its survey timer (R142). -/
structure SrcPos where
  state : SrcState := .closed
  cause : Option Cause := none
  face : Face := {}
  lane : Lane := {}
  depth : Nat := 1
  surveyT : Option Nat := none
  deriving DecidableEq, Repr

/-- Position states of an order position (R60). -/
inductive OrdState where
  | closed | faulted | empty | expected | arrived | active | leaving | settling | occupied
  deriving DecidableEq, Repr

/-- Side of a window (R63). -/
inductive Side where
  | front | back
  deriving DecidableEq, Repr

/-- A window (R63). -/
structure Window where
  side : Side
  count : Nat
  invert : Bool
  deriving DecidableEq, Repr

/-- A compartment (section 4.2). -/
structure Comp where
  shut : Bool := false
  weight : Nat := 0
  volume : Nat := 0
  deriving DecidableEq, Repr

/-- Causes of a disturbance (section 4.2). -/
inductive Disturbance where
  | above | below | overload | fault
  deriving DecidableEq, Repr

/-- Condition of an order tote record (section 4.2). -/
inductive Cond where
  | clean | disturbed (cause : Disturbance)
  deriving DecidableEq, Repr

/-- One item per temperature class. -/
structure PerTemp (α : Type) where
  ambient : α
  chilled : α
  frozen : α
  deriving DecidableEq, Repr

/-- An order tote record (section 4.2). -/
structure Rec where
  ref : Nat
  tote : Nat
  urgent : Bool
  seq : Nat
  count : Nat
  weightCap : Nat
  volumeCap : Nat
  windows : PerTemp Window
  comps : List Comp
  baseline : Option Nat := none
  cond : Cond := .clean
  misput : Bool := false
  full : PerTemp Bool := ⟨false, false, false⟩
  deriving DecidableEq, Repr

/-- An order position (R60). `former` is the state a record held at a FAULTED position had (R75). -/
structure OrdPos where
  state : OrdState := .closed
  record : Option Rec := none
  former : Option OrdState := none
  latest : Option Gross := none
  idRead : Option Nat := none
  leaveT : Option Nat := none
  settleT : Option Nat := none
  removeLight : Bool := false
  cause : Option Cause := none
  surveyT : Option Nat := none
  deriving DecidableEq, Repr

/-- Verdicts of the weight verifier (R101). -/
inductive Verdict where
  | matched | part (k : Nat) | over (m : Nat) | ambiguous | negative | noChange
  deriving DecidableEq, Repr

/-- States of a put cycle (section 5.2). -/
inductive CycleState where
  | lit | remove (m : Nat) | check
  deriving DecidableEq, Repr

/-- The put cycle record (section 5.2). -/
structure Cycle where
  src : Fin 4
  offer : Nat
  line : Nat
  tgt : Fin 12
  tgtTote : Nat
  comp : Nat
  n : Nat
  acc : Nat := 0
  mode : PutMode
  state : CycleState := .lit
  verdict : Option Verdict := none
  grace : Bool := false
  deriving DecidableEq, Repr

/-- Picker conditions (R130). -/
inductive PickerCond where
  | active | held | idle
  deriving DecidableEq, Repr

/-- Bench modes (R137). -/
inductive BenchMode where
  | starting | service | draining | drained
  deriving DecidableEq, Repr

/-- Lock levels, weakest first (R152); `opn` is OPEN. -/
inductive Lock where
  | opn | keyed | shift | fixed
  deriving DecidableEq, Repr

/-- The notice mask (R145): `true` is on. -/
structure Mask where
  line : Bool := true
  wall : Bool := true
  picker : Bool := true
  position : Bool := true
  bench : Bool := true
  stored : Bool := true
  deriving DecidableEq, Repr

/-- The bench profile with the defaults of R145. -/
structure Profile where
  sourceCount : Nat := 4
  coldCapable : Vector Bool 4 := #v[true, true, false, false]
  laneDepth : Vector Nat 4 := #v[1, 1, 1, 1]
  orderCount : Nat := 8
  compartments : Nat := 4
  weightCap : Nat := 7000
  volumeCap : Nat := 100
  ta : Nat := 15
  tp : Nat := 20
  minWeighable : Nat := 20
  callTimeout : Nat := 180
  leaveTimeout : Nat := 20
  settleGuard : Nat := 15
  lapseLimit : Nat := 2
  orphanDwell : Nat := 30
  travelCharge : Nat := 45
  minDwell : Nat := 60
  warningMargin : Nat := 120
  putGrace : Nat := 20
  idleTimeout : Nat := 45
  rescueMargin : Nat := 300
  ladder : List ReqClass := [.expedite, .ret, .cold, .ambient]
  rotate : Bool := false
  coldAlternation : Bool := true
  mask : Mask := {}
  lock : Lock := .opn
  deriving DecidableEq, Repr

/-- The profile store (R144). `image`, `check` and `imageValid` are the contents of the stored image, the check stored
with it and its status; `loaded` is the profile status LOADED; `spoiled` is the model's own count of the stores that
failed or were abandoned, which the free values of their image hang on (log entry 39). -/
structure ProfileStore where
  profile : Profile := {}
  image : Profile := {}
  check : Nat := 0
  spoiled : Nat := 0
  imageValid : Bool := false
  loaded : Bool := false
  storedLock : Lock := .opn
  shift : Bool := false
  storing : Bool := false
  effLock : Lock := .opn
  deriving DecidableEq, Repr

/-- A display a LIGHT order names (R157). -/
inductive Display where
  | source | comp (j : Nat) | all
  deriving DecidableEq, Repr

/-- What a LIGHT order shows (R157). -/
inductive Show where
  | dark | count (n : Nat) | remove (n : Nat) | removeAll | check
  deriving DecidableEq, Repr

/-- GATE orders (R157). -/
inductive Gate where
  | faceExit | laneExit | advance | exit
  deriving DecidableEq, Repr

/-- Field orders (R157). -/
inductive Order where
  | light (d : Display) (w : Show) | gate (g : Gate) | survey
  deriving DecidableEq, Repr

/-- An order on a line's list: its sequence, and whether it is a dark LIGHT handed at start-up (R158). -/
structure FieldOrder where
  seq : Nat
  order : Order
  startDark : Bool := false
  deriving DecidableEq, Repr

/-- A field line (R157, R158): the head of `orders` is outstanding, `ackT` is its acknowledgement timer. -/
structure FieldLine where
  orders : List FieldOrder := []
  ackT : Option Nat := none
  nextSeq : Nat := 0
  deriving DecidableEq, Repr

/-- A received request (R164). -/
structure Request where
  tag : Byte
  kind : Byte
  body : List Byte
  deriving DecidableEq, Repr

/-- The operation that holds execution (R164). -/
inductive HeldJob where
  | openSource (p : Fin 4) | openOrder (q : Fin 12) | restart
  deriving DecidableEq, Repr

/-- An execution that is held: the request in execution and the operation it waits for (R164). -/
structure Execution where
  req : Request
  job : HeldJob
  deriving DecidableEq, Repr

/-- One entry of a line summary (R8). -/
structure SummaryEntry where
  ref : Nat
  qty : Nat
  done : Nat
  state : LineState
  deriving DecidableEq, Repr

/-- State named in a POSITION notice (R26, R61). -/
inductive PosState where
  | source (s : SrcState) | order (s : OrdState)
  deriving DecidableEq, Repr

/-- Reports taken as picker activity (R134). -/
inductive ActivityReport where
  | key | stable
  deriving DecidableEq, Repr

/-- Causes of a change of the picker condition (R130). -/
inductive PickerCause where
  | holdOn | holdOff | idleExpiry | activity (pos : Pos) (report : ActivityReport)
  deriving DecidableEq, Repr

/-- WALL notice events (section 4.10). -/
inductive WallEvent where
  | added (state : OrdState)
  | arrived
  | active (baseline : Nat)
  | overload
  | wrongTote (id : Option Nat)
  | disturbed (cause : Disturbance) (g : Gross) (baseline : Nat) (misput : Bool)
  | clean (g : Gross) (baseline : Nat)
  | full (temp : Temp) (room : List (Nat × Nat × Nat))
  | released (charges : List Comp) (fault : Bool) (idRead : Option Nat)
  deriving DecidableEq, Repr

/-- Bodies of notices (R167); the bench clock stands in `Notice`. -/
inductive NoticeBody where
  | call (tote : Nat) (p : Fin 4) (slot : Slot) (temp : Temp) (cls : ReqClass) (lapses : Nat)
      (remaining : Option Nat) (callTime : Nat)
  | release (tote : Option Nat) (reason : Reason) (place : Option (Fin 4 × Slot)) (remaining : Option Nat)
      (summary : List SummaryEntry)
  | lapse (tote : Nat) (p : Fin 4) (slot : Slot) (count : Nat) (summary : List SummaryEntry) (removed : Bool)
  | line (tote : Nat) (p : Fin 4) (index ref qty done : Nat) (state : LineState) (puts : List PutEntry)
  | wall (q : Fin 12) (record : Option (Nat × Nat)) (event : WallEvent)
  | picker (now left : PickerCond) (cause : PickerCause)
  | position (pos : Pos) (state : PosState) (cause : Option Cause)
  | benchMode (now left : BenchMode)
  | surveyed (mode : BenchMode) (sources : List (SrcState × Nat)) (orders : List (OrdState × Nat))
  | stored (outcome : StoreOutcome) (storedLock effLock : Lock)
  deriving DecidableEq, Repr

/-- A notice: the bench clock when it was queued, and its body (R167). -/
structure Notice where
  clock : Nat
  body : NoticeBody
  deriving DecidableEq, Repr

/-- Reasons of WAIT (R10). -/
inductive WaitReason where
  | mode | full | noOrder
  deriving DecidableEq, Repr

/-- Reasons of REJECT (R10, R64, R67, R71 to R73, R138, R41, R161). -/
inductive RejectReason where
  | format (line : Option Nat) | lines | cls | quantity (line : Nat) | bounds (line : Nat) | volume (line : Nat)
  | duplicate | exposed | position | limit | mismatch | state | overload | noPosition | survey | kind
  deriving DecidableEq, Repr

/-- Dispositions of RECALL (R15). -/
inductive Disposition where
  | removed | diverted | releasing | leaving
  deriving DecidableEq, Repr

/-- A value of a profile field, as PROFILE-SET and PROFILE-GET replies carry it (R147, R149). -/
inductive ProfileValue where
  | num (n : Nat) | flag (b : Bool) | flags (l : List Bool) | nums (l : List Nat) | classes (l : List ReqClass)
  | lock (l : Lock)
  deriving DecidableEq, Repr

/-- Content of a PROFILE-GET reply (R149). -/
structure ProfileReport where
  values : List ProfileValue
  loaded : Bool
  imageValid : Bool
  storedLock : Lock
  effLock : Lock
  shift : Bool
  storing : Bool
  key : Bool
  deriving DecidableEq, Repr

/-- Content of a QUERY BENCH reply (R169). -/
structure BenchReport where
  mode : BenchMode
  picker : PickerCond
  idleLeft : Option Nat
  clock : Nat
  loaded : Bool
  lost : Bool
  offers : Nat
  inbox : Nat
  notices : Nat
  ladder : List ReqClass
  lastCold : Option Temp
  cycle : Option Cycle
  graceLeft : Option Nat
  lastServed : Option Nat
  deriving DecidableEq, Repr

/-- Content of a QUERY POSITION reply for a source position (R22, R169). The slots are absent while the position
holds no slot states. -/
structure SourceReport where
  state : SrcState
  cause : Option Cause
  slots : Option (Face × Lane)
  deriving DecidableEq, Repr

/-- Content of a QUERY POSITION reply for an order position (R169). -/
structure OrderReport where
  state : OrdState
  cause : Option Cause
  latest : Option Gross
  leaveT : Option Nat
  settleT : Option Nat
  removeLight : Bool
  record : Option Rec
  deriving DecidableEq, Repr

/-- Exposure figures of a QUERY OFFER reply, in whole seconds rounded down (R118, R129). -/
structure ExposureReport where
  budget : Nat
  used : Nat
  remaining : Nat
  warning : Bool
  counted : Bool
  deriving DecidableEq, Repr

/-- Content of a QUERY OFFER reply (R169); `index` is the record's place in the list, counted from 1. -/
structure OfferReport where
  index : Nat
  tote : Nat
  temp : Temp
  exposure : Option ExposureReport
  lines : List OLine
  state : OfferState
  place : Option (Fin 4 × Slot)
  lapses : Nat
  ret : Bool
  presented : Option Nat
  reason : Option Reason
  summary : List SummaryEntry
  deriving DecidableEq, Repr

/-- Content after the status OK or CLAMPED. -/
inductive Content where
  | none
  | recalled (d : Disposition)
  | added (seq : Nat) (state : OrdState) (windows : PerTemp Window)
  | urged (records : Nat)
  | window (w : Window)
  | baseline (b : Nat)
  | sourceState (s : SrcState)
  | orderState (s : OrdState)
  | benchMode (m : BenchMode)
  | profileValue (v : ProfileValue)
  | profile (r : ProfileReport)
  | lock (l : Lock)
  | bench (r : BenchReport)
  | source (r : SourceReport)
  | order (r : OrderReport)
  | offer (r : OfferReport)
  | records (l : List (Fin 12 × OrdState × Rec))
  deriving DecidableEq, Repr

/-- Body of a reply: its status and content (R166). -/
inductive ReplyBody where
  | ok (c : Content)
  | accept (count : Nat) (budget : Option Nat) (modes : List PutMode)
  | wait (r : WaitReason)
  | reject (r : RejectReason)
  | busy | denied | mode | range
  | clamped (c : Content)
  | notFound | format | full | unknown
  deriving DecidableEq, Repr

/-- A reply (R166). -/
structure Reply where
  tag : Byte
  kind : Byte
  body : ReplyBody
  deriving DecidableEq, Repr

/-- An entry of the outbound queue (R168). -/
inductive OutEntry where
  | reply (r : Reply)
  | notice (n : Notice)
  deriving DecidableEq, Repr

/-- The levels of the three logic inputs (00_scope.md section 4): `true` is on. -/
structure Inputs where
  hold : Bool := false
  key : Bool := false
  reset : Bool := false
  deriving DecidableEq, Repr

/-- The link interface: the bytes of the frame being taken (R163), the inbox and the held execution (R164), the
outbound queue and the lost flag (R168). -/
structure Link where
  rx : List Byte := []
  inbox : List Request := []
  held : Option Execution := none
  out : List OutEntry := []
  lost : Bool := false
  deriving DecidableEq, Repr

/-- The call arbiter (R43); `lastCold` is `none` for NONE. -/
structure Arbiter where
  ladder : List ReqClass := [.expedite, .ret, .cold, .ambient]
  lastCold : Option Temp := none
  deriving DecidableEq, Repr

/-- The wall manager: the order positions with their records, and the registration counter (R60 to R62). -/
structure Wall where
  pos : Vector OrdPos 12 := Vector.replicate 12 {}
  counter : Nat := 0
  deriving DecidableEq, Repr

/-- The put sequencer (R80) and the put grace timer of the exposure bank (R117). -/
structure PutSeq where
  cycle : Option Cycle := none
  lastServed : Option Nat := none
  graceT : Option Nat := none
  deriving DecidableEq, Repr

/-- The picker monitor (R130). -/
structure Picker where
  cond : PickerCond := .active
  idleT : Option Nat := none
  deriving DecidableEq, Repr

/-- The bench mode control (R136, R137, R142); `surveying` says that the start-up survey runs. -/
structure Bench where
  mode : BenchMode := .starting
  clock : Nat := 0
  surveying : Bool := false
  deriving DecidableEq, Repr

/-- The state of the part, and the queue of commands that wait (the model's own field, log entry 1). -/
structure State where
  inputs : Inputs
  link : Link
  offers : List Offer
  arb : Arbiter
  src : Vector SrcPos 4
  wall : Wall
  put : PutSeq
  picker : Picker
  bench : Bench
  prof : ProfileStore
  lines : Vector FieldLine 16
  pending : List Instr
  deriving DecidableEq, Repr

/-- Why a step could stop with a fault. No rule of the manual stops the part: it has no constructor. -/
inductive Fault where
  deriving DecidableEq, Repr

/-- Why a command could be refused. -/
inductive Refusal where
  /-- Raised by a refused arm of `exec` for a row that has no meaning yet (safe). No arm is refused. -/
  | notModelled (mnemonic : String)
  deriving DecidableEq, Repr

/-- A field line on which the start-up survey has just sent its SURVEY order (R142, R157, R158). -/
def FieldLine.surveyed : FieldLine :=
  { orders := [{ seq := 0, order := .survey }], ackT := some 5, nextSeq := 1 }

/-- A field line of a position above the order count, with the dark LIGHT of the start-up outstanding (R142). -/
def FieldLine.darkened : FieldLine :=
  { orders := [{ seq := 0, order := .light .all .dark, startDark := true }], ackT := some 5, nextSeq := 1 }

/-- The part right after the RESET line has gone off (R140), with the inputs off and no valid stored image: the
defaults of R145 are loaded (R144), every block is at its start-up value, and the start-up survey has just begun
(R142): SURVEY orders to SP0 to SP3 and OP0 to OP7, dark LIGHT orders to OP8 to OP11.
The levels of HOLD and KEY and the content of the image are DESIGN CHOICES (log entries 2 and 3). -/
def State.reset : State where
  inputs := {}
  link := {}
  offers := []
  arb := {}
  src := Vector.replicate 4 { surveyT := some 20 }
  wall :=
    { pos := #v[{ surveyT := some 20 }, { surveyT := some 20 }, { surveyT := some 20 }, { surveyT := some 20 },
        { surveyT := some 20 }, { surveyT := some 20 }, { surveyT := some 20 }, { surveyT := some 20 },
        {}, {}, {}, {}] }
  put := {}
  picker := {}
  bench := { surveying := true }
  prof := {}
  lines :=
    #v[.surveyed, .surveyed, .surveyed, .surveyed, .surveyed, .surveyed, .surveyed, .surveyed,
      .surveyed, .surveyed, .surveyed, .surveyed, .darkened, .darkened, .darkened, .darkened]
  pending := []

end Sys2Proof.Machine
end

