-- ==== Sys2Proof/Machine/Flags.lean ====
section
/-!
DEFINITION. What the part works out from its records without changing them: exposure figures, windows and room in a
compartment, the verdict of the weight verifier, the effective lock.
-/
namespace Sys2Proof.Machine

/-! ## Temperature classes -/

/-- CHILLED and FROZEN are the cold classes (section 1.2). -/
def Temp.isCold : Temp → Bool
  | .ambient => false
  | .chilled => true
  | .frozen => true

/-- The item of a temperature class. -/
def PerTemp.get {α : Type} (x : PerTemp α) : Temp → α
  | .ambient => x.ambient
  | .chilled => x.chilled
  | .frozen => x.frozen

/-- Replace the item of a temperature class. -/
def PerTemp.set {α : Type} (x : PerTemp α) (t : Temp) (a : α) : PerTemp α :=
  match t with
  | .ambient => { x with ambient := a }
  | .chilled => { x with chilled := a }
  | .frozen => { x with frozen := a }

/-! ## Exposure (chapter 07) -/

/-- Remaining exposure in tenths (R118). -/
def Exposure.remaining (e : Exposure) : Nat := e.budget * 10 - e.used

/-- Judge the warning flag against the warning margin in seconds (R121). -/
def Exposure.judged (e : Exposure) (margin : Nat) : Exposure :=
  { e with warning := decide (e.remaining ≤ margin * 10) }

/-- Make the travel charge of a grant and judge the warning flag (R120). -/
def Exposure.charged (e : Exposure) (travel margin : Nat) : Exposure :=
  Exposure.judged { e with used := e.used + travel * 10 } margin

/-- A cold offer is counted while STAGED, PRESENT or LEAVING, until its remaining exposure is 0 (R119). -/
def Offer.counted (o : Offer) : Bool :=
  match o.exposure with
  | none => false
  | some e => (o.state == .staged || o.state == .present || o.state == .leaving) && decide (0 < e.remaining)

/-- Remaining exposure in whole seconds, rounded down; absent for AMBIENT (R118, R129). -/
def Offer.remainingSeconds (o : Offer) : Option Nat := o.exposure.map fun e => e.remaining / 10

/-- The exposure test of R47 and R48, in tenths; an AMBIENT offer passes. -/
def Offer.passesExposure (o : Offer) (pr : Profile) : Bool :=
  match o.exposure with
  | none => true
  | some e => decide ((pr.travelCharge + pr.minDwell) * 10 ≤ e.remaining)

/-! ## Lines -/

/-- Units a line still owes (R7). -/
def OLine.owed (l : OLine) : Nat := l.qty - l.done

/-- The line summary of an offer (R8). -/
def Offer.summary (o : Offer) : List SummaryEntry :=
  o.lines.map fun l => { ref := l.ref, qty := l.qty, done := l.done, state := l.state }

/-- Whether an offer has an OPEN line (R37). -/
def Offer.hasOpen (o : Offer) : Bool := o.lines.any fun l => l.state == .opn

/-- Add accepted units to a put list (R6). -/
def addPut (tote comp k : Nat) : List PutEntry → List PutEntry
  | [] => [{ tote := tote, comp := comp, units := k }]
  | e :: es =>
    if e.tote = tote ∧ e.comp = comp then { e with units := e.units + k } :: es
    else e :: addPut tote comp k es

/-- Write accepted units into a line (R6; step 1 of R95 and of R98). -/
def OLine.accept (l : OLine) (tote comp k : Nat) : OLine :=
  { l with done := l.done + k, puts := if k = 0 then l.puts else addPut tote comp k l.puts }

/-- The state of a line at the end of a cycle (step 1 of R95). -/
def OLine.closed (l : OLine) (short : Bool) : OLine :=
  { l with state := if short then .short else if l.done = l.qty then .done else .opn }

/-- Put mode and charge weight fixed at ACCEPT (R14). -/
def putModeOf (minWeighable : Nat) (unit : Option Nat) (bounds : Option (Nat × Nat)) : PutMode × Nat :=
  match bounds, unit with
  | some (umin, umax), _ => (if minWeighable ≤ umin then .weigh else .press, umax)
  | none, some u => (if minWeighable ≤ u then .weigh else .press, u)
  | none, none => (.press, 0)

/-! ## Windows and allocation (R63, R77) -/

/-- The compartments of a window in the order tried, for a record of `C` compartments (R63). -/
def Window.comps (w : Window) (C : Nat) : List Nat :=
  match w.side, w.invert with
  | .front, false => List.range w.count
  | .back, false => (List.range w.count).map fun i => C - 1 - i
  | .front, true => (List.range (C - w.count)).map fun i => C - 1 - i
  | .back, true => List.range (C - w.count)

/-- The assignable count: the least of r, Wl ÷ w and Vl ÷ v, a divisor of 0 setting no limit (R77). -/
def assignable (r wl w vl v : Nat) : Nat :=
  let a := if w = 0 then r else min r (wl / w)
  if v = 0 then a else min a (vl / v)

/-- The answer of an allocation (R77). -/
structure Answer where
  q : Fin 12
  tote : Nat
  comp : Nat
  n : Nat
  deriving DecidableEq, Repr

/-- Whether a full put list bars a compartment that it does not name (R77). -/
def OLine.barred (l : OLine) (tote j : Nat) : Bool :=
  decide (Config.putListCapacity ≤ l.puts.length) && !(l.puts.any fun e => e.tote == tote && e.comp == j)

/-- The assignable count of one compartment of a record for a line: 0 when it is shut, barred or does not exist. -/
def Rec.roomFor (r : Rec) (l : OLine) (j : Nat) : Nat :=
  match r.comps[j]? with
  | none => 0
  | some c =>
    if c.shut || l.barred r.tote j then 0
    else assignable l.owed (r.weightCap - c.weight) l.charge (r.volumeCap - c.volume) l.volume

/-- The first compartment of the window with room for at least one unit (R77). -/
def Rec.firstRoom (q : Fin 12) (r : Rec) (t : Temp) (l : OLine) : Option Answer :=
  ((r.windows.get t).comps r.count).findSome? fun j =>
    if 1 ≤ r.roomFor l j then some { q := q, tote := r.tote, comp := j, n := r.roomFor l j } else none

/-- Insert a candidate record by registration sequence. -/
def insertBySeq (x : Fin 12 × Rec) : List (Fin 12 × Rec) → List (Fin 12 × Rec)
  | [] => [x]
  | y :: ys => if x.2.seq < y.2.seq then x :: y :: ys else y :: insertBySeq x ys

/-- Room left per open compartment of a window: compartment, weight left, volume left (R79). -/
def Rec.roomLeft (r : Rec) (t : Temp) : List (Nat × Nat × Nat) :=
  ((r.windows.get t).comps r.count).filterMap fun j =>
    match r.comps[j]? with
    | none => none
    | some c => if c.shut then none else some (j, r.weightCap - c.weight, r.volumeCap - c.volume)

/-! ## The weight verifier (chapter 06) -/

/-- The weight basis of a request (R102). -/
inductive Basis where
  | fixed (u : Nat)
  | variable (umin umax : Nat)
  deriving DecidableEq, Repr

/-- The weight basis of a line (R102): VARIABLE when it carries its bounds. -/
def OLine.basis (l : OLine) : Basis :=
  match l.bounds, l.unit with
  | some (a, b), _ => .variable a b
  | none, some u => .fixed u
  | none, none => .fixed 0

/-- `d` divided by `u`, rounded to the nearest whole number with halves rounded up (R105). -/
def nearest (d u : Nat) : Nat := (2 * d + u) / (2 * u)

/-- The inferred count of a delta (R105, R106). -/
def Basis.inferred (b : Basis) (d : Nat) : Nat :=
  match b with
  | .fixed u => nearest d u
  | .variable umin umax => nearest d ((umin + umax) / 2)

/-- The tolerance of a FIXED line for a count (R109). -/
def tolerance (k u ta tp : Nat) : Nat := max ta ((k * u * tp + 999) / 1000)

/-- Whether a delta lies within the tolerance for a count (R109, R110). -/
def Basis.within (b : Basis) (d k ta tp : Nat) : Bool :=
  match b with
  | .fixed u => decide ((d - k * u) + (k * u - d) ≤ tolerance k u ta tp)
  | .variable umin umax => decide (k * umin ≤ d + ta) && decide (d ≤ k * umax + ta)

/-- Stage 4: classify the inferred count (R107). -/
def classify (b : Basis) (d r ta tp : Nat) : Verdict :=
  let k := b.inferred d
  if r < k then .over (k - r)
  else if k = 0 then .ambiguous
  else if b.within d k ta tp = false then .ambiguous
  else if k = r then .matched
  else .part k

/-- The verdict on a stable weight at the target of a WEIGH cycle (R103, R104, R107). -/
def verdict (g : Gross) (base r : Nat) (b : Basis) (ta tp : Nat) : Verdict :=
  match g with
  | .overload => .ambiguous
  | .grams w =>
    let d : Int := (w : Int) - (base : Int)
    if d < -(ta : Int) then .negative
    else if d ≤ (ta : Int) then .noChange
    else classify b d.toNat r ta tp

/-- A stable weight against a baseline (R69): the disturbance it shows, or none within Ta. -/
def disturbanceOf (g : Gross) (base ta : Nat) : Option Disturbance :=
  match g with
  | .overload => some .overload
  | .grams w => if base + ta < w then some .above else if w + ta < base then some .below else none

/-- The condition a judgement gives (R69). -/
def condOf : Option Disturbance → Cond
  | none => .clean
  | some d => .disturbed d

/-! ## Locks (R152) -/

/-- Strength of a lock level: OPEN, KEYED, SHIFT, FIXED. -/
def Lock.strength : Lock → Nat
  | .opn => 0
  | .keyed => 1
  | .shift => 2
  | .fixed => 3

/-- The stronger of the stored lock and the SHIFT flag (R152). -/
def effectiveLock (stored : Lock) (shift : Bool) : Lock :=
  if shift && decide (stored.strength < Lock.shift.strength) then .shift else stored

/-- Whether the effective lock denies PROFILE-SET and PROFILE-STORE (R152). -/
def lockDenies (eff : Lock) (key : Bool) : Bool :=
  match eff with
  | .opn => false
  | .keyed => !key
  | .shift => true
  | .fixed => true

/-! ## The displays of the lit cycle (R85) -/

/-- Units still asked of the picker: n − k_acc. -/
def Cycle.left (c : Cycle) : Nat := c.n - c.acc

/-- What the source display shows (R85). -/
def Cycle.sourceShow (c : Cycle) : Show :=
  match c.state with
  | .lit => .count c.left
  | .remove _ => .dark
  | .check => .dark

/-- What the target compartment display shows (R85). -/
def Cycle.targetShow (c : Cycle) : Show :=
  match c.state with
  | .lit => .count c.left
  | .remove m => .remove m
  | .check => .check

/-- The cycle state after a verdict (R87); a remove count above 99 is held as 99 (R85). -/
def stateAfter : Verdict → CycleState
  | .matched => .lit
  | .part _ => .lit
  | .over m => .remove (min m 99)
  | .ambiguous => .check
  | .negative => .check
  | .noChange => .lit

/-! ## Report values (R156) -/

/-- A tote id a module may send: 1..4,294,967,295, or NONE. -/
def validId : Option Nat → Bool
  | none => true
  | some i => decide (1 ≤ i) && decide (i ≤ Config.idMax)

/-- A gross weight a module may send: one above 60000 g is not in the range of R156, and its report is discarded by R155,
though R102 speaks of it as OVERLOAD (DEDUCED, log entry 37). -/
def validGross : Gross → Bool
  | .overload => true
  | .grams g => decide (g ≤ Config.grossMax)

/-- A survey answer whose values a module may send. -/
def validAnswer : SurveyAnswer → Bool
  | .source f l => (f.map validId).getD true && (l.map validId).getD true
  | .order t g => (t.map validId).getD true && validGross g

/-- The cause a FAULT report gives a position (R159: "taken as sent"). -/
def causeOf : ModCause → Cause
  | .scale => .scale
  | .reader => .reader
  | .gate => .gate

end Sys2Proof.Machine
end

