-- ==== Sys2Proof/Machine/Ops.lean ====
section
/-!
DEFINITION. The shared operations on the state: reading and changing one position, line or offer, handing field
orders, queuing notices and replies, the mode changes, the release of a tote, and the gathered judgements that many
commands end with.
-/
namespace Sys2Proof.Machine

/-- The source positions in ascending index. -/
def srcIndices : List (Fin 4) := [0, 1, 2, 3]

/-- The order positions in ascending index. -/
def ordIndices : List (Fin 12) := [0, 1, 2, 3, 4, 5, 6, 7, 8, 9, 10, 11]

/-- The field lines in ascending index. -/
def lineIndices : List (Fin 16) := [0, 1, 2, 3, 4, 5, 6, 7, 8, 9, 10, 11, 12, 13, 14, 15]

/-! ## Reading and changing one position, line or offer -/

/-- Change one source position. -/
def modSrc (p : Fin 4) (f : SrcPos → SrcPos) (s : State) : State :=
  { s with src := s.src.set p (f s.src[p]) }

/-- Change one order position. -/
def modOrd (q : Fin 12) (f : OrdPos → OrdPos) (s : State) : State :=
  { s with wall := { s.wall with pos := s.wall.pos.set q (f s.wall.pos[q]) } }

/-- Change the record an order position holds. -/
def modRec (q : Fin 12) (f : Rec → Rec) (s : State) : State :=
  modOrd q (fun o => { o with record := o.record.map f }) s

/-- Change one field line. -/
def modLine (i : Fin 16) (f : FieldLine → FieldLine) (s : State) : State :=
  { s with lines := s.lines.set i (f s.lines[i]) }

/-- The offer record that carries a tote id (R1: at most one). -/
def findOffer (t : Nat) (s : State) : Option Offer := s.offers.find? fun o => o.tote == t

/-- Change the offer record that carries a tote id; it keeps its place (R1). -/
def modOffer (t : Nat) (f : Offer → Offer) (s : State) : State :=
  { s with offers := s.offers.map fun o => if o.tote = t then f o else o }

/-- The last-served pointer becomes absent when the offer it names stops being PRESENT (R80). -/
def clearServed (t : Nat) (s : State) : State :=
  if s.put.lastServed = some t then { s with put := { s.put with lastServed := none } } else s

/-- Take an offer record off the list. -/
def eraseOffer (t : Nat) (s : State) : State := { s with offers := s.offers.filter fun o => o.tote != t }

/-- Remove an offer record: the records behind it close up (R1). -/
def dropOffer (t : Nat) (s : State) : State :=
  clearServed t (eraseOffer t s)

/-- An offer as it stands when it has returned to WAITING: position, presentation time and release reason absent
(R4); its place in the list, lines, lapse count and exposure stay (R7). -/
def Offer.toWaiting (o : Offer) : Offer :=
  { o with state := .waiting, place := none, presented := none, reason := none }

/-- The field line of a position (R155). -/
def lineOf : Pos → Fin 16
  | .src p => ⟨p.val, by omega⟩
  | .ord q => ⟨4 + q.val, by omega⟩

/-- Whether a position is FAULTED. -/
def isFaulted (pos : Pos) (s : State) : Bool :=
  match pos with
  | .src p => s.src[p].state == .faulted
  | .ord q => s.wall.pos[q].state == .faulted

/-- Whether a survey of the position is in progress: its survey timer runs (R142, R160). -/
def inSurvey (pos : Pos) (s : State) : Bool :=
  match pos with
  | .src p => s.src[p].surveyT.isSome
  | .ord q => s.wall.pos[q].surveyT.isSome

/-- Whether the field line interface takes ordinary reports from the position (R155, R160): it is neither FAULTED
nor in a survey. -/
def takesReports (pos : Pos) (s : State) : Bool := !(isFaulted pos s) && !(inSurvey pos s)

/-! ## Field orders (R157, R158) -/

/-- Whether a new order makes a waiting order obsolete (R157). -/
def obsoletes (new old : Order) : Bool :=
  match new, old with
  | .light .all _, .light _ _ => true
  | .light d _, .light d' _ => decide (d = d')
  | .gate k, .gate k' => decide (k = k')
  | .survey, .light _ _ => true
  | _, _ => false

/-- Merge a new order with the waiting orders; the outstanding order at the head stays (R157). -/
def mergeOrders (new : Order) : List FieldOrder → List FieldOrder
  | [] => []
  | o :: waiting => o :: waiting.filter fun w => !(obsoletes new w.order)

/-- Append an order to a line's list, merged; an order that finds the list empty is sent at once and starts the
acknowledgement timer (R157, R158). The order sequence is given when the order is handed over (log entry 14). -/
def FieldLine.hand (o : Order) (dark : Bool) (l : FieldLine) : FieldLine :=
  { orders := mergeOrders o l.orders ++ [{ seq := l.nextSeq, order := o, startDark := dark }]
    ackT := if l.orders.isEmpty then some Config.ackTenths else l.ackT
    nextSeq := (l.nextSeq + 1) % 256 }

/-- The list after its front has gone: the next order, if there is one, is sent (R157, R158). -/
def FieldLine.sendNext (rest : List FieldOrder) (l : FieldLine) : FieldLine :=
  { l with orders := rest, ackT := if rest.isEmpty then none else some Config.ackTenths }

/-- Empty a line's list and stop its timer (R157, R158). -/
def FieldLine.emptied (l : FieldLine) : FieldLine := { l with orders := [], ackT := none }

/-- Take the SURVEY order off the list at the end of a survey (R160: an acknowledgement that arrives after the end is
discarded; log entry 15). -/
def FieldLine.dropSurvey (l : FieldLine) : FieldLine :=
  match l.orders with
  | [] => l
  | o :: rest =>
    let rest' := rest.filter fun w => w.order != .survey
    if o.order = .survey then FieldLine.sendNext rest' l else { l with orders := o :: rest' }

/-- Hand an order to the field line interface; one for a FAULTED position is discarded, but for SURVEY (R157). -/
def handOrder (pos : Pos) (o : Order) (s : State) : State :=
  if isFaulted pos s && o != .survey then s else modLine (lineOf pos) (FieldLine.hand o false) s

/-- Empty the list of a position's line and stop its timer (R157). -/
def clearLine (pos : Pos) (s : State) : State := modLine (lineOf pos) FieldLine.emptied s

/-! ## The outbound queue (R166 to R168) -/

/-- Whether an entry of the outbound queue is a notice. -/
def OutEntry.isNotice : OutEntry → Bool
  | .notice _ => true
  | .reply _ => false

/-- Notices held in the outbound queue (R168). -/
def noticeCount (s : State) : Nat := s.link.out.countP OutEntry.isNotice

/-- Replies held in the outbound queue (R166). -/
def replyCount (s : State) : Nat := s.link.out.countP fun e => !e.isNotice

/-- The mask entry of a notice, `none` for the kinds that are not maskable (R167). -/
def NoticeBody.maskEntry (b : NoticeBody) (m : Mask) : Option Bool :=
  match b with
  | .call .. => none
  | .release .. => none
  | .lapse .. => none
  | .line .. => some m.line
  | .wall .. => some m.wall
  | .picker .. => some m.picker
  | .position .. => some m.position
  | .benchMode .. => some m.bench
  | .surveyed .. => some m.bench
  | .stored .. => some m.stored

/-- Append a notice to the outbound queue (R168). -/
def pushNotice (b : NoticeBody) (s : State) : State :=
  { s with link := { s.link with out := s.link.out ++ [.notice { clock := s.bench.clock, body := b }] } }

/-- Set the lost flag (R168). -/
def setLost (s : State) : State := { s with link := { s.link with lost := true } }

/-- Hand a notice to the link interface: masked, queued, or discarded with the lost flag set (R167, R168). -/
def notify (b : NoticeBody) (s : State) : State :=
  match b.maskEntry s.prof.profile.mask with
  | some false => s
  | some true => if noticeCount s < Config.noticeThreshold then pushNotice b s else setLost s
  | none => if noticeCount s < Config.noticeCapacity then pushNotice b s else setLost s

/-- The reply kind: the request's kind plus 0x80 (R166). -/
def replyKind (k : Byte) : Byte := if k.toNat < 128 then k + 0x80 else Config.replyKindBeyond k

/-- Queue the reply to a request (R166). -/
def answer (r : Request) (b : ReplyBody) (s : State) : State :=
  { s with link := { s.link with
      out := s.link.out ++ [.reply { tag := r.tag, kind := replyKind r.kind, body := b }] } }

/-- Whether the held execution keeps a reply entry reserved (R164): a survey's reply is still to be queued, while
RESTART has queued its own. -/
def reserved (s : State) : Nat :=
  match s.link.held with
  | some { job := .openSource _, .. } => 1
  | some { job := .openOrder _, .. } => 1
  | some { job := .restart, .. } => 0
  | none => 0

/-- Whether a reply entry is free (R164, R166). -/
def replyFree (s : State) : Bool := decide (replyCount s + reserved s < Config.replyEntries)

/-! ## Positions -/

/-- Queue the POSITION notice of a source position as it stands (R26). -/
def notifySrc (p : Fin 4) (s : State) : State :=
  notify (.position (.src p) (.source s.src[p].state) s.src[p].cause) s

/-- Queue the POSITION notice of an order position as it stands (R61). -/
def notifyOrd (q : Fin 12) (s : State) : State :=
  notify (.position (.ord q) (.order s.wall.pos[q].state) s.wall.pos[q].cause) s

/-- Queue a WALL notice: it names the record the position holds (section 4.10). -/
def notifyWall (q : Fin 12) (e : WallEvent) (s : State) : State :=
  notify (.wall q (s.wall.pos[q].record.map fun r => (r.ref, r.tote)) e) s

/-- A source position without slot states, timers or held release (R22); depth and survey timer stay. -/
def SrcPos.blank (x : SrcPos) (st : SrcState) (c : Option Cause) : SrcPos :=
  { x with state := st, cause := c, face := {}, lane := {} }

/-- A source position in another position state, its slots as they are (R39, R41). -/
def SrcPos.putState (st : SrcState) (x : SrcPos) : SrcPos := { x with state := st }

/-- Set the survey timer of a source position (R142, R160). -/
def SrcPos.setSurvey (t : Option Nat) (x : SrcPos) : SrcPos := { x with surveyT := t }

/-- Set the survey timer of an order position (R142, R160). -/
def OrdPos.setSurvey (t : Option Nat) (x : OrdPos) : OrdPos := { x with surveyT := t }

/-- Set the remove light of an order position (R70). -/
def OrdPos.setLight (on : Bool) (x : OrdPos) : OrdPos := { x with removeLight := on }

/-- The position's lane depth follows the profile while its lane is EMPTY (R42). -/
def SrcPos.synced (x : SrcPos) (d : Nat) : SrcPos := if x.lane.state = .empty then { x with depth := d } else x

/-- An order position that is CLOSED: every item absent, stopped or off (R60, R61). -/
def OrdPos.shutDown (x : OrdPos) : OrdPos := { surveyT := x.surveyT }

/-- Whether face and lane of a source position are both EMPTY (R39, R139). -/
def SrcPos.bothEmpty (x : SrcPos) : Bool := x.face.state == .empty && x.lane.state == .empty

/-- Make a source position CLOSED and queue its POSITION notice (R26, R39). -/
def closeSrc (p : Fin 4) (s : State) : State :=
  notifySrc p (modSrc p (fun x => x.blank .closed none) s)

/-- Make an order position CLOSED and queue its POSITION notice (R61, R76). -/
def closeOrd (q : Fin 12) (s : State) : State := notifyOrd q (modOrd q OrdPos.shutDown s)

/-! ## Bench mode (R137, R139) -/

/-- Write the bench mode. -/
def putMode (m : BenchMode) (s : State) : State := { s with bench := { s.bench with mode := m } }

/-- Change the bench mode and queue the BENCH notice (R137). -/
def setMode (m : BenchMode) (s : State) : State :=
  notify (.benchMode m s.bench.mode) (putMode m s)

/-- Judge the drain condition: in DRAINING, with every face and lane EMPTY, the mode becomes DRAINED (R139). -/
def judgeDrain (s : State) : State :=
  if s.bench.mode = .draining ∧ srcIndices.all (fun p => s.src[p].bothEmpty) then setMode .drained s else s

/-- What follows when a slot of a position may have become EMPTY: its lane depth follows the profile (R42), a CLOSING
position with both slots EMPTY becomes CLOSED (R39), and the drain is judged (R139). A POSITION notice stands before
BENCH DRAINED (DESIGN CHOICE, log entry 32). -/
def slotSettled (p : Fin 4) (s : State) : State :=
  let s1 := modSrc p (fun x => x.synced s.prof.profile.laneDepth[p]) s
  let s2 := if s1.src[p].state = .closing ∧ s1.src[p].bothEmpty then closeSrc p s1 else s1
  judgeDrain s2

/-! ## Allocation and serveability (R77, R79) -/

/-- The candidates for an order ref: ACTIVE and CLEAN records, in registration order (R77). -/
def candidateRecords (ref : Nat) (s : State) : List (Fin 12 × Rec) :=
  (ordIndices.filterMap fun q =>
    match s.wall.pos[q].record with
    | none => none
    | some r => if s.wall.pos[q].state = .active ∧ r.cond = .clean ∧ r.ref = ref then some (q, r) else none).foldr
    insertBySeq []

/-- The compartment a line would be given (R77). -/
def findRoom (t : Temp) (l : OLine) (s : State) : Option Answer :=
  (candidateRecords l.ref s).findSome? fun c => c.2.firstRoom c.1 t l

/-- Queue the FULL notice of one candidate and set its mark, unless the mark is set already (R79). -/
def markFull (t : Temp) (s : State) (q : Fin 12) : State :=
  match s.wall.pos[q].record with
  | none => s
  | some r =>
    if r.full.get t then s
    else modRec q (fun r => { r with full := r.full.set t true }) (notifyWall q (.full t (r.roomLeft t)) s)

/-- Answer an allocation; an answer "none" makes the full marking of R79 (R77). -/
def allocate (t : Temp) (l : OLine) (s : State) : Option Answer × State :=
  match findRoom t l s with
  | some a => (some a, s)
  | none => (none, ((candidateRecords l.ref s).map fun c => c.1).foldl (markFull t) s)

/-- Ask for the OPEN lines in order until one is serveable: its index and answer (R77, R84; log entry 16). -/
def firstServeable (t : Temp) : Nat → List OLine → State → Option (Nat × Answer) × State
  | _, [], s => (none, s)
  | i, l :: ls, s =>
    if l.state = .opn then
      match allocate t l s with
      | (some a, s1) => (some (i, a), s1)
      | (none, s1) => firstServeable t (i + 1) ls s1
    else firstServeable t (i + 1) ls s

/-! ## The orphan condition (R38) -/

/-- Whether the face of a source position is the source of the lit cycle (R33). -/
def isLitSource (p : Fin 4) (s : State) : Bool :=
  match s.put.cycle with
  | none => false
  | some c => decide (c.src = p)

/-- Whether an order position holds the target of the lit cycle. -/
def isTarget (q : Fin 12) (s : State) : Bool :=
  match s.put.cycle with
  | none => false
  | some c => decide (c.tgt = q)

/-- Set the orphan timer of the face (R38). -/
def SrcPos.setOrphan (t : Option Nat) (x : SrcPos) : SrcPos := { x with face := { x.face with orphanT := t } }

/-- Stop the orphan timer of a face. -/
def stopOrphan (p : Fin 4) (s : State) : State :=
  modSrc p (SrcPos.setOrphan none) s

/-- Start the orphan timer of a face, unless it runs (R38). -/
def startOrphan (p : Fin 4) (s : State) : State :=
  modSrc p (SrcPos.setOrphan (some (s.src[p].face.orphanT.getD (s.prof.profile.orphanDwell * 10)))) s

/-- The offer a face names. -/
def faceOffer (p : Fin 4) (s : State) : Option Offer := s.src[p].face.offer.bind fun t => findOffer t s

/-- Judge the orphan condition of one face (R38). -/
def judgeOrphan (p : Fin 4) (s : State) : State :=
  if s.src[p].face.state = .present ∧ isLitSource p s = false then
    match faceOffer p s with
    | none => stopOrphan p s
    | some o =>
      if o.hasOpen then
        match firstServeable o.temp 0 o.lines s with
        | (some _, s1) => stopOrphan p s1
        | (none, s1) => startOrphan p s1
      else stopOrphan p s
  else stopOrphan p s

/-- Judge the orphan condition of every face (R38). The faces are judged in ascending index, which orders the FULL notices
of R79 (DESIGN CHOICE, log entry 31). -/
def judgeOrphans (s : State) : State := srcIndices.foldl (fun s p => judgeOrphan p s) s

/-! ## Releases (R17, R32, R33) -/

/-- The exit gate of a slot. -/
def exitGate : Slot → Gate
  | .face => .faceExit
  | .lane => .laneExit

/-- Make a slot LEAVING with its leave timer started; the face's call and orphan timers and held release end (R32). -/
def SrcPos.leaving (sl : Slot) (offer idRead : Option Nat) (t : Nat) (x : SrcPos) : SrcPos :=
  match sl with
  | .face => { x with face := { state := .leaving, offer := offer, idRead := idRead, leaveT := some t } }
  | .lane => { x with lane := { state := .leaving, offer := offer, idRead := idRead, leaveT := some t } }

/-- Queue the RELEASE notice of an offer's tote (R17, R170). -/
def notifyRelease (o : Offer) (r : Reason) (place : Option (Fin 4 × Slot)) (s : State) : State :=
  notify (.release (some o.tote) r place o.remainingSeconds o.summary) s

/-- Whether a slot holds a tote that a release may be ordered for: a PRESENT face or a STAGED lane (R32). -/
def SrcPos.releasable (sl : Slot) (x : SrcPos) : Bool :=
  match sl with
  | .face => x.face.state == .present
  | .lane => x.lane.state == .staged

/-- Order the release of the tote of a PRESENT face or a STAGED lane (R17, R32); of no other (DESIGN CHOICE, log entry
27). -/
def releaseSlot (p : Fin 4) (sl : Slot) (t : Nat) (r : Reason) (s : State) : State :=
  if s.src[p].releasable sl then
    let s1 := modSrc p (SrcPos.leaving sl (some t) none (s.prof.profile.leaveTimeout * 10)) s
    let s2 := handOrder (.src p) (.gate (exitGate sl)) s1
    let s3 := clearServed t (modOffer t (fun o => { o with state := .leaving, reason := some r }) s2)
    match findOffer t s3 with
    | none => s3
    | some o => notifyRelease o r (some (p, sl)) s3
  else s

/-- Release a tote found at a survey, with reason UNKNOWN: the slot names no offer and holds the id read (R25). -/
def releaseUnknown (p : Fin 4) (sl : Slot) (id : Option Nat) (s : State) : State :=
  let s1 := modSrc p (SrcPos.leaving sl none id (s.prof.profile.leaveTimeout * 10)) s
  let s2 := handOrder (.src p) (.gate (exitGate sl)) s1
  notify (.release id .unknown (some (p, sl)) none []) s2

/-- The release reason of a held release. -/
def HeldRelease.reason : HeldRelease → Reason
  | .exposed => .exposed
  | .idleRescue => .idleRescue

/-- Hold a release for an ADVANCING face; the first asked stays (R33). -/
def SrcPos.holdRelease (h : HeldRelease) (x : SrcPos) : SrcPos :=
  { x with face := { x.face with held := some (x.face.held.getD h) } }

/-- The exposure bank asks for a release (R33): a lit source refuses it, an ADVANCING face keeps the first asked, a
LEAVING or CALLED slot does nothing. -/
def askRelease (t : Nat) (h : HeldRelease) (s : State) : State :=
  match (findOffer t s).bind fun o => o.place with
  | none => s
  | some (p, .face) =>
    match s.src[p].face.state with
    | .present => if isLitSource p s then s else releaseSlot p .face t h.reason s
    | .advancing => modSrc p (SrcPos.holdRelease h) s
    | _ => s
  | some (p, .lane) => if s.src[p].lane.state = .staged then releaseSlot p .lane t h.reason s else s

/-- Judge R37 at a PRESENT face that is not the lit source, and otherwise the orphan condition (R28, R97 step 2). -/
def judgeFace (p : Fin 4) (s : State) : State :=
  if s.src[p].face.state = .present ∧ isLitSource p s = false then
    match faceOffer p s with
    | none => s
    | some o => if o.hasOpen then judgeOrphan p s else releaseSlot p .face o.tote .done s
  else s

/-! ## The picker monitor's idle timer (R133) -/

/-- Set the idle timer. -/
def setIdleT (t : Option Nat) (s : State) : State := { s with picker := { s.picker with idleT := t } }

/-- Start the idle timer when a cycle exists and the picker is ACTIVE (R133). -/
def startIdle (s : State) : State :=
  if s.put.cycle.isSome ∧ s.picker.cond = .active then
    setIdleT (some (s.prof.profile.idleTimeout * 10)) s
  else s

/-- Stop the idle timer. -/
def stopIdle (s : State) : State := setIdleT none s

/-- Write the picker condition. -/
def putCond (c : PickerCond) (s : State) : State := { s with picker := { s.picker with cond := c } }

/-- Change the picker condition and queue the PICKER notice (R130). -/
def setPicker (c : PickerCond) (cause : PickerCause) (s : State) : State :=
  notify (.picker c s.picker.cond cause) (putCond c s)

/-! ## Remove lights and the condition of a record (R69, R70) -/

/-- Turn a remove light off, if it is on (R70). -/
def lightOff (q : Fin 12) (s : State) : State :=
  if s.wall.pos[q].removeLight then
    handOrder (.ord q) (.light .all .dark) (modOrd q (OrdPos.setLight false) s)
  else s

/-- Order a remove light on; while the picker is HELD it is withheld (R70, R86). -/
def lightOn (q : Fin 12) (s : State) : State :=
  if s.picker.cond = .held then s
  else handOrder (.ord q) (.light .all .removeAll) (modOrd q (OrdPos.setLight true) s)

/-- Make the record at an order position DISTURBED without a misput mark, and queue the WALL notice (R92, R93, R98);
the change is reported to the source position controllers (R69). -/
def disturb (q : Fin 12) (d : Disturbance) (g : Gross) (s : State) : State :=
  match s.wall.pos[q].record with
  | none => s
  | some r =>
    judgeOrphans (notifyWall q (.disturbed d g (r.baseline.getD 0) false)
      (modRec q (fun r => { r with cond := .disturbed d }) s))

end Sys2Proof.Machine
end

