-- ==== Sys2Proof/Machine/Operands.lean ====
section
/-!
DEFINITION. The operands of the control link as bytes: the CRC-16 (R144, R163), the frame envelope and the layouts of
section 11.7 (R170), the reading of request bodies (R165) and the profile fields (R145).
The layouts of the request bodies other than OFFER are a DESIGN CHOICE (log entry 5).
-/
namespace Sys2Proof.Machine

/-! ## CRC-16 and frames -/

/-- One bit of the CRC-16 with polynomial 0x1021, without reflection (R144). -/
def crcBit (c : BitVec 16) : BitVec 16 := if c.msb then (c <<< 1) ^^^ 0x1021 else c <<< 1

/-- One byte of the CRC-16. -/
def crcByte (c : BitVec 16) (b : Byte) : BitVec 16 :=
  let x := c ^^^ (BitVec.ofNat 16 (b.toNat * 256))
  crcBit (crcBit (crcBit (crcBit (crcBit (crcBit (crcBit (crcBit x)))))))

/-- The CRC-16 of R144: initial value 0xFFFF, final XOR 0x0000. -/
def crc16 (bs : List Byte) : Nat := (bs.foldl crcByte 0xFFFF).toNat

/-- A number as two bytes, low byte first (section 11.7). -/
def bytes16 (n : Nat) : List Byte := [BitVec.ofNat 8 n, BitVec.ofNat 8 (n / 256)]

/-- A number as four bytes, low byte first (section 11.7). -/
def bytes32 (n : Nat) : List Byte :=
  [BitVec.ofNat 8 n, BitVec.ofNat 8 (n / 256), BitVec.ofNat 8 (n / 65536), BitVec.ofNat 8 (n / 16777216)]

/-- The bytes a frame's check is taken over: length, tag, kind and body (R163). -/
def checked (tag kind : Byte) (body : List Byte) : List Byte := bytes16 (body.length + 2) ++ tag :: kind :: body

/-- A whole frame (section 11.7). -/
def frame (tag kind : Byte) (body : List Byte) : List Byte :=
  Config.startByte :: checked tag kind body ++ bytes16 (crc16 (checked tag kind body))

/-- The code of a release reason (R170). -/
def Reason.code : Reason → Nat
  | .done => 0
  | .orphan => 1
  | .exposed => 2
  | .idleRescue => 3
  | .recall => 4
  | .fault => 5
  | .unread => 6
  | .wrongTote => 7
  | .unknown => 8

/-- The code of a line state (R170). -/
def LineState.code : LineState → Nat
  | .opn => 0
  | .done => 1
  | .short => 2

/-- The code of a slot (R170). -/
def slotCode : Slot → Nat
  | .face => 0
  | .lane => 1

/-- A summary entry of a RELEASE notice: 7 bytes (R170). -/
def SummaryEntry.bytes (e : SummaryEntry) : List Byte :=
  bytes32 e.ref ++ [BitVec.ofNat 8 e.qty, BitVec.ofNat 8 e.done, BitVec.ofNat 8 e.state.code]

/-- The body of a RELEASE notice (R170). -/
def releaseBytes (clock : Nat) (tote : Option Nat) (r : Reason) (place : Option (Fin 4 × Slot))
    (remaining : Option Nat) (summary : List SummaryEntry) : List Byte :=
  bytes32 clock ++ bytes32 (tote.getD 0) ++ [BitVec.ofNat 8 r.code] ++
    (match place with
      | none => [0xFF, 0xFF]
      | some (p, sl) => [BitVec.ofNat 8 p.val, BitVec.ofNat 8 (slotCode sl)]) ++
    bytes16 (remaining.getD 0xFFFF) ++ bytes16 summary.length ++ summary.flatMap SummaryEntry.bytes

/-- The body of a notice as bytes, for the kind whose layout the manual gives (R170; log entry 24). -/
def Notice.bytes (n : Notice) : Option (List Byte) :=
  match n.body with
  | .release t r pl rem sm => some (releaseBytes n.clock t r pl rem sm)
  | _ => none

/-- The kind of a notice (section 11.6). -/
def NoticeBody.kindByte : NoticeBody → Byte
  | .call .. => 0x41
  | .release .. => 0x42
  | .lapse .. => 0x43
  | .line .. => 0x44
  | .wall .. => 0x45
  | .picker .. => 0x46
  | .position .. => 0x47
  | .benchMode .. => 0x48
  | .surveyed .. => 0x48
  | .stored .. => 0x49

/-- The frame a notice is sent in, tag 0, for the kind whose body the manual lays out (R163, R170). -/
def Notice.frame (n : Notice) : Option (List Byte) := n.bytes.map (Sys2Proof.Machine.frame 0 n.body.kindByte)

/-! ## The receiver (R163) -/

/-- Hunt for a start byte in the two bytes left when a start byte with a bad length has been discarded (R163). -/
def rehunt (a b : Byte) : List Byte :=
  if a = Config.startByte then [a, b] else if b = Config.startByte then [b] else []

/-- Whether a length is good (R163). -/
def goodLength (n : Nat) : Bool := decide (2 ≤ n) && decide (n ≤ 482)

/-- The request of a whole frame whose check passes and whose tag is not 0 (R163). The bytes are those after the start
byte: length, tag, kind, body and check. -/
def frameRequest (bs : List Byte) : Option Request :=
  let span := bs.take (bs.length - 2)
  match span, bs.drop (bs.length - 2) with
  | _ :: _ :: tag :: kind :: body, [c0, c1] =>
    if crc16 span = le16 c0 c1 ∧ tag ≠ 0 then some { tag := tag, kind := kind, body := body } else none
  | _, _ => none

/-- Take one byte of the inbound stream: the bytes of the frame being taken after it, and the request of a frame that
it completes (R163). -/
def receive (rx : List Byte) (b : Byte) : List Byte × Option Request :=
  match rx with
  | [] => (if b = Config.startByte then [b] else [], none)
  | [s0] => ([s0, b], none)
  | [s0, l0] => (if goodLength (le16 l0 b) then [s0, l0, b] else rehunt l0 b, none)
  | s0 :: l0 :: l1 :: rest =>
    let got := rest ++ [b]
    if got.length < le16 l0 l1 + 2 then (s0 :: l0 :: l1 :: got, none)
    else ([], frameRequest (l0 :: l1 :: got))

/-! ## Request bodies (R165) -/

/-- A byte of a body. -/
def byteAt (bs : List Byte) (i : Nat) : Byte := bs.getD i 0

/-- A two-byte field of a body. -/
def u16At (bs : List Byte) (i : Nat) : Nat := le16 (byteAt bs i) (byteAt bs (i + 1))

/-- A four-byte field of a body. -/
def u32At (bs : List Byte) (i : Nat) : Nat :=
  le32 (byteAt bs i) (byteAt bs (i + 1)) (byteAt bs (i + 2)) (byteAt bs (i + 3))

/-- A line entry of an OFFER body (section 11.7). -/
structure OfferLine where
  ref : Nat
  qty : Nat
  unit : Nat
  umin : Nat
  umax : Nat
  volume : Nat
  deriving DecidableEq, Repr

/-- Line `i` of an OFFER body: 12 bytes from offset 10 + 12i (section 11.7). -/
def offerLineAt (bs : List Byte) (i : Nat) : OfferLine :=
  { ref := u32At bs (10 + 12 * i), qty := (byteAt bs (14 + 12 * i)).toNat, unit := u16At bs (15 + 12 * i),
    umin := u16At bs (17 + 12 * i), umax := u16At bs (19 + 12 * i), volume := (byteAt bs (21 + 12 * i)).toNat }

/-- A window as WALL-ADD and WALL-WINDOW carry it: side, count, invert. -/
structure WindowField where
  side : Nat
  count : Nat
  invert : Nat
  deriving DecidableEq, Repr

/-- The fields of a WALL-ADD (section 4.4); windows and recovery charges as far as they are given. -/
structure WallAddFields where
  pos : Nat
  ref : Nat
  tote : Nat
  urgent : Byte
  windows : List WindowField
  charges : List (Nat × Nat)
  deriving DecidableEq, Repr

/-- Optional three-byte fields from an offset, as far as the body goes, at most `n`; none when the body ends inside one
(R165; each window and each charge is one field, log entry 5). -/
def triples (bs : List Byte) : Nat → Nat → Option (List (Nat × Nat × Nat))
  | 0, _ => some []
  | n + 1, i =>
    if bs.length ≤ i then some []
    else if bs.length < i + 3 then none
    else (triples bs n (i + 3)).map fun l =>
      ((byteAt bs i).toNat, (byteAt bs (i + 1)).toNat, (byteAt bs (i + 2)).toNat) :: l

/-- Read a WALL-ADD body: position, order ref, tote id, urgent; then up to three windows; then up to `C` recovery
charges of a two-byte weight and a one-byte volume (log entry 5). -/
def readWallAdd (C : Nat) (bs : List Byte) : Option WallAddFields :=
  if bs.length < 10 then none
  else
    match triples bs 3 10, triples bs C 19 with
    | some ws, some cs =>
      some {
        pos := (byteAt bs 0).toNat
        ref := u32At bs 1
        tote := u32At bs 5
        urgent := byteAt bs 9
        windows := ws.map fun x => { side := x.1, count := x.2.1, invert := x.2.2 }
        charges := cs.map fun x => (x.1 + 256 * x.2.1, x.2.2) }
    | _, _ => none

/-- Read a body whose one field is a four-byte tote id or order ref. -/
def readId (bs : List Byte) : Option Nat := if bs.length < 4 then none else some (u32At bs 0)

/-- Read a body whose one field is a position number. -/
def readPos (bs : List Byte) : Option Nat := if bs.length < 1 then none else some (byteAt bs 0).toNat

/-- Read a WALL-URGE body: order ref, flag. -/
def readUrge (bs : List Byte) : Option (Nat × Byte) :=
  if bs.length < 5 then none else some (u32At bs 0, byteAt bs 4)

/-- Read a WALL-WINDOW body: position, class, window. -/
def readWindow (bs : List Byte) : Option (Nat × Nat × WindowField) :=
  if bs.length < 5 then none
  else some ((byteAt bs 0).toNat, (byteAt bs 1).toNat,
    { side := (byteAt bs 2).toNat, count := (byteAt bs 3).toNat, invert := (byteAt bs 4).toNat })

/-- Read a WALL-SHUT body: position, compartment. -/
def readShut (bs : List Byte) : Option (Nat × Nat) :=
  if bs.length < 2 then none else some ((byteAt bs 0).toNat, (byteAt bs 1).toNat)

/-- Read a body without fields. -/
def readNone (_ : List Byte) : Option Unit := some ()

/-- The temperature class a code names (section 1.5). -/
def tempOfCode (n : Nat) : Option Temp :=
  if n = 0 then some .ambient else if n = 1 then some .chilled else if n = 2 then some .frozen else none

/-- A flag from a byte: 0 clear, 1 set, any other byte a free value (log entry 7). -/
def flagOf (b : Byte) : Bool := if b = 0 then false else if b = 1 then true else Config.flagOfByte b

/-! ## Profile fields (R145, R147) -/

/-- The fields of R145, in the order of its table. -/
inductive ProfileField where
  | sourceCount | coldCapable | laneDepth | orderCount | compartments | weightCap | volumeCap | ta | tp
  | minWeighable | callTimeout | leaveTimeout | settleGuard | lapseLimit | orphanDwell | travelCharge | minDwell
  | warningMargin | putGrace | idleTimeout | rescueMargin | ladder | rotate | coldAlternation | mask | lock
  deriving DecidableEq, Repr

/-- Every field, in the order of R145; the identifier of a field is its place in this list (log entry 5). -/
def profileFields : List ProfileField :=
  [.sourceCount, .coldCapable, .laneDepth, .orderCount, .compartments, .weightCap, .volumeCap, .ta, .tp,
    .minWeighable, .callTimeout, .leaveTimeout, .settleGuard, .lapseLimit, .orphanDwell, .travelCharge, .minDwell,
    .warningMargin, .putGrace, .idleTimeout, .rescueMargin, .ladder, .rotate, .coldAlternation, .mask, .lock]

/-- The range of a numeric field (R145). -/
def ProfileField.range : ProfileField → Option (Nat × Nat)
  | .sourceCount => some (1, 4)
  | .orderCount => some (1, 12)
  | .compartments => some (1, 6)
  | .weightCap => some (500, 20000)
  | .volumeCap => some (1, 250)
  | .ta => some (2, 500)
  | .tp => some (0, 100)
  | .minWeighable => some (1, 200)
  | .callTimeout => some (10, 900)
  | .leaveTimeout => some (5, 120)
  | .settleGuard => some (5, 100)
  | .lapseLimit => some (1, 5)
  | .orphanDwell => some (5, 600)
  | .travelCharge => some (0, 300)
  | .minDwell => some (10, 600)
  | .warningMargin => some (0, 600)
  | .putGrace => some (0, 60)
  | .idleTimeout => some (10, 600)
  | .rescueMargin => some (0, 900)
  | .coldCapable => none
  | .laneDepth => none
  | .ladder => none
  | .rotate => none
  | .coldAlternation => none
  | .mask => none
  | .lock => none

/-- Whether a field is drained (R145). -/
def ProfileField.drained : ProfileField → Bool
  | .ta => false
  | .tp => false
  | .warningMargin => false
  | .idleTimeout => false
  | .rescueMargin => false
  | .ladder => false
  | .rotate => false
  | .coldAlternation => false
  | .mask => false
  | .lock => false
  | _ => true

/-- Bytes of a field's value in a PROFILE-SET body: two for a number, one an entry otherwise (log entry 5). -/
def ProfileField.width : ProfileField → Nat
  | .coldCapable => 4
  | .laneDepth => 4
  | .ladder => 4
  | .mask => 6
  | .rotate => 1
  | .coldAlternation => 1
  | .lock => 1
  | _ => 2

/-- The value a field of the profile holds. -/
def ProfileField.read (f : ProfileField) (p : Profile) : ProfileValue :=
  match f with
  | .sourceCount => .num p.sourceCount
  | .coldCapable => .flags (srcIndices.map fun i => p.coldCapable[i])
  | .laneDepth => .nums (srcIndices.map fun i => p.laneDepth[i])
  | .orderCount => .num p.orderCount
  | .compartments => .num p.compartments
  | .weightCap => .num p.weightCap
  | .volumeCap => .num p.volumeCap
  | .ta => .num p.ta
  | .tp => .num p.tp
  | .minWeighable => .num p.minWeighable
  | .callTimeout => .num p.callTimeout
  | .leaveTimeout => .num p.leaveTimeout
  | .settleGuard => .num p.settleGuard
  | .lapseLimit => .num p.lapseLimit
  | .orphanDwell => .num p.orphanDwell
  | .travelCharge => .num p.travelCharge
  | .minDwell => .num p.minDwell
  | .warningMargin => .num p.warningMargin
  | .putGrace => .num p.putGrace
  | .idleTimeout => .num p.idleTimeout
  | .rescueMargin => .num p.rescueMargin
  | .ladder => .classes p.ladder
  | .rotate => .flag p.rotate
  | .coldAlternation => .flag p.coldAlternation
  | .mask => .flags [p.mask.line, p.mask.wall, p.mask.picker, p.mask.position, p.mask.bench, p.mask.stored]
  | .lock => .lock p.lock

/-- Store a number in a numeric field (R148). -/
def ProfileField.setNum (f : ProfileField) (n : Nat) (p : Profile) : Profile :=
  match f with
  | .sourceCount => { p with sourceCount := n }
  | .orderCount => { p with orderCount := n }
  | .compartments => { p with compartments := n }
  | .weightCap => { p with weightCap := n }
  | .volumeCap => { p with volumeCap := n }
  | .ta => { p with ta := n }
  | .tp => { p with tp := n }
  | .minWeighable => { p with minWeighable := n }
  | .callTimeout => { p with callTimeout := n }
  | .leaveTimeout => { p with leaveTimeout := n }
  | .settleGuard => { p with settleGuard := n }
  | .lapseLimit => { p with lapseLimit := n }
  | .orphanDwell => { p with orphanDwell := n }
  | .travelCharge => { p with travelCharge := n }
  | .minDwell => { p with minDwell := n }
  | .warningMargin => { p with warningMargin := n }
  | .putGrace => { p with putGrace := n }
  | .idleTimeout => { p with idleTimeout := n }
  | .rescueMargin => { p with rescueMargin := n }
  | .coldCapable => p
  | .laneDepth => p
  | .ladder => p
  | .rotate => p
  | .coldAlternation => p
  | .mask => p
  | .lock => p

/-- A yes/no or on/off entry: 0 or 1 (R147). -/
def entryOf (b : Byte) : Option Bool := if b = 0 then some false else if b = 1 then some true else none

/-- A request class entry of a ladder value (log entry 5). -/
def classOf (b : Byte) : Option ReqClass :=
  if b = 0 then some .ret else if b = 1 then some .expedite
  else if b = 2 then some .cold else if b = 3 then some .ambient else none

/-- A lock value; SHIFT and any other value are refused (R147). -/
def lockOf (b : Byte) : Option Lock :=
  if b = 0 then some .opn else if b = 1 then some .keyed else if b = 3 then some .fixed else none

/-- Whether a ladder names each of the four classes exactly once (R147). -/
def isLadder (l : List ReqClass) : Bool :=
  decide (l.length = 4) && [ReqClass.ret, .expedite, .cold, .ambient].all fun c => l.contains c

/-- A number clamped into a range, and whether it was clamped (R147). -/
def clampTo (lo hi n : Nat) : Nat × Bool := if n < lo then (lo, true) else if hi < n then (hi, true) else (n, false)

/-- Test the value of a PROFILE-SET and store it in a profile: the new profile and whether it was clamped, or none for
RANGE (R147). -/
def ProfileField.store (f : ProfileField) (v : List Byte) (p : Profile) : Option (Profile × Bool) :=
  match f.range with
  | some (lo, hi) =>
    let x := clampTo lo hi (u16At v 0)
    some (f.setNum x.1 p, x.2)
  | none =>
    match f, v.map entryOf with
    | .coldCapable, some a :: some b :: some c :: some d :: _ => some ({ p with coldCapable := #v[a, b, c, d] }, false)
    | .laneDepth, some a :: some b :: some c :: some d :: _ =>
      some ({ p with laneDepth := #v[a.toNat, b.toNat, c.toNat, d.toNat] }, false)
    | .rotate, some a :: _ => some ({ p with rotate := a }, false)
    | .coldAlternation, some a :: _ => some ({ p with coldAlternation := a }, false)
    | .mask, some a :: some b :: some c :: some d :: some e :: some g :: _ =>
      some ({ p with mask := { line := a, wall := b, picker := c, position := d, bench := e, stored := g } }, false)
    | .ladder, _ =>
      let l := (v.take 4).filterMap classOf
      if isLadder l then some ({ p with ladder := l }, false) else none
    | .lock, _ => (lockOf (byteAt v 0)).map fun l => ({ p with lock := l }, false)
    | _, _ => none

/-- Read a PROFILE-SET body: the identifier, and the value. A known field needs the whole of its value, an unknown one
at least a byte (R165). -/
def readProfileSet (bs : List Byte) : Option (Option ProfileField × List Byte) :=
  match bs with
  | [] => none
  | [_] => none
  | i :: v =>
    match profileFields[i.toNat]? with
    | none => some (none, v)
    | some f => if v.length < f.width then none else some (some f, v.take f.width)

/-! ## The stored image (R144, R150, R151) -/

/-- The byte of a yes/no or on/off entry (R147). -/
def flagByte (b : Bool) : Byte := if b then 1 else 0

/-- The byte of a request class in a ladder value (log entry 5). -/
def classByte : ReqClass → Byte
  | .ret => 0
  | .expedite => 1
  | .cold => 2
  | .ambient => 3

/-- The byte of a lock level, in the order of R152 (log entry 5). -/
def lockByte : Lock → Byte
  | .opn => 0
  | .keyed => 1
  | .shift => 2
  | .fixed => 3

/-- A field's value as bytes, in the layout of a PROFILE-SET value (log entry 5). -/
def ProfileValue.bytes : ProfileValue → List Byte
  | .num n => bytes16 n
  | .flag b => [flagByte b]
  | .flags l => l.map flagByte
  | .nums l => l.map (BitVec.ofNat 8)
  | .classes l => l.map classByte
  | .lock l => [lockByte l]

/-- The contents of the image as bytes: every field in the order of R145 (DESIGN CHOICE, log entry 39). -/
def Profile.bytes (p : Profile) : List Byte := profileFields.flatMap fun f => (f.read p).bytes

/-- The image check of R144, over the whole image contents. -/
def Profile.check (p : Profile) : Nat := crc16 p.bytes

/-- A check word that does not agree with the contents of an image (R151; a free value, log entry 39). -/
def badCheck (n : Nat) (p : Profile) : Nat := (p.check + 1 + Config.spoiledCheck n % 65535) % 65536

/-- One field of an image whose store was spoiled: what the image memory gives, within the field's range (R145), and the
value written where it gives none (log entry 39). -/
def spoilField (n : Nat) (p : Profile) (f : ProfileField) : Profile :=
  match f.store (Config.spoiledBytes n (profileFields.findIdx fun g => g == f)) p with
  | some (p', _) => p'
  | none => p

/-- The contents of the image after a store that failed (R151; a free value, log entry 39). -/
def spoiledImage (n : Nat) (p : Profile) : Profile := profileFields.foldl (spoilField n) p

/-- The check stored with the image after a store that failed: a free value, but for the limit of R151 that contents
which agree with the volatile profile do not have an agreeing check (log entry 39). -/
def failedCheck (n : Nat) (p : Profile) : Nat :=
  if spoiledImage n p = p then badCheck n p else Config.spoiledCheck n % 65536

/-- Read a PROFILE-GET body: an optional identifier. -/
def readProfileGet (bs : List Byte) : Option (Option Nat) :=
  match bs with
  | [] => some none
  | i :: _ => some (some i.toNat)

end Sys2Proof.Machine
end

