-- ==== Sys2Proof/Machine/Arbiter.lean ====
section
/-!
DEFINITION. The call arbiter (chapter 03): request classes, callable slots, eligibility, the exposure drop, the choice
of an offer and the grant.
-/
namespace Sys2Proof.Machine

/-- Whether some order tote record in state EXPECTED, ARRIVED or ACTIVE holds an order ref and satisfies a test. -/
def wallHolds (ref : Nat) (test : Rec → Bool) (s : State) : Bool :=
  ordIndices.any fun q =>
    match s.wall.pos[q].record with
    | none => false
    | some r =>
      (s.wall.pos[q].state == .expected || s.wall.pos[q].state == .arrived || s.wall.pos[q].state == .active)
        && r.ref == ref && test r

/-- The request class of a WAITING offer: the first row of R44 it satisfies. -/
def reqClass (o : Offer) (s : State) : ReqClass :=
  if o.ret then .ret
  else if o.lines.any fun l => l.state == .opn && wallHolds l.ref (fun r => r.urgent) s then .expedite
  else if o.temp.isCold then .cold
  else .ambient

/-- Whether a slot is callable (R46). -/
def callable (p : Fin 4) (sl : Slot) (s : State) : Bool :=
  decide (s.bench.mode = .service) && decide (s.picker.cond ≠ .held)
    && decide (noticeCount s < Config.noticeThreshold) && decide (s.src[p].state = .opn) &&
  match sl with
  | .face => decide (s.src[p].face.state = .empty)
  | .lane => decide (s.src[p].depth = 1) && decide (s.src[p].face.state = .present)
      && decide (s.src[p].lane.state = .empty)

/-- Whether an offer is eligible for a callable slot of a position (R47). -/
def eligible (p : Fin 4) (o : Offer) (s : State) : Bool :=
  decide (o.state = .waiting) && (o.lines.any fun l => l.state == .opn && wallHolds l.ref (fun _ => true) s) &&
    (!o.temp.isCold ||
      (s.prof.profile.coldCapable[p] && decide (s.picker.cond ≠ .idle) && o.passesExposure s.prof.profile))

/-- The slots in the order an arbitration takes them: faces, then lanes, in ascending index (R50). -/
def slotOrder : List (Fin 4 × Slot) :=
  (srcIndices.map fun p => (p, Slot.face)) ++ srcIndices.map fun p => (p, Slot.lane)

/-- The temperature chosen among the eligible COLD offers (step 2 of R51). -/
def coldChoice (frozen chilled alternation : Bool) (last : Option Temp) : Temp :=
  if alternation && frozen && chilled then (if last = some .frozen then .chilled else .frozen)
  else if frozen then .frozen else .chilled

/-- The offer chosen for a callable slot, with its request class (R51). -/
def chooseOffer (p : Fin 4) (s : State) : Option (Offer × ReqClass) :=
  let able := s.offers.filter fun o => eligible p o s
  s.arb.ladder.findSome? fun c =>
    let ofClass := able.filter fun o => reqClass o s == c
    match c with
    | .cold =>
      let t := coldChoice (ofClass.any fun o => o.temp == .frozen) (ofClass.any fun o => o.temp == .chilled)
        s.prof.profile.coldAlternation s.arb.lastCold
      (ofClass.find? fun o => o.temp == t).map fun o => (o, c)
    | _ => ofClass.head?.map fun o => (o, c)

/-- Move a class to the bottom of the ladder (R45). -/
def rotated (c : ReqClass) (l : List ReqClass) : List ReqClass := (l.filter fun x => x != c) ++ [c]

/-- A slot that has become CALLED for an offer, with its call timer started (R27). -/
def SrcPos.called (sl : Slot) (t : Nat) (time : Nat) (x : SrcPos) : SrcPos :=
  match sl with
  | .face => { x with face := { state := .called, offer := some t, callT := some time } }
  | .lane => { x with lane := { state := .called, offer := some t, callT := some time } }

/-- An offer after a grant: CALLED at the slot, the travel charge made (R27, R120). -/
def Offer.granted (o : Offer) (p : Fin 4) (sl : Slot) (pr : Profile) : Offer :=
  { o with
    state := .called
    place := some (p, sl)
    exposure := o.exposure.map fun e => e.charged pr.travelCharge pr.warningMargin }

/-- Step 4 of R52: the ladder rotates if the rotate flag is on, and a cold grant sets the last cold temperature
(R45, R54). -/
def Arbiter.afterGrant (a : Arbiter) (rotate : Bool) (c : ReqClass) (t : Temp) : Arbiter :=
  { ladder := if rotate then rotated c a.ladder else a.ladder
    lastCold := if t.isCold then some t else a.lastCold }

/-- Set the arbiter's state. -/
def setArb (a : Arbiter) (s : State) : State := { s with arb := a }

/-- Grant an offer to a slot: the four steps of R52. -/
def grant (p : Fin 4) (sl : Slot) (o : Offer) (c : ReqClass) (s : State) : State :=
  let pr := s.prof.profile
  let o' := o.granted p sl pr
  let s1 := modSrc p (SrcPos.called sl o.tote (pr.callTimeout * 10)) s
  let s2 := modOffer o.tote (fun x => x.granted p sl pr) s1
  let s3 := notify (.call o.tote p sl o.temp c o.lapses o'.remainingSeconds (pr.callTimeout * 10)) s2
  setArb (s3.arb.afterGrant pr.rotate c o.temp) s3

/-- Consider one slot: judge callability, choose an offer, grant it (R50). -/
def considerSlot (s : State) (x : Fin 4 × Slot) : State :=
  if callable x.1 x.2 s then
    match chooseOffer x.1 s with
    | none => s
    | some (o, c) => grant x.1 x.2 o c s
  else s

/-- Drop one cold WAITING offer that fails the exposure test, with its RELEASE notice (R21). -/
def dropExposed (s : State) (o : Offer) : State := notifyRelease o .exposed none (dropOffer o.tote s)

/-- The offers the examination of R48 drops, in list order. -/
def failingOffers (s : State) : List Offer :=
  s.offers.filter fun o => o.temp.isCold && decide (o.state = .waiting) && !(o.passesExposure s.prof.profile)

/-- Run an arbitration (R48 to R50): with a callable slot, the exposure drops and then the grants, slot by slot. -/
def arbitrate (s : State) : State :=
  if slotOrder.any fun x => callable x.1 x.2 s then
    slotOrder.foldl considerSlot ((failingOffers s).foldl dropExposed s)
  else s

/-- The start-up value of the ladder is the profile's (R43); a setting of the ladder sets the running ladder. -/
def setLadder (l : List ReqClass) (s : State) : State := { s with arb := { s.arb with ladder := l } }

end Sys2Proof.Machine
end

