-- ==== Sys2Proof/Machine/Cycles.lean ====
section
/-!
DEFINITION. The put sequencer (chapter 05): beginning a cycle, its lights, its end and its cancellation, the charges it
asks for, and picker activity.
-/
namespace Sys2Proof.Machine

/-! ## The cycle record and the put grace timer -/

/-- Write the put cycle record (R81). -/
def putCycle (c : Cycle) (s : State) : State := { s with put := { s.put with cycle := some c } }

/-- Set the put grace timer (R124, R125). -/
def setGraceT (t : Option Nat) (s : State) : State := { s with put := { s.put with graceT := t } }

/-- Set the last-served pointer to the offer of a new cycle (R80). -/
def serve (t : Nat) (s : State) : State := { s with put := { s.put with lastServed := some t } }

/-! ## Lights (R85, R86) -/

/-- Send a LIGHT order for the source display of a cycle. -/
def lightSource (c : Cycle) (w : Show) (s : State) : State := handOrder (.src c.src) (.light .source w) s

/-- Send a LIGHT order for the target compartment display of a cycle. -/
def lightTarget (c : Cycle) (w : Show) (s : State) : State := handOrder (.ord c.tgt) (.light (.comp c.comp) w) s

/-- Send the LIGHT orders that show the present state of a cycle, source first (R85, R86). -/
def showCycle (c : Cycle) (s : State) : State := lightTarget c c.targetShow (lightSource c c.sourceShow s)

/-- Send the dark LIGHT orders of a cycle (R85); none goes to a position that is faulting (R98 step 3). -/
def darkCycle (c : Cycle) (faulting : Option Pos) (s : State) : State :=
  let s1 := if faulting = some (.src c.src) then s else lightSource c .dark s
  if faulting = some (.ord c.tgt) then s1 else lightTarget c .dark s1

/-- Replace the cycle record by its changed form and send the LIGHT orders its displays call for: one for each display
whose content changes, none while the picker is HELD (R85, R86). The "display concerned" of R85 is read as a display whose
content changes: between REMOVE and CHECK the source display stays dark, and none is sent to it (DEDUCED, log entry 43). -/
def updateCycle (old new : Cycle) (s : State) : State :=
  let s1 := putCycle new s
  if s.picker.cond = .held then s1
  else
    let s2 := if old.sourceShow = new.sourceShow then s1 else lightSource new new.sourceShow s1
    if old.targetShow = new.targetShow then s2 else lightTarget new new.targetShow s2

/-! ## Beginning a cycle (R82 to R84) -/

/-- A candidate tote with the line and the allocation answer it would be served by (R83). -/
structure Candidate where
  p : Fin 4
  offer : Offer
  line : Nat
  answer : Answer
  deriving DecidableEq, Repr

/-- Judge whether the face of a position is a candidate (R83). -/
def candidateAt (p : Fin 4) (s : State) : Option Candidate × State :=
  if s.src[p].face.state = .present then
    match faceOffer p s with
    | none => (none, s)
    | some o =>
      if o.state ≠ .present then (none, s) else
      match firstServeable o.temp 0 o.lines s with
      | (none, s1) => (none, s1)
      | (some (i, a), s1) =>
        if o.exposure.all fun e => decide (0 < e.remaining) then
          (some { p := p, offer := o, line := i, answer := a }, s1)
        else (none, s1)
  else (none, s)

/-- The candidates in ascending source position index (R83). -/
def candidates : List (Fin 4) → State → List Candidate × State
  | [], s => ([], s)
  | p :: ps, s =>
    let (c, s1) := candidateAt p s
    let (cs, s2) := candidates ps s1
    (c.toList ++ cs, s2)

/-- The first of the candidates that no other precedes. -/
def firstBy (before : Candidate → Candidate → Bool) : List Candidate → Option Candidate
  | [] => none
  | c :: cs =>
    match firstBy before cs with
    | none => some c
    | some d => if before d c then some d else some c

/-- Earlier presentation time (R83); candidates stand in ascending position index. -/
def earlier (a b : Candidate) : Bool := decide (a.offer.presented.getD 0 < b.offer.presented.getD 0)

/-- Remaining exposure of a candidate, in tenths. -/
def Candidate.remaining (c : Candidate) : Nat := (c.offer.exposure.map Exposure.remaining).getD 0

/-- Less remaining exposure, then earlier presentation time (R83, preference 1). -/
def moreUrgent (a b : Candidate) : Bool :=
  decide (a.remaining < b.remaining) || (decide (a.remaining = b.remaining) && earlier a b)

/-- Whether a candidate is a cold offer whose warning flag is set. -/
def Candidate.warned (c : Candidate) : Bool := c.offer.exposure.any fun e => e.warning

/-- The candidate taken: warning totes first, then the tote last served, then the earliest presented (R83). -/
def pickCandidate (cs : List Candidate) (served : Option Nat) : Option Candidate :=
  match firstBy moreUrgent (cs.filter Candidate.warned) with
  | some c => some c
  | none =>
    match cs.find? fun c => served == some c.offer.tote with
    | some c => some c
    | none => firstBy earlier cs

/-- Begin a cycle on a candidate (R84). -/
def startCycle (k : Candidate) (s : State) : State :=
  let mode := match k.offer.lines[k.line]? with
    | some l => l.mode
    | none => .weigh
  let c : Cycle :=
    { src := k.p, offer := k.offer.tote, line := k.line, tgt := k.answer.q, tgtTote := k.answer.tote,
      comp := k.answer.comp, n := k.answer.n, mode := mode }
  startIdle (showCycle c (stopOrphan k.p (serve k.offer.tote (putCycle c s))))

/-- Whether the bench lets a cycle begin: none exists, the picker is ACTIVE, the mode is SERVICE or DRAINING (R82). -/
def mayBegin (s : State) : Bool :=
  s.put.cycle.isNone && decide (s.picker.cond = .active) &&
    (decide (s.bench.mode = .service) || decide (s.bench.mode = .draining))

/-- Make an attempt to begin a cycle (R82). -/
def attempt (s : State) : State :=
  if mayBegin s then
    match candidates srcIndices s with
    | (cs, s1) =>
      match pickCandidate cs s1.put.lastServed with
      | none => s1
      | some k => startCycle k s1
  else s

/-- What follows a change of an order tote record that can alter allocation: the orphan judgement (R38) and an attempt
(R82). -/
def wallChanged (s : State) : State := attempt (judgeOrphans s)

/-- What follows a record entering EXPECTED, ARRIVED or ACTIVE: an arbitration first (R49), then as `wallChanged`
(the order is DEDUCED from R65, log entry 26). -/
def recordEntered (s : State) : State := wallChanged (arbitrate s)

/-! ## Charging (R78) -/

/-- Charge `k` units of a line to a compartment and clear the full marks (R78, R79). -/
def Rec.chargeUnits (r : Rec) (j k w v : Nat) : Rec :=
  { r with
    comps := r.comps.modify j fun c => { c with weight := c.weight + k * w, volume := c.volume + k * v }
    full := ⟨false, false, false⟩ }

/-- The line the cycle serves. -/
def cycleLine (c : Cycle) (s : State) : Option OLine := (findOffer c.offer s).bind fun o => o.lines[c.line]?

/-- The put sequencer asks for `k` units to be charged to the target compartment, and, when asked, for the baseline to
be set; the charge is reported to the source position controllers (R78, R38). -/
def charge (c : Cycle) (k : Nat) (base : Option Nat) (s : State) : State :=
  match cycleLine c s with
  | none => s
  | some l =>
    judgeOrphans (modRec c.tgt (fun r =>
      let r1 := r.chargeUnits c.comp k l.charge l.volume
      match base with
      | none => r1
      | some b => { r1 with baseline := some b }) s)

/-! ## End and cancellation (R93, R95, R97, R98) -/

/-- Settle the target of a WEIGH cycle ended short, or of a cancelled cycle, against its baseline (R93, R98). -/
def settleTarget (q : Fin 12) (s : State) : State :=
  match s.wall.pos[q].record, s.wall.pos[q].latest with
  | some r, some g =>
    match disturbanceOf g (r.baseline.getD 0) s.prof.profile.ta with
    | none => s
    | some d => disturb q d g s
  | _, _ => s

/-- Settle the target of a PRESS cycle: its baseline becomes the latest stable weight, or on OVERLOAD the record
becomes DISTURBED (R92). -/
def settlePress (q : Fin 12) (s : State) : State :=
  match s.wall.pos[q].latest with
  | none => s
  | some (.grams g) => modRec q (fun r => { r with baseline := some g }) s
  | some .overload => disturb q .overload .overload s

/-- Write the accepted units of a cycle into its line (step 1 of R95 and R98). -/
def writeLine (c : Cycle) (f : OLine → OLine) (s : State) : State :=
  modOffer c.offer (fun o => { o with lines := o.lines.modify c.line fun l => f (l.accept c.tgtTote c.comp c.acc) }) s

/-- Queue the LINE notice when the line has closed (R95 step 2, R96). -/
def notifyLine (c : Cycle) (s : State) : State :=
  match cycleLine c s with
  | none => s
  | some l =>
    if l.state = .opn then s
    else notify (.line c.offer c.src c.line l.ref l.qty l.done l.state l.puts) s

/-- Delete the cycle record (R95 step 5). -/
def deleteCycle (s : State) : State := { s with put := { s.put with cycle := none } }

/-- Step 1 of R97: a grace timer that runs is stopped and, unless the source is faulting, the release with reason
EXPOSED is asked for (R125). -/
def endGrace (c : Cycle) (sourceFault : Bool) (s : State) : State :=
  if c.grace then
    let s1 := setGraceT none s
    if sourceFault then s1 else askRelease c.offer .exposed s1
  else s

/-- Steps 1 to 4 of R97. The attempt of step 5 is made by the caller, at a fault after the fault handling (log entry
17). -/
def handOver (c : Cycle) (sourceFault : Bool) (s : State) : State :=
  let s1 := endGrace c sourceFault s
  let s2 := if sourceFault then s1 else judgeFace c.src s1
  stopIdle s2

/-- End a cycle (R95, R97); `short` when the SHORT key ended it. -/
def endCycle (c : Cycle) (short : Bool) (s : State) : State :=
  let s1 := notifyLine c (writeLine c (fun l => l.closed short) s)
  let s2 := if s1.picker.cond = .held then s1 else darkCycle c none s1
  let s3 := match c.mode with
    | .press => settlePress c.tgt s2
    | .weigh => if short then settleTarget c.tgt s2 else s2
  attempt (handOver c false (deleteCycle s3))

/-- Cancel the lit cycle: steps 1 to 5 of R98 but for the attempt that ends them. -/
def cancelCycle (c : Cycle) (faulting : Option Pos) (s : State) : State :=
  let s1 := writeLine c id s
  let s2 := if faulting = some (.ord c.tgt) then s1 else settleTarget c.tgt s1
  let s3 := if s2.picker.cond = .held then s2 else darkCycle c faulting s2
  let s4 := deleteCycle s3
  let s5 := if faulting = some (.src c.src) then clearServed c.offer s4 else s4
  handOver c (decide (faulting = some (.src c.src))) s5

/-! ## Picker activity (R134) -/

/-- Act on picker activity by the picker condition (R134). -/
def activity (pos : Pos) (report : ActivityReport) (s : State) : State :=
  match s.picker.cond with
  | .active => startIdle s
  | .held => s
  | .idle => attempt (arbitrate (startIdle (setPicker .active (.activity pos report) s)))

end Sys2Proof.Machine
end

