-- ==== Sys2Proof/Machine/Faults.lean ====
section
/-!
DEFINITION. Faults of source and order positions (R40, R75), the survey exchange (R25, R61, R142, R160 to R162), and the
module's FAULT reports, acknowledgements and their timers (R158, R159).
-/
namespace Sys2Proof.Machine

/-! ## Faults -/

/-- Remove the offer a slot of a faulting position names, with its RELEASE notice, reason FAULT (R20). -/
def faultRemove (p : Fin 4) (sl : Slot) (named : Option Nat) (s : State) : State :=
  match named with
  | none => s
  | some t =>
    match findOffer t s with
    | none => s
    | some o => notifyRelease o .fault (some (p, sl)) (dropOffer t s)

/-- Make a source position FAULTED: slot states dropped, timers stopped, line emptied (R40, R157), with its POSITION
notice. -/
def dropToFault (p : Fin 4) (c : Cause) (s : State) : State :=
  notifySrc p (clearLine (.src p) (modSrc p (fun x => x.blank .faulted (some c)) s))

/-- The first step of a fault: the lit cycle is cancelled when the faulting position is its source or target (R40,
R75). -/
def cancelFor (pos : Pos) (concerned : Bool) (s : State) : State :=
  match s.put.cycle with
  | none => s
  | some k => if concerned then cancelCycle k (some pos) s else s

/-- Remove the offers that the slots of a faulting position name, the face's first (R20, R40). -/
def removeOffersAt (p : Fin 4) (s : State) : State :=
  let s1 := faultRemove p .face s.src[p].face.offer s
  faultRemove p .lane s1.src[p].lane.offer s1

/-- A fault event at a source position (R40). The POSITION notice FAULTED stands before the BENCH notice of a drain that the
fault completes (DESIGN CHOICE, log entry 32). -/
def faultSrc (p : Fin 4) (c : Cause) (s : State) : State :=
  match s.src[p].state with
  | .faulted => s
  | .closed => dropToFault p c s
  | _ =>
    let s1 := dropToFault p c (removeOffersAt p (cancelFor (.src p) (isLitSource p s) s))
    let s2 := judgeDrain (modSrc p (fun x => x.synced s.prof.profile.laneDepth[p]) s1)
    if isLitSource p s then attempt s2 else s2

/-- The record of an order position at a fault (R75): kept DISTURBED, cause FAULT, or deleted with a LEAVING or
SETTLING position. The remove light goes off without a dark LIGHT order, since no order is sent to a FAULTED position
(R157; DESIGN CHOICE, log entry 36). -/
def OrdPos.faulted (x : OrdPos) (c : Cause) : OrdPos :=
  { state := .faulted
    record :=
      if x.state = .expected ∨ x.state = .arrived ∨ x.state = .active then
        x.record.map fun r => { r with cond := .disturbed .fault, misput := false }
      else none
    former :=
      if x.state = .expected ∨ x.state = .arrived ∨ x.state = .active then some x.state else none
    latest := x.latest
    cause := some c
    surveyT := x.surveyT }

/-- A fault event at an order position (R75). -/
def faultOrd (q : Fin 12) (c : Cause) (s : State) : State :=
  if s.wall.pos[q].state = .faulted then s
  else
    let s1 := cancelFor (.ord q) (isTarget q s) s
    let s2 := notifyOrd q (clearLine (.ord q) (modOrd q (fun x => x.faulted c) s1))
    if s.wall.pos[q].state = .closed then s2 else wallChanged s2

/-- A fault event at a position. -/
def faultAt (pos : Pos) (c : Cause) (s : State) : State :=
  match pos with
  | .src p => faultSrc p c s
  | .ord q => faultOrd q c s

/-! ## The survey exchange -/

/-- How a survey ended (R160). -/
inductive SurveyEnd where
  | failed (c : Cause)
  | source (face lane : Option (Option Nat))
  | order (tote : Option (Option Nat)) (g : Gross)
  deriving DecidableEq, Repr

/-- Judge an answer by the kind of position and, at a source position, its lane depth (R25, R61). -/
def judgeAnswer (pos : Pos) (a : SurveyAnswer) (s : State) : SurveyEnd :=
  match pos, a with
  | .src p, .source f l => if s.src[p].depth = 0 ∧ l.isSome then .failed .kind else .source f l
  | .ord _, .order t g => .order t g
  | .src _, .order _ _ => .failed .kind
  | .ord _, .source _ _ => .failed .kind

/-- Begin the survey of one position: its SURVEY order and its timer (R160). -/
def beginSurvey (pos : Pos) (s : State) : State :=
  let s1 := match pos with
    | .src p => modSrc p (SrcPos.setSurvey (some Config.surveyTenths)) s
    | .ord q => modOrd q (OrdPos.setSurvey (some Config.surveyTenths)) s
  handOrder pos .survey s1

/-- Stop the survey timer of a position and take its SURVEY order off the line (R160). -/
def stopSurvey (pos : Pos) (s : State) : State :=
  let s1 := match pos with
    | .src p => modSrc p (SrcPos.setSurvey none) s
    | .ord q => modOrd q (OrdPos.setSurvey none) s
  modLine (lineOf pos) FieldLine.dropSurvey s1

/-- The final charges of the record at an order position, in a WALL notice RELEASED (R73, R76, R162). -/
def notifyReleased (q : Fin 12) (fault : Bool) (s : State) : State :=
  match s.wall.pos[q].record with
  | none => notifyWall q (.released [] fault s.wall.pos[q].idRead) s
  | some r => notifyWall q (.released r.comps fault none) s

/-- A source position after a failed survey: FAULTED with the cause, replacing any cause it had (R25, R160). -/
def surveyFailedSrc (p : Fin 4) (c : Cause) (s : State) : State :=
  let s1 := clearLine (.src p) (modSrc p (fun x => x.blank .faulted (some c)) s)
  if s.src[p].state = .faulted then s1 else notifySrc p s1

/-- An order position that is FAULTED after a failed survey: its record and the rest of its items stay (R61, R162). -/
def OrdPos.surveyFailed (c : Cause) (x : OrdPos) : OrdPos := { x with state := .faulted, cause := some c }

/-- An order position after a failed survey: FAULTED with the cause; a record held stays held (R61, R162). -/
def surveyFailedOrd (q : Fin 12) (c : Cause) (s : State) : State :=
  let s1 := clearLine (.ord q) (modOrd q (OrdPos.surveyFailed c) s)
  if s.wall.pos[q].state = .faulted then s1 else notifyOrd q s1

/-- Release the tote a survey found at a slot, if it found one (R25). -/
def releaseFound (p : Fin 4) (sl : Slot) (found : Option (Option Nat)) (s : State) : State :=
  match found with
  | none => s
  | some id => releaseUnknown p sl id s

/-- A face SETTLING with its timer stopped, while a tote leaves the lane (R25). -/
def SrcPos.waitLane (x : SrcPos) : SrcPos := { x with face := { state := .settling } }

/-- A source position after a good answer: OPEN, with the totes found released with reason UNKNOWN, the face first; a
tote at the lane only leaves the face SETTLING with its timer stopped (R25). The POSITION notice comes first
(DESIGN CHOICE, log entry 18). -/
def surveyedSrc (p : Fin 4) (f l : Option (Option Nat)) (s : State) : State :=
  let s1 := releaseFound p .face f (notifySrc p (modSrc p (fun x => x.blank .opn none) s))
  if f.isNone && l.isSome then
    releaseFound p .lane l (modSrc p SrcPos.waitLane s1)
  else releaseFound p .lane l s1

/-- An order position in the state a survey gives it, with the weight of the answer (R61). -/
def OrdPos.reopened (st : OrdState) (g : Gross) (x : OrdPos) : OrdPos :=
  { x with state := st, latest := some g, former := none, cause := none }

/-- An order position that leaves CLOSED or FAULTED by a survey, with its POSITION notice (R61). -/
def reopenOrd (q : Fin 12) (st : OrdState) (g : Gross) (f : OrdPos → OrdPos) (s : State) : State :=
  notifyOrd q (modOrd q (fun x => f (x.reopened st g)) s)

/-- An order position whose record is given up; the id read is kept (R162). -/
def OrdPos.withoutRecord (id : Option Nat) (x : OrdPos) : OrdPos := { x with record := none, idRead := id }

/-- Give up the record of a position at its recovery, with a WALL notice RELEASED marked FAULT (R162). -/
def giveUpRecord (q : Fin 12) (id : Option Nat) (s : State) : State :=
  modOrd q (OrdPos.withoutRecord id) (notifyReleased q true s)

/-- An order position after an answer of an order module (R61, R161, R162). -/
def surveyedOrd (q : Fin 12) (tote : Option (Option Nat)) (g : Gross) (s : State) : State :=
  match s.wall.pos[q].record with
  | none =>
    match tote with
    | none => reopenOrd q .empty g id s
    | some i => reopenOrd q .occupied g (fun x => { x with idRead := i }) s
  | some r =>
    let wasActive := s.wall.pos[q].former = some .active
    match tote with
    | none =>
      if wasActive then giveUpRecord q none (reopenOrd q .empty g id s)
      else notifyWall q (.added .expected)
        (reopenOrd q .expected g (fun x => { x with record := some { r with cond := .clean } }) s)
    | some i =>
      if i ≠ some r.tote then giveUpRecord q i (reopenOrd q .occupied g id s)
      else if wasActive then
        match disturbanceOf g (r.baseline.getD 0) s.prof.profile.ta with
        | none => notifyWall q (.clean g (r.baseline.getD 0))
            (reopenOrd q .active g (fun x => { x with record := some { r with cond := .clean } }) s)
        | some _ => reopenOrd q .active g id s
      else
        match g with
        | .grams w => notifyWall q (.active w)
            (reopenOrd q .active g
              (fun x => { x with record := some { r with cond := .clean, baseline := some w } }) s)
        | .overload => reopenOrd q .arrived g (fun x => { x with record := some { r with cond := .clean } }) s

/-- Set the position state by the outcome of its survey (R25, R61, R160 to R162). -/
def applySurvey (pos : Pos) (e : SurveyEnd) (s : State) : State :=
  match pos, e with
  | .src p, .failed c => surveyFailedSrc p c s
  | .src p, .source f l => surveyedSrc p f l s
  | .src p, .order _ _ => surveyFailedSrc p .kind s
  | .ord q, .failed c => surveyFailedOrd q c s
  | .ord q, .order t g => surveyedOrd q t g s
  | .ord q, .source _ _ => surveyFailedOrd q .kind s

/-- The reply to a POS-OPEN or POS-OPEN-ORDER when its survey has ended (R41, R161, R162). -/
def surveyReply (pos : Pos) (e : SurveyEnd) (s : State) : ReplyBody :=
  match e with
  | .failed .survey => .reject .survey
  | .failed _ => .reject .kind
  | _ =>
    match pos with
    | .src p => .ok (.sourceState s.src[p].state)
    | .ord q => .ok (.orderState s.wall.pos[q].state)

/-- No request is in execution any more. -/
def endHeld (s : State) : State := { s with link := { s.link with held := none } }

/-- Whether a held operation is the survey of a position (R41, R161). -/
def HeldJob.waitsFor (j : HeldJob) (pos : Pos) : Bool :=
  match j with
  | .openSource p => decide (pos = .src p)
  | .openOrder q => decide (pos = .ord q)
  | .restart => false

/-- Queue the reply of the POS-OPEN or POS-OPEN-ORDER that waits for this survey, and end its execution (R164). -/
def answerHeld (pos : Pos) (e : SurveyEnd) (s : State) : State :=
  match s.link.held with
  | none => s
  | some x =>
    if x.job.waitsFor pos then
      answer x.req (surveyReply pos e s) (endHeld s)
    else s

/-- A survey at a source position in DRAINED that leaves a slot LEAVING makes the mode DRAINING again (R139). Its BENCH
notice stands after the POSITION and RELEASE notices of the survey (DESIGN CHOICE, log entry 41). -/
def reopenDrain (pos : Pos) (s : State) : State :=
  match pos with
  | .src p => if s.bench.mode = .drained ∧ s.src[p].bothEmpty = false then setMode .draining s else s
  | .ord _ => s

/-- The blocks told of a position opened by a survey: an arbitration (R49) and, at an order position whose record was
recovered, the orphan judgement and an attempt (R162); the change of mode of R139 asks for an attempt (R82). -/
def afterSurvey (pos : Pos) (s : State) : State :=
  match pos with
  | .src p => if s.src[p].state = .opn then attempt (arbitrate s) else s
  | .ord q =>
    if s.wall.pos[q].state = .expected ∨ s.wall.pos[q].state = .arrived ∨ s.wall.pos[q].state = .active then
      recordEntered s
    else s

/-- Number of source positions in each state, configured or not (R142; DESIGN CHOICE, log entry 19). -/
def countSources (s : State) : List (SrcState × Nat) :=
  [SrcState.closed, .opn, .closing, .faulted].map fun st => (st, srcIndices.countP fun p => s.src[p].state == st)

/-- Number of order positions in each state, configured or not (R142; DESIGN CHOICE, log entry 19). -/
def countOrders (s : State) : List (OrdState × Nat) :=
  [OrdState.closed, .faulted, .empty, .expected, .arrived, .active, .leaving, .settling, .occupied].map fun st =>
    (st, ordIndices.countP fun q => s.wall.pos[q].state == st)

/-- Whether a survey of some position is in progress. -/
def anySurvey (s : State) : Bool :=
  srcIndices.any (fun p => inSurvey (.src p) s) || ordIndices.any fun q => inSurvey (.ord q) s

/-- The start-up survey is over. -/
def endSurveying (s : State) : State := { s with bench := { s.bench with surveying := false } }

/-- The end of the whole start-up survey: the BENCH notice SURVEYED, with mode STARTING, is queued, and requests are
executed again (R142). -/
def finishStartup (s : State) : State :=
  if s.bench.surveying && !(anySurvey s) then
    notify (.surveyed .starting (countSources s) (countOrders s)) (endSurveying s)
  else s

/-- End the survey of a position with an outcome (R160): the position's notices, the BENCH notice of a return to DRAINING,
the reply, then what follows (DESIGN CHOICES, log entries 11, 18 and 41). -/
def endSurvey (pos : Pos) (e : SurveyEnd) (s : State) : State :=
  finishStartup (afterSurvey pos (answerHeld pos e (reopenDrain pos (applySurvey pos e (stopSurvey pos s)))))

/-! ## Reports and timers of a field line -/

/-- An acknowledgement (R158). -/
def takeAck (pos : Pos) (seq : Nat) (s : State) : State :=
  match s.lines[lineOf pos].orders with
  | [] => s
  | o :: rest => if o.seq = seq then modLine (lineOf pos) (FieldLine.sendNext rest) s else s

/-- The expiry of the acknowledgement timer: the line has failed (R158). -/
def lineFailed (pos : Pos) (s : State) : State :=
  match s.lines[lineOf pos].ackT, s.lines[lineOf pos].orders with
  | some 0, o :: _ =>
    if inSurvey pos s then endSurvey pos (.failed .survey) (clearLine pos s)
    else if o.startDark then clearLine pos s
    else faultAt pos .line (clearLine pos s)
  | _, _ => s

/-- The survey timer of a position. -/
def surveyTimer (pos : Pos) (s : State) : Option Nat :=
  match pos with
  | .src p => s.src[p].surveyT
  | .ord q => s.wall.pos[q].surveyT

/-- The expiry of a survey timer (R160). -/
def surveyExpired (pos : Pos) (s : State) : State :=
  if surveyTimer pos s = some 0 then endSurvey pos (.failed .survey) s else s

/-- A SURVEY-ANSWER (R160). -/
def takeAnswer (pos : Pos) (a : SurveyAnswer) (s : State) : State :=
  if inSurvey pos s && validAnswer a then endSurvey pos (judgeAnswer pos a s) s else s

/-- A FAULT report (R159, R160): in the start-up survey it is discarded, in a POS-OPEN survey it ends the survey. -/
def takeFault (pos : Pos) (c : ModCause) (s : State) : State :=
  if inSurvey pos s then
    if s.bench.surveying then s else endSurvey pos (.failed .survey) s
  else if isFaulted pos s then s
  else faultAt pos (causeOf c) s

end Sys2Proof.Machine
end

