-- ==== Sys2Proof/Machine/Source.lean ====
section
/-!
DEFINITION. The events of a source position: arrivals, departures and the expiries of its timers (chapter 02, R55), and
the exposure bank's events (chapter 07).
-/
namespace Sys2Proof.Machine

/-! ## Arrivals (R28 to R31) -/

/-- A source position whose face has become PRESENT for a tote (R28). -/
def SrcPos.presented (t : Nat) (x : SrcPos) : SrcPos := { x with face := { state := .present, offer := some t } }

/-- A source position whose lane has become STAGED for a tote (R28). -/
def SrcPos.staged (t : Nat) (x : SrcPos) : SrcPos := { x with lane := { state := .staged, offer := some t } }

/-- A source position whose CALLED face has become ADVANCING; its call timer runs on (R29). -/
def SrcPos.followed (x : SrcPos) : SrcPos := { x with face := { x.face with state := .advancing } }

/-- A source position whose face is SETTLING, with the settle guard started (R36). -/
def SrcPos.settling (time : Nat) (x : SrcPos) : SrcPos :=
  { x with face := { state := .settling, settleT := some time } }

/-- A source position whose lane has become EMPTY; a face SETTLING with its timer stopped becomes EMPTY with it
(R25, R35). -/
def SrcPos.laneGone (x : SrcPos) : SrcPos :=
  { x with
    lane := {}
    face := if x.face.state = .settling ∧ x.face.settleT = none then {} else x.face }

/-- A source position whose STAGED tote advances to the face (R35). -/
def SrcPos.advanced (time : Nat) (x : SrcPos) : SrcPos :=
  { x with face := { state := .advancing, offer := x.lane.offer, callT := some time }, lane := {} }

/-- A source position whose call has moved from the lane to the face (R35). -/
def SrcPos.transferred (x : SrcPos) : SrcPos :=
  { x with face := { state := .called, offer := x.lane.offer, callT := x.lane.callT }, lane := {} }

/-- A source position whose SETTLING face waits for its lane, the timer stopped (R35). -/
def SrcPos.stopGuard (x : SrcPos) : SrcPos := { x with face := { x.face with settleT := none } }

/-- Whether a face waits for a tote id: CALLED or ADVANCING for it (R28). -/
def Face.awaits (f : Face) (x : Nat) : Bool :=
  (f.state == .called || f.state == .advancing) && f.offer == some x

/-- The checks on an arrival at the face: the held release, then R37, then the orphan condition (R28). -/
def faceChecks (p : Fin 4) (x : Nat) (held : Option HeldRelease) (s : State) : State :=
  match held with
  | some h => releaseSlot p .face x h.reason s
  | none => judgeFace p s

/-- The arrival of the awaited tote at the face (R28). A face that becomes PRESENT starts an arbitration (R49) and an
attempt (R82); the checks of R28 with their notices come before both (DESIGN CHOICE, log entry 33). -/
def faceArrival (p : Fin 4) (x : Nat) (s : State) : State :=
  let held := s.src[p].face.held
  let s1 := modSrc p (SrcPos.presented x) s
  let s2 := modOffer x (fun o =>
    { o with state := .present, place := some (p, .face), presented := some s.bench.clock }) s1
  attempt (arbitrate (faceChecks p x held s2))

/-- The arrival of the awaited tote at the lane (R28). -/
def laneArrival (p : Fin 4) (x : Nat) (s : State) : State :=
  modOffer x (fun o => { o with state := .staged, place := some (p, .lane) })
    (modSrc p (SrcPos.staged x) s)

/-- A lane arrival for a CALLED face: the advance is ordered and the call timer runs on (R29). -/
def followForward (p : Fin 4) (x : Nat) (s : State) : State :=
  modOffer x (fun o => { o with state := .staged, place := some (p, .face) })
    (handOrder (.src p) (.gate .advance)
      (modSrc p SrcPos.followed s))

/-- An arrival that no slot awaits is sent out, with its RELEASE notice (R30, R31). -/
def sendOut (p : Fin 4) (sl : Slot) (id : Option Nat) (r : Reason) (s : State) : State :=
  notify (.release id r (some (p, sl)) none []) (handOrder (.src p) (.gate (exitGate sl)) s)

/-- A repeat report (R31): the slot holds this tote already, or the face is ADVANCING for it. -/
def repeatReport (y : SrcPos) (sl : Slot) (x : Nat) : Bool :=
  match sl with
  | .face => y.face.state == .present && y.face.offer == some x
  | .lane => (y.lane.state == .staged && y.lane.offer == some x)
      || (y.face.state == .advancing && y.face.offer == some x)

/-- Take an ARRIVED report of a source position (R28 to R31). -/
def takeArrival (p : Fin 4) (sl : Slot) (id : Option Nat) (s : State) : State :=
  match id with
  | none => sendOut p sl none .unread s
  | some x =>
    let y := s.src[p]
    match sl with
    | .face =>
      if y.face.awaits x then faceArrival p x s
      else if repeatReport y .face x then s
      else sendOut p .face (some x) .wrongTote s
    | .lane =>
      if y.lane.state = .called ∧ y.lane.offer = some x then laneArrival p x s
      else if y.face.state = .called ∧ y.face.offer = some x ∧ y.depth = 1 then followForward p x s
      else if repeatReport y .lane x then s
      else sendOut p .lane (some x) .wrongTote s

/-! ## Departures (R18, R36) -/

/-- The offer store takes a departure: an IDLE-RESCUE offer returns to WAITING with the RETURN flag,
any other is removed (R18). -/
def offerDeparts (named : Option Nat) (s : State) : State :=
  match named with
  | none => s
  | some t =>
    match findOffer t s with
    | none => s
    | some o =>
      if o.reason = some .idleRescue then modOffer t (fun o => { o.toWaiting with ret := true }) s
      else dropOffer t s

/-- Whether a departure returns its offer to WAITING (R18). -/
def returnsOnDeparture (named : Option Nat) (s : State) : Bool :=
  (named.bind fun t => findOffer t s).any fun o => o.reason == some .idleRescue

/-- Take a DEPARTED report of a source position (R36). An offer that returns to WAITING and a slot made EMPTY start an
arbitration (R49). -/
def takeDeparture (p : Fin 4) (sl : Slot) (s : State) : State :=
  let y := s.src[p]
  match sl with
  | .face =>
    if y.face.state = .leaving then
      let s1 := modSrc p (SrcPos.settling s.prof.profile.settleGuard) s
      let s2 := offerDeparts y.face.offer s1
      if returnsOnDeparture y.face.offer s then arbitrate s2 else s2
    else s
  | .lane =>
    if y.lane.state = .leaving then
      let s1 := modSrc p SrcPos.laneGone s
      arbitrate (slotSettled p (offerDeparts y.lane.offer s1))
    else s

/-! ## Expiries -/

/-- The offer store takes a lapse: the count rises, and the offer returns to WAITING or is removed, with the LAPSE
notice (R19). -/
def offerLapses (t : Nat) (p : Fin 4) (sl : Slot) (s : State) : State :=
  match findOffer t s with
  | none => s
  | some o =>
    let n := o.lapses + 1
    let gone := decide (s.prof.profile.lapseLimit ≤ n)
    notify (.lapse t p sl n o.summary gone)
      (if gone then dropOffer t s else modOffer t (fun o => { o.toWaiting with lapses := n }) s)

/-- A source position with a slot made EMPTY; a held release is discarded with it (R55). -/
def SrcPos.emptied (sl : Slot) (x : SrcPos) : SrcPos :=
  match sl with
  | .face => { x with face := {} }
  | .lane => { x with lane := {} }

/-- The offer a slot names. -/
def SrcPos.named (x : SrcPos) (sl : Slot) : Option Nat :=
  match sl with
  | .face => x.face.offer
  | .lane => x.lane.offer

/-- Take a lapse at a slot (R55): the slot becomes EMPTY, the offer store is told, and an arbitration follows. The LAPSE
notice stands before those of the position and the drain (DESIGN CHOICE, log entry 32). -/
def takeLapse (p : Fin 4) (sl : Slot) (s : State) : State :=
  match s.src[p].named sl with
  | none => s
  | some t => arbitrate (slotSettled p (offerLapses t p sl (modSrc p (SrcPos.emptied sl) s)))

/-- The call timer of a slot (R23). -/
def SrcPos.callTimer (x : SrcPos) (sl : Slot) : Option Nat :=
  match sl with
  | .face => x.face.callT
  | .lane => x.lane.callT

/-- The leave timer of a slot (R23). -/
def SrcPos.leaveTimer (x : SrcPos) (sl : Slot) : Option Nat :=
  match sl with
  | .face => x.face.leaveT
  | .lane => x.lane.leaveT

/-- The expiry of a call timer (R55). -/
def callExpired (p : Fin 4) (sl : Slot) (s : State) : State :=
  if s.src[p].callTimer sl = some 0 then takeLapse p sl s else s

/-- The expiry of a leave timer: the slot is jammed (R34). -/
def leaveExpired (p : Fin 4) (sl : Slot) (s : State) : State :=
  if s.src[p].leaveTimer sl = some 0 then faultSrc p (.jam (some sl)) s else s

/-- The advance at the end of a settle guard (R35). -/
def advance (p : Fin 4) (s : State) : State :=
  let t := s.src[p].lane.offer
  let s1 := modSrc p (SrcPos.advanced (s.prof.profile.callTimeout * 10)) s
  let s2 := handOrder (.src p) (.gate .advance) s1
  match t with
  | none => s2
  | some x => modOffer x (fun o => { o with place := some (p, .face) }) s2

/-- The call transfer at the end of a settle guard (R35); a call with no time left lapses at the face at once, in the
same step (R56; DEDUCED, log entry 23). -/
def transferCall (p : Fin 4) (s : State) : State :=
  let y := s.src[p]
  let s1 := modSrc p SrcPos.transferred s
  let s2 := match y.lane.offer with
    | none => s1
    | some x => modOffer x (fun o => { o with place := some (p, .face) }) s1
  callExpired p .face s2

/-- The expiry of a settle timer (R35). A lane or face made EMPTY by it starts an arbitration (R49). -/
def settleExpired (p : Fin 4) (s : State) : State :=
  let y := s.src[p]
  if y.face.settleT = some 0 then
    match y.lane.state with
    | .staged => arbitrate (slotSettled p (advance p s))
    | .called => arbitrate (slotSettled p (transferCall p s))
    | .leaving => modSrc p SrcPos.stopGuard s
    | .empty => arbitrate (slotSettled p (modSrc p (SrcPos.emptied .face) s))
  else s

/-- The expiry of an orphan timer (R38). -/
def orphanExpired (p : Fin 4) (s : State) : State :=
  if s.src[p].face.orphanT = some 0 ∧ s.src[p].face.state = .present then
    match s.src[p].face.offer with
    | none => s
    | some t => releaseSlot p .face t .orphan s
  else s

/-! ## Exposure (chapter 07) -/

/-- The remaining exposure of an offer has fallen to the warning margin: its flag is judged against the margin in force
(R121). An offer that another event of the same moment has returned to WAITING is judged like any other, since the flag is
set while the remaining exposure is at or below the margin (DEDUCED, log entry 44). -/
def judgeWarning (t : Nat) (s : State) : State :=
  modOffer t (fun o => { o with exposure := o.exposure.map fun e => e.judged s.prof.profile.warningMargin }) s

/-- The put grace timer runs out: the cycle is cancelled, and the attempt that ends the cancellation follows (R98,
R125). -/
def graceExpired (s : State) : State :=
  match s.put.cycle with
  | none => s
  | some c => if c.grace ∧ s.put.graceT = some 0 then attempt (cancelCycle c none s) else s

/-- Start put grace for the lit cycle; a put grace of 0 expires at once, in the same step (R124; DEDUCED, log entry
23). -/
def startGrace (c : Cycle) (s : State) : State :=
  if c.grace then s
  else graceExpired (setGraceT (some (s.prof.profile.putGrace * 10)) (putCycle { c with grace := true } s))

/-- The expiry of a counted cold offer (R122): its remaining exposure is 0. -/
def exposureExpired (t : Nat) (s : State) : State :=
  match findOffer t s with
  | none => s
  | some o =>
    if o.exposure.any fun e => e.remaining == 0 then
      match o.state, o.place, s.put.cycle with
      | .present, some (p, .face), some c => if c.src = p then startGrace c s else askRelease t .exposed s
      | .present, _, _ => askRelease t .exposed s
      | .staged, _, _ => askRelease t .exposed s
      | _, _, _ => s
    else s

/-- Whether idle rescue sends an offer back: cold, with remaining exposure at or below the rescue margin; a margin of 0
rescues nothing (R126). -/
def rescueDue (s : State) (t : Nat) : Bool :=
  decide (0 < s.prof.profile.rescueMargin) &&
    (findOffer t s).any fun o => o.exposure.any fun e => decide (e.remaining ≤ s.prof.profile.rescueMargin * 10)

/-- Whether idle rescue examines a slot (R126): PRESENT, STAGED and ADVANCING, not CALLED and LEAVING. -/
def SrcPos.examined (x : SrcPos) (sl : Slot) : Bool :=
  match sl with
  | .face => x.face.state == .present || x.face.state == .advancing
  | .lane => x.lane.state == .staged

/-- Examine one slot for idle rescue (R126). -/
def rescueSlot (s : State) (x : Fin 4 × Slot) : State :=
  match s.src[x.1].named x.2 with
  | none => s
  | some t => if s.src[x.1].examined x.2 && rescueDue s t then askRelease t .idleRescue s else s

/-- Idle rescue, at the change of the picker to IDLE: ascending index, the face before the lane (R126). -/
def idleRescue (s : State) : State :=
  (srcIndices.flatMap fun p => [(p, Slot.face), (p, Slot.lane)]).foldl rescueSlot s

/-- The expiry of the idle timer (R135). -/
def idleExpired (s : State) : State :=
  if s.picker.idleT = some 0 then idleRescue (setPicker .idle .idleExpiry (stopIdle s)) else s

/-! ## The commands -/

/-- A command the part takes unless the RESET input is on (R140). -/
def live (f : State → State) (s : State) : Host.Outcome State Fault Refusal :=
  .next (if s.inputs.reset then s else f s)

/-- SOURCE_ARRIVED (R28 to R31, R155, R156). -/
def execSourceArrived (p : Fin 4) (slot : Slot) (id : Option Nat) (s : State) : Host.Outcome State Fault Refusal :=
  live (fun s => if takesReports (.src p) s && validId id then takeArrival p slot id s else s) s

/-- SOURCE_DEPARTED (R36, R155). -/
def execSourceDeparted (p : Fin 4) (slot : Slot) (s : State) : Host.Outcome State Fault Refusal :=
  live (fun s => if takesReports (.src p) s then takeDeparture p slot s else s) s

/-- LAPSE (R55). -/
def execLapse (p : Fin 4) (slot : Slot) (s : State) : Host.Outcome State Fault Refusal := live (callExpired p slot) s

/-- JAM (R34). -/
def execJam (p : Fin 4) (slot : Slot) (s : State) : Host.Outcome State Fault Refusal := live (leaveExpired p slot) s

/-- SETTLE_TIMER_EXPIRY (R35). -/
def execSettleTimerExpiry (p : Fin 4) (s : State) : Host.Outcome State Fault Refusal := live (settleExpired p) s

/-- ORPHAN_TIMER_EXPIRY (R38). -/
def execOrphanTimerExpiry (p : Fin 4) (s : State) : Host.Outcome State Fault Refusal := live (orphanExpired p) s

/-- IDLE_TIMER_EXPIRY (R135). -/
def execIdleTimerExpiry (s : State) : Host.Outcome State Fault Refusal := live idleExpired s

/-- WARNING_MARGIN_REACHED (R121). -/
def execWarningMarginReached (tote : Nat) (s : State) : Host.Outcome State Fault Refusal := live (judgeWarning tote) s

/-- EXPOSURE_EXPIRY (R122). -/
def execExposureExpiry (tote : Nat) (s : State) : Host.Outcome State Fault Refusal := live (exposureExpired tote) s

/-- PUT_GRACE_TIMER_EXPIRY (R125). -/
def execPutGraceTimerExpiry (s : State) : Host.Outcome State Fault Refusal := live graceExpired s

/-- FAULT_REPORT (R159, R160). -/
def execFaultReport (pos : Pos) (cause : ModCause) (s : State) : Host.Outcome State Fault Refusal :=
  live (takeFault pos cause) s

/-- SURVEY_ANSWER (R160). -/
def execSurveyAnswer (pos : Pos) (answer : SurveyAnswer) (s : State) : Host.Outcome State Fault Refusal :=
  live (takeAnswer pos answer) s

/-- ACK (R158). -/
def execAck (pos : Pos) (seq : Nat) (s : State) : Host.Outcome State Fault Refusal := live (takeAck pos seq) s

/-- ACK_TIMER_EXPIRY (R158). -/
def execAckTimerExpiry (pos : Pos) (s : State) : Host.Outcome State Fault Refusal := live (lineFailed pos) s

/-- SURVEY_TIMER_EXPIRY (R160). -/
def execSurveyTimerExpiry (pos : Pos) (s : State) : Host.Outcome State Fault Refusal := live (surveyExpired pos) s

end Sys2Proof.Machine
end

