-- ==== Sys2Proof/Machine/Wall.lean ====
section
/-!
DEFINITION. The reports and timers of an order position (chapter 04) and the picker's keys (chapter 05).
-/
namespace Sys2Proof.Machine

/-- Order a tote out of an order position (R68, R73). -/
def exitOrd (q : Fin 12) (s : State) : State := handOrder (.ord q) (.gate .exit) s

/-- An order position that is EMPTY: no record, no id read, its timers stopped (R74). -/
def OrdPos.emptied (x : OrdPos) : OrdPos :=
  { x with state := .empty, record := none, idRead := none, leaveT := none, settleT := none }

/-- An order position in another position state, its items as they are. -/
def OrdPos.putState (st : OrdState) (x : OrdPos) : OrdPos := { x with state := st }

/-- An order position whose tote has left: SETTLING, with its guard started (R74). -/
def OrdPos.departed (time : Nat) (x : OrdPos) : OrdPos :=
  { x with state := .settling, leaveT := none, settleT := some time }

/-- Replace the latest stable weight (R60). -/
def OrdPos.weighed (g : Gross) (x : OrdPos) : OrdPos := { x with latest := some g }

/-- The position becomes EMPTY, or CLOSED when it stands at or above the order count (R74, R76). The count is read at this
moment, so one that was raised again keeps the position EMPTY (DESIGN CHOICE, log entry 34). -/
def emptyOrd (q : Fin 12) (s : State) : State :=
  let s1 := modOrd q OrdPos.emptied s
  if s.prof.profile.orderCount ≤ q.val then closeOrd q s1 else s1

/-! ## Arrival and departure (R68, R74) -/

/-- Take an ARRIVED report of an order position, by its state (R68). -/
def takeOrderArrival (q : Fin 12) (id : Option Nat) (s : State) : State :=
  let x := s.wall.pos[q]
  let expected := x.record.any fun r => id == some r.tote
  match x.state with
  | .expected =>
    if expected then recordEntered (notifyWall q .arrived (modOrd q (OrdPos.putState .arrived) s))
    else notifyWall q (.wrongTote id) (exitOrd q s)
  | .empty => notifyWall q (.wrongTote id) (exitOrd q s)
  | .settling => notifyWall q (.wrongTote id) (exitOrd q s)
  | .arrived => if expected then s else notifyWall q (.wrongTote id) s
  | .active => if expected then s else notifyWall q (.wrongTote id) s
  | .leaving => if expected then s else notifyWall q (.wrongTote id) s
  | .occupied => notifyWall q (.wrongTote id) s
  | .closed => exitOrd q s
  | .faulted => s

/-- Take a DEPARTED report of an order position (R74). -/
def takeOrderDeparture (q : Fin 12) (s : State) : State :=
  if s.wall.pos[q].state = .leaving then
    modOrd q (OrdPos.departed s.prof.profile.settleGuard) s
  else s

/-- The expiry of the leave timer of an order position (R74, R75). -/
def orderLeaveExpired (q : Fin 12) (s : State) : State :=
  if s.wall.pos[q].leaveT = some 0 then faultOrd q (.jam none) s else s

/-- The expiry of the settle timer of an order position (R74). -/
def orderSettleExpired (q : Fin 12) (s : State) : State :=
  if s.wall.pos[q].settleT = some 0 then emptyOrd q s else s

/-! ## Stable weights (R60, R68, R69, R70, R87, R92) -/

/-- Whether a stable weight is picker activity: the record has a baseline, and the weight differs from it by more than
Ta or is OVERLOAD (R134). -/
def isActivity (x : OrdPos) (g : Gross) (ta : Nat) : Bool :=
  (x.record.bind fun r => r.baseline).any fun b => (disturbanceOf g b ta).isSome

/-- A record becomes CLEAN: its misput mark is cleared and a remove light goes off (R70). -/
def cleanRecord (q : Fin 12) (s : State) : State :=
  lightOff q (modRec q (fun r => { r with cond := .clean, misput := false }) s)

/-- A record becomes DISTURBED, or changes its cause, by a report at its position: a misput while a cycle is lit
(R69, R70). The notice carries the mark of this change, the record keeps a mark it has (DEDUCED, log entry 20). -/
def disturbByReport (q : Fin 12) (d : Disturbance) (g : Gross) (b : Nat) (s : State) : State :=
  let misput := s.put.cycle.isSome
  let s1 := modRec q (fun r => { r with cond := .disturbed d, misput := r.misput || misput }) s
  let s2 := notifyWall q (.disturbed d g b misput) s1
  if misput then lightOn q s2 else s2

/-- Judge a stable weight at an ACTIVE position that is not the target (R69). -/
def judgeCondition (q : Fin 12) (g : Gross) (s : State) : State :=
  match s.wall.pos[q].record with
  | none => s
  | some r =>
    let b := r.baseline.getD 0
    let j := disturbanceOf g b s.prof.profile.ta
    if condOf j = r.cond then s
    else
      match j with
      | none => wallChanged (cleanRecord q (notifyWall q (.clean g b) s))
      | some d => wallChanged (disturbByReport q d g b s)

/-- Activate an ARRIVED record at its first stable weight (R68). -/
def activateRecord (q : Fin 12) (g : Gross) (s : State) : State :=
  match g with
  | .overload => notifyWall q .overload s
  | .grams w =>
    recordEntered (notifyWall q (.active w)
      (modRec q (fun r => { r with baseline := some w, cond := .clean })
        (modOrd q (OrdPos.putState .active) s)))

/-- Act on a verdict (R87 to R90). -/
def actOnVerdict (c : Cycle) (v : Verdict) (g : Gross) (s : State) : State :=
  let base := match g with
    | .grams w => some w
    | .overload => none
  match v with
  | .matched =>
    let c1 := { c with acc := c.n, verdict := some v, state := .lit }
    endCycle c1 false
      (charge c (c.n - c.acc) base (putCycle c1 s))
  | .part k => updateCycle c { c with acc := c.acc + k, verdict := some v, state := .lit } (charge c k base s)
  | _ => updateCycle c { c with verdict := some v, state := stateAfter v } s

/-- A stable weight at the target of a WEIGH cycle: the verdict, and its effect (R87, R102). -/
def weighTarget (c : Cycle) (g : Gross) (s : State) : State :=
  match cycleLine c s, s.wall.pos[c.tgt].record with
  | some l, some r =>
    actOnVerdict c
      (verdict g (r.baseline.getD 0) (c.n - c.acc) l.basis s.prof.profile.ta s.prof.profile.tp) g s
  | _, _ => s

/-- A stable weight at an ACTIVE position (R69, R92). -/
def takeActiveStable (q : Fin 12) (g : Gross) (s : State) : State :=
  match s.put.cycle with
  | none => judgeCondition q g s
  | some c =>
    if c.tgt = q then
      match c.mode with
      | .weigh => weighTarget c g s
      | .press => s
    else judgeCondition q g s

/-- Take a STABLE report of an order position: it replaces the latest stable weight, goes to its owner, and is handed
to the picker monitor with the difference from the baseline before any move (R60, R69, R116, R134). The owner acts
before the monitor (DESIGN CHOICE, log entry 21). -/
def takeStable (q : Fin 12) (g : Gross) (s : State) : State :=
  let x := s.wall.pos[q]
  let s1 := if x.state = .closed then s else modOrd q (OrdPos.weighed g) s
  let s2 := match x.state with
    | .arrived => activateRecord q g s1
    | .active => takeActiveStable q g s1
    | _ => s1
  if isActivity x g s.prof.profile.ta then activity (.ord q) .stable s2 else s2

/-! ## Keys (R91, R93, R94) -/

/-- The SHORT key of a source position ends the lit cycle of that position short (R93, R94). -/
def takeShort (p : Fin 4) (s : State) : State :=
  match s.put.cycle with
  | none => s
  | some c => if c.src = p then endCycle c true s else s

/-- A compartment button counts one unit of a PRESS cycle at its target compartment (R91, R94). -/
def takeButton (q : Fin 12) (j : Nat) (s : State) : State :=
  match s.put.cycle with
  | none => s
  | some c =>
    if c.tgt = q ∧ c.comp = j ∧ c.mode = .press then
      let c1 := { c with acc := c.acc + 1 }
      let s1 := charge c 1 none s
      if c1.acc < c1.n then updateCycle c c1 s1
      else endCycle c1 false (putCycle c1 s1)
    else s

/-! ## The commands -/

/-- ORDER_ARRIVED (R68); a report that names a slot does not fit an order line (R155, R156). -/
def execOrderArrived (q : Fin 12) (slot : Option Slot) (id : Option Nat) (s : State) :
    Host.Outcome State Fault Refusal :=
  live (fun s => if takesReports (.ord q) s && slot.isNone && validId id then takeOrderArrival q id s else s) s

/-- ORDER_DEPARTED (R74); a report that names a slot does not fit an order line (R155, R156). -/
def execOrderDeparted (q : Fin 12) (slot : Option Slot) (s : State) : Host.Outcome State Fault Refusal :=
  live (fun s => if takesReports (.ord q) s && slot.isNone then takeOrderDeparture q s else s) s

/-- STABLE (R69); from a source line it is discarded (R155), and so is a weight above 60000 g (R155, R156; DEDUCED, log
entry 37). -/
def execStable (pos : Pos) (g : Gross) (s : State) : Host.Outcome State Fault Refusal :=
  live (fun s =>
    match pos with
    | .src _ => s
    | .ord q => if takesReports (.ord q) s && validGross g then takeStable q g s else s) s

/-- KEY_SHORT (R93, R94, R134); from an order line it is discarded (R155). -/
def execKeyShort (pos : Pos) (s : State) : Host.Outcome State Fault Refusal :=
  live (fun s =>
    match pos with
    | .src p => if takesReports (.src p) s then activity (.src p) .key (takeShort p s) else s
    | .ord _ => s) s

/-- KEY_BUTTON (R91, R94, R134); from a source line it is discarded (R155). -/
def execKeyButton (pos : Pos) (button : Nat) (s : State) : Host.Outcome State Fault Refusal :=
  live (fun s =>
    match pos with
    | .src _ => s
    | .ord q =>
      if takesReports (.ord q) s && decide (button ≤ 5) then activity (.ord q) .key (takeButton q button s) else s) s

/-- ORDER_LEAVE_TIMER_EXPIRY (R74). -/
def execOrderLeaveTimerExpiry (q : Fin 12) (s : State) : Host.Outcome State Fault Refusal :=
  live (orderLeaveExpired q) s

/-- ORDER_SETTLE_TIMER_EXPIRY (R74). -/
def execOrderSettleTimerExpiry (q : Fin 12) (s : State) : Host.Outcome State Fault Refusal :=
  live (orderSettleExpired q) s

end Sys2Proof.Machine
end

