-- ==== Sys2Proof/Machine/StartUp.lean ====
section
/-!
DEFINITION. The start-up (R140 to R142) and the three logic inputs (R130 to R132, R140, R154).
-/
namespace Sys2Proof.Machine

/-- A store in progress is abandoned by a start-up: the image is left INVALID, with a check that does not agree (R151;
the check word is a free value, log entry 39). -/
def ProfileStore.abandoned (x : ProfileStore) : ProfileStore :=
  if x.storing then { x with check := badCheck x.spoiled x.image, spoiled := x.spoiled + 1, storing := false } else x

/-- The profile store at a start-up: the image when it is VALID, that is when the check computed over it agrees with the
check stored with it, the defaults otherwise; the SHIFT flag is kept by RESTART alone (R144). -/
def ProfileStore.loadedFrom (keepShift : Bool) (x : ProfileStore) : ProfileStore :=
  let valid := x.image.check == x.check
  let pr := if valid then x.image else {}
  let stored := if valid then x.image.lock else .opn
  let shift := keepShift && x.shift
  { profile := pr
    image := x.image
    check := x.check
    spoiled := x.spoiled
    imageValid := valid
    loaded := valid
    storedLock := stored
    shift := shift
    storing := false
    effLock := effectiveLock stored shift }

/-- The profile store after a start-up (R144, R151). -/
def ProfileStore.started (keepShift : Bool) (x : ProfileStore) : ProfileStore := x.abandoned.loadedFrom keepShift

/-- Every block at its start-up value, before the survey (R140, with the rules its table names). The bytes of a frame
partly taken are dropped (DESIGN CHOICE, log entry 30). -/
def blankStart (keepShift : Bool) (s : State) : State :=
  let st := s.prof.started keepShift
  { inputs := { s.inputs with reset := false }
    link := {}
    offers := []
    arb := { ladder := st.profile.ladder }
    src := #v[{ depth := st.profile.laneDepth[0] }, { depth := st.profile.laneDepth[1] },
      { depth := st.profile.laneDepth[2] }, { depth := st.profile.laneDepth[3] }]
    wall := {}
    put := {}
    picker := { cond := if s.inputs.hold then .held else .active }
    bench := { surveying := true }
    prof := st
    lines := Vector.replicate 16 {}
    pending := s.pending }

/-- Hand the dark LIGHT of the start-up to a position that is not surveyed (R142). -/
def startDark (pos : Pos) (s : State) : State :=
  let d := match pos with
    | .src _ => Display.source
    | .ord _ => Display.all
  modLine (lineOf pos) (FieldLine.hand (.light d .dark) true) s

/-- Begin the start-up survey at one source position, or darken it (R142). -/
def surveyOrDarkSrc (s : State) (p : Fin 4) : State :=
  if p.val < s.prof.profile.sourceCount then beginSurvey (.src p) s else startDark (.src p) s

/-- Begin the start-up survey at one order position, or darken it (R142). -/
def surveyOrDarkOrd (s : State) (q : Fin 12) : State :=
  if q.val < s.prof.profile.orderCount then beginSurvey (.ord q) s else startDark (.ord q) s

/-- Make a start-up (R140, R141). -/
def startUp (keepShift : Bool) (s : State) : State :=
  ordIndices.foldl surveyOrDarkOrd (srcIndices.foldl surveyOrDarkSrc (blankStart keepShift s))

/-! ## HOLD (R131, R132, R86) -/

/-- Darken the displays of the lit cycle and every remove light (R86). -/
def darkenAll (s : State) : State :=
  let s1 := match s.put.cycle with
    | none => s
    | some c => darkCycle c none s
  ordIndices.foldl (fun s q => lightOff q s) s1

/-- Turn on the remove light of a record whose misput mark is still set (R86). -/
def restoreLight (s : State) (q : Fin 12) : State :=
  if s.wall.pos[q].state = .active ∧ s.wall.pos[q].record.any (fun r => r.misput) then lightOn q s else s

/-- Restore the displays of the lit cycle and the remove lights (R86). -/
def restoreAll (s : State) : State :=
  let s1 := match s.put.cycle with
    | none => s
    | some c => showCycle c s
  ordIndices.foldl restoreLight s1

/-- The HOLD input has gone on (R131). -/
def holdGoesOn (s : State) : State :=
  if s.picker.cond = .held then s else darkenAll (setPicker .held .holdOn (stopIdle s))

/-- The HOLD input has gone off (R132). -/
def holdGoesOff (s : State) : State :=
  if s.picker.cond = .held then
    attempt (arbitrate (restoreAll (startIdle (setPicker .active .holdOff s))))
  else s

/-- Set the level of the HOLD input. -/
def setHold (b : Bool) (s : State) : State := { s with inputs := { s.inputs with hold := b } }

/-- Set the level of the KEY input. -/
def setKey (b : Bool) (s : State) : State := { s with inputs := { s.inputs with key := b } }

/-! ## The commands -/

/-- POWER_UP (R140). With the RESET input on, the start-up is made when it goes off (log entry 4). -/
def execPowerUp (s : State) : Host.Outcome State Fault Refusal := live (startUp false) s

/-- RESET_LINE: the RESET input goes off, and the part makes a start-up (R140). -/
def execResetLine (s : State) : Host.Outcome State Fault Refusal := .next (startUp false s)

/-- RESET_ON: from now on the part takes no event and sends nothing (R140). -/
def execResetOn (s : State) : Host.Outcome State Fault Refusal :=
  .next { s with inputs := { s.inputs with reset := true } }

/-- HOLD_ON (R131). The level is followed while the RESET input is on, and acts at the start-up (R130). -/
def execHoldOn (s : State) : Host.Outcome State Fault Refusal := live holdGoesOn (setHold true s)

/-- HOLD_OFF (R132). -/
def execHoldOff (s : State) : Host.Outcome State Fault Refusal := live holdGoesOff (setHold false s)

/-- KEY_INPUT_CHANGE: nothing but the level changes (R154). -/
def execKeyInputChange (level : Bool) (s : State) : Host.Outcome State Fault Refusal := .next (setKey level s)

end Sys2Proof.Machine
end

