-- ==== Sys2Proof/Machine/Link.lean ====
section
/-!
DEFINITION. The control link (chapter 11): receiving, the inbox, the beginning of an execution with the checks of R165
and R143, and the sending of frames.
-/
namespace Sys2Proof.Machine

/-! ## Receiving (R163, R164) -/

/-- Append a request to the inbox (R164). -/
def appendInbox (r : Request) (s : State) : State :=
  { s with link := { s.link with inbox := s.link.inbox ++ [r] } }

/-- Set the bytes of the frame being taken (R163). -/
def setRx (bs : List Byte) (s : State) : State := { s with link := { s.link with rx := bs } }

/-- Take a request: append it to the inbox, or answer FULL when a reply entry is free (R164). -/
def takeRequest (r : Request) (s : State) : State :=
  if s.link.inbox.length < Config.inboxCapacity then
    appendInbox r s
  else if replyFree s then answer r .full s
  else s

/-- Take one inbound byte (R163). -/
def receiveByte (s : State) (b : Byte) : State :=
  let x := receive s.link.rx b
  match x.2 with
  | none => setRx x.1 s
  | some r => takeRequest r (setRx x.1 s)

/-- Discard the bytes of the frame taken so far (R163). -/
def dropPartial (s : State) : State := setRx [] s

/-! ## Sending (R168) -/

/-- Whether a reply is the OK to a RESTART (R141). -/
def isRestartReply (r : Reply) : Bool := r.kind == 0x8F && r.body == .ok .none

/-- Set the outbound queue. -/
def setOut (out : List OutEntry) (s : State) : State := { s with link := { s.link with out := out } }

/-- The last byte of the frame at the front of the outbound queue has been sent (R168): its entry is freed; a fall from
48 to 47 notices starts an arbitration; the sent RESTART reply leads to a start-up that keeps the SHIFT flag (R141). A
store that has completed by then counts, and its image is loaded (DESIGN CHOICE, log entry 38). -/
def frameSent (s : State) : State :=
  match s.link.out with
  | [] => s
  | e :: rest =>
    match e with
    | .notice _ => if noticeCount s = Config.noticeThreshold then arbitrate (setOut rest s) else setOut rest s
    | .reply r =>
      if isRestartReply r && (s.link.held.any fun x => x.job == .restart) then startUp true (setOut rest s)
      else setOut rest s

/-! ## Executing the request at the front of the inbox (R143, R164, R165) -/

/-- The row of the table that executes a request (section 11.6). A QUERY of no known form is executed by the
QUERY BENCH row (log entry 6). -/
def rowOf (r : Request) : Instr :=
  match r.kind.toNat with
  | 0x01 => .offer
  | 0x02 => .recall
  | 0x03 => .wallAdd
  | 0x04 => .wallUrge
  | 0x05 => .wallWindow
  | 0x06 => .wallShut
  | 0x07 => .wallRebase
  | 0x08 => .wallRelease
  | 0x09 => .posOpen
  | 0x0A => .posClose
  | 0x0B => .posOpenOrder
  | 0x0C => .posCloseOrder
  | 0x0D => .benchStart
  | 0x0E => .benchDrain
  | 0x0F => .restart
  | 0x10 => .profileSet
  | 0x11 => .profileGet
  | 0x12 => .profileStore
  | 0x13 => .lockShift
  | 0x14 =>
    match r.body with
    | [] => .queryBench
    | f :: _ =>
      if f = 1 then .queryPosition else if f = 2 then .queryOffer else if f = 3 then .queryOrder else .queryBench
  | _ => .unknownRequest

/-- Whether an execution may begin: none is held, the start-up survey is over, and a reply entry is free
(R142, R164). -/
def mayExecute (s : State) : Bool := s.link.held.isNone && !s.bench.surveying && replyFree s

/-- The request at the front of the inbox, when its execution may begin and this row executes it. -/
def frontRequest (row : Instr) (s : State) : Option Request :=
  if mayExecute s then
    match s.link.inbox with
    | [] => none
    | r :: _ => if rowOf r = row then some r else none
  else none

/-- Take the request off the front of the inbox (R164). -/
def popRequest (s : State) : State := { s with link := { s.link with inbox := s.link.inbox.tail } }

/-- The requests that STARTING answers MODE (R143). -/
def refusedInStarting : Instr → Bool
  | .recall => true
  | .wallUrge => true
  | .wallWindow => true
  | .wallShut => true
  | .wallRebase => true
  | .benchDrain => true
  | _ => false

/-- Execute a request: the mode admission of R143, the reading of its body, then its owner (R165). -/
def runRequest {α : Type} (row : Instr) (read : State → List Byte → Option α) (owner : Request → α → State → State)
    (s : State) : State :=
  match frontRequest row s with
  | none => s
  | some r =>
    let s1 := popRequest s
    if s.bench.mode = .starting ∧ refusedInStarting row then answer r .mode s1
    else
      match read s1 r.body with
      | none => answer r .format s1
      | some a => owner r a s1

/-! ## The commands -/

/-- FRAME_RECEIVED: bytes of the inbound stream are taken one by one (R163; DESIGN CHOICE, log entry 25). -/
def execFrameReceived (bytes : List Byte) (s : State) : Host.Outcome State Fault Refusal :=
  live (fun s => bytes.foldl receiveByte s) s

/-- BYTE_GAP_TIMEOUT: the bytes taken so far are discarded, and the byte that ends the gap is judged as in hunting
(R163). -/
def execByteGapTimeout (next : Byte) (s : State) : Host.Outcome State Fault Refusal :=
  live (fun s => receiveByte (dropPartial s) next) s

/-- BAD_LENGTH: a start byte and two length bytes are taken; a bad length discards the start byte and hunting resumes
with the byte after it (R163). -/
def execBadLength (lo hi : Byte) (s : State) : Host.Outcome State Fault Refusal :=
  live (fun s => [Config.startByte, lo, hi].foldl receiveByte s) s

/-- FRAME_SENT (R168). -/
def execFrameSent (s : State) : Host.Outcome State Fault Refusal := live frameSent s

/-- UNKNOWN_REQUEST: a kind that names no request is answered UNKNOWN (R165). -/
def execUnknownRequest (s : State) : Host.Outcome State Fault Refusal :=
  live (runRequest .unknownRequest (fun _ => readNone) fun r _ s => answer r .unknown s) s

end Sys2Proof.Machine
end

