-- ==== Sys2Proof/Machine/OfferStore.lean ====
section
/-!
DEFINITION. The offer store's requests: OFFER (R9 to R14) and RECALL (R15).
-/
namespace Sys2Proof.Machine

/-- The index of the first line that fails a test. -/
def firstBad (bad : OfferLine → Bool) (ls : List OfferLine) : Option Nat := ls.findIdx? bad

/-- Check 8 of R9: the bounds of a line. -/
def badBounds (l : OfferLine) : Bool :=
  decide (30000 < l.unit) || decide (30000 < l.umin) || decide (30000 < l.umax) || ((l.umin == 0) != (l.umax == 0))
    || decide (l.umax < l.umin)

/-- A budget clamped to the range of its class (R11). -/
def clampBudget (t : Temp) (b : Nat) : Nat :=
  let top := if t = .frozen then 1800 else 3600
  if b < 60 then 60 else if top < b then top else b

/-- The line record made at ACCEPT (R5, R14): 0 means an absent unit weight and absent bounds. -/
def makeLine (minWeighable : Nat) (l : OfferLine) : OLine :=
  let unit := if l.unit = 0 then none else some l.unit
  let bounds := if l.umin = 0 then none else some (l.umin, l.umax)
  let m := putModeOf minWeighable unit bounds
  { ref := l.ref, qty := l.qty, unit := unit, bounds := bounds, volume := l.volume, mode := m.1, charge := m.2 }

/-- The offer record made at ACCEPT (R3, R5, R11); the warning flag is judged at once (R121). -/
def makeOffer (pr : Profile) (t : Temp) (tote budget used : Nat) (ls : List OfferLine) : Offer :=
  { tote := tote
    temp := t
    exposure :=
      if t.isCold then some (Exposure.judged { budget := clampBudget t budget, used := used * 10 } pr.warningMargin)
      else none
    lines := ls.map (makeLine pr.minWeighable) }

/-- The judgement of an OFFER: the record to append, or the reply of the first check that fails (R9). Within check 5 the tote
id is looked at first: with a tote id of 0 and an order ref of 0 the reply FORMAT carries no index (DESIGN CHOICE, log
entry 40). -/
def judgeOffer (s : State) (bs : List Byte) : Except ReplyBody Offer :=
  let n := (byteAt bs 9).toNat
  let tote := u32At bs 0
  let budget := u16At bs 5
  let used := u16At bs 7
  let ls := (List.range n).map (offerLineAt bs)
  if s.bench.mode ≠ .service then .error (.wait .mode)
  else if bs.length < 10 then .error (.reject (.format none))
  else if n = 0 ∨ 8 < n then .error (.reject .lines)
  else if bs.length < 10 + 12 * n then .error (.reject (.format none))
  else if tote = 0 then .error (.reject (.format none))
  else
    match firstBad (fun l => l.ref == 0) ls with
    | some i => .error (.reject (.format (some i)))
    | none =>
      match tempOfCode (byteAt bs 4).toNat with
      | none => .error (.reject .cls)
      | some t =>
        match firstBad (fun l => l.qty == 0 || decide (99 < l.qty)) ls with
        | some i => .error (.reject (.quantity i))
        | none =>
          match firstBad badBounds ls with
          | some i => .error (.reject (.bounds i))
          | none =>
            match firstBad (fun l => decide (250 < l.volume)) ls with
            | some i => .error (.reject (.volume i))
            | none =>
              if (findOffer tote s).isSome then .error (.reject .duplicate)
              else if t.isCold ∧ clampBudget t budget ≤ used then .error (.reject .exposed)
              else if Config.offerCapacity ≤ s.offers.length then .error (.wait .full)
              else if ls.all (fun l => !(wallHolds l.ref (fun _ => true) s)) then .error (.wait .noOrder)
              else .ok (makeOffer s.prof.profile t tote budget used ls)

/-- The ACCEPT reply to an offer (R10). -/
def acceptReply (o : Offer) (count : Nat) : ReplyBody :=
  .accept count (o.exposure.map fun e => e.budget) (o.lines.map fun l => l.mode)

/-- Append an offer record to the list (R1, R13). -/
def appendOffer (o : Offer) (s : State) : State := { s with offers := s.offers ++ [o] }

/-- Execute an OFFER (R9, R13): an ACCEPT appends the record, queues the reply and starts an arbitration (R49). -/
def ownOffer (r : Request) (bs : List Byte) (s : State) : State :=
  match judgeOffer s bs with
  | .error b => answer r b s
  | .ok o => arbitrate (answer r (acceptReply o (s.offers.length + 1)) (appendOffer o s))

/-- A source position whose call at a slot is cancelled: the CALLED slot becomes EMPTY, no other (R15, R27; DESIGN CHOICE,
log entry 27). -/
def SrcPos.diverted (sl : Slot) (x : SrcPos) : SrcPos :=
  match sl with
  | .face => if x.face.state = .called then { x with face := {} } else x
  | .lane => if x.lane.state = .called then { x with lane := {} } else x

/-- Divert a call (R15): the slot becomes EMPTY and the record is removed; the slot made EMPTY starts an arbitration
after the reply (R49, log entry 11). -/
def divertCall (r : Request) (t : Nat) (p : Fin 4) (sl : Slot) (s : State) : State :=
  arbitrate (answer r (.ok (.recalled .diverted)) (slotSettled p (dropOffer t (modSrc p (SrcPos.diverted sl) s))))

/-- Execute a RECALL (R15). -/
def ownRecall (r : Request) (t : Nat) (s : State) : State :=
  match findOffer t s with
  | none => answer r .notFound s
  | some o =>
    match o.state, o.place with
    | .waiting, _ => answer r (.ok (.recalled .removed)) (dropOffer t s)
    | .called, some (p, sl) => divertCall r t p sl s
    | .staged, some (p, .lane) => answer r (.ok (.recalled .releasing)) (releaseSlot p .lane t .recall s)
    | .present, some (p, .face) =>
      if isLitSource p s then answer r .busy s
      else answer r (.ok (.recalled .releasing)) (releaseSlot p .face t .recall s)
    | .leaving, _ => answer r (.ok (.recalled .leaving)) s
    | _, _ => answer r .busy s

/-- OFFER (R9). Its body is not read here: the offer store makes its own length checks (R165). -/
def execOffer (s : State) : Host.Outcome State Fault Refusal :=
  live (runRequest .offer (fun _ bs => some bs) ownOffer) s

/-- RECALL (R15). -/
def execRecall (s : State) : Host.Outcome State Fault Refusal :=
  live (runRequest .recall (fun _ => readId) ownRecall) s

end Sys2Proof.Machine
end

