-- ==== Sys2Proof/Machine/WallRequests.lean ====
section
/-!
DEFINITION. The wall manager's requests: WALL-ADD to WALL-RELEASE (R64 to R67, R71 to R73), and the opening and closing of
positions (R39, R41, R76, R161).
-/
namespace Sys2Proof.Machine

/-- An order position number as an index: none at 12 or more. -/
def ordIndex (n : Nat) : Option (Fin 12) := if h : n < 12 then some ⟨n, h⟩ else none

/-- A source position number as an index: none at 4 or more. -/
def srcIndex (n : Nat) : Option (Fin 4) := if h : n < 4 then some ⟨n, h⟩ else none

/-- Whether a window's side or invert value is not 0 or 1 (R64, R67). -/
def badWindow (w : WindowField) : Bool := decide (1 < w.side) || decide (1 < w.invert)

/-- A window as stored in a record of `C` compartments; a count above C is stored as C (R63). -/
def storeWindow (C : Nat) (w : WindowField) : Window :=
  { side := if w.side = 0 then .front else .back, count := min w.count C, invert := w.invert == 1 }

/-- The window of a class that WALL-ADD does not give (R63). -/
def defaultWindow (C : Nat) : Window := { side := .front, count := C, invert := false }

/-- The records on the wall, in any state. -/
def allRecords (s : State) : List Rec := ordIndices.filterMap fun q => s.wall.pos[q].record

/-- The registration counter after one more registration (R62); beyond its range a free value (log entry 8). -/
def nextRegistration (n : Nat) : Nat := if n < Config.idMax then n + 1 else Config.registrationAfterMax

/-- The compartments of a recovered record: each recovery charge clamped to the record's caps, or 0 (R65). -/
def recoveredComps (pr : Profile) (cs : List (Nat × Nat)) : List Comp :=
  (List.range pr.compartments).map fun j =>
    match cs[j]? with
    | none => {}
    | some c => { weight := min c.1 pr.weightCap, volume := min c.2 pr.volumeCap }

/-- Whether a recovery charge is clamped (R64). -/
def chargeClamped (pr : Profile) (cs : List (Nat × Nat)) : Bool :=
  (cs.take pr.compartments).any fun c => decide (pr.weightCap < c.1) || decide (pr.volumeCap < c.2)

/-- The record a WALL-ADD creates, before its charges (R62, R65). -/
def makeRecord (pr : Profile) (seq : Nat) (f : WallAddFields) : Rec :=
  let w := fun i : Nat => (f.windows[i]?.map (storeWindow pr.compartments)).getD (defaultWindow pr.compartments)
  { ref := f.ref
    tote := f.tote
    urgent := flagOf f.urgent
    seq := seq
    count := pr.compartments
    weightCap := pr.weightCap
    volumeCap := pr.volumeCap
    windows := ⟨w 0, w 1, w 2⟩
    comps := (List.range pr.compartments).map fun _ => {} }

/-- The checks of R64 in order: the position, or the reply of the first that fails. Check 4 refuses every position at or
above the order count, also one that R76 keeps above a lowered count. -/
def judgeWallAdd (f : WallAddFields) (s : State) : Except ReplyBody (Fin 12) :=
  match ordIndex f.pos with
  | none => .error .range
  | some q =>
    let x := s.wall.pos[q]
    if f.ref = 0 ∨ f.tote = 0 then .error .format
    else if f.windows.any badWindow then .error .range
    else if x.state = .closed ∨ x.state = .faulted ∨ s.prof.profile.orderCount ≤ f.pos then .error (.reject .position)
    else if x.state ≠ .empty ∧ x.state ≠ .occupied then .error .busy
    else if (allRecords s).any fun r => r.tote == f.tote then .error (.reject .duplicate)
    else if 2 ≤ (allRecords s).countP fun r => r.ref == f.ref then .error (.reject .limit)
    else if x.state = .occupied ∧ x.idRead ≠ some f.tote then .error (.reject .mismatch)
    else .ok q

/-- The position after a WALL-ADD that passes (R65). -/
def registered (x : OrdPos) (r : Rec) (pr : Profile) (cs : List (Nat × Nat)) : OrdPos :=
  match x.state, x.latest with
  | .occupied, some (.grams g) =>
    { x with
      state := .active, idRead := none
      record := some { r with comps := recoveredComps pr cs, baseline := some g } }
  | .occupied, _ =>
    { x with state := .arrived, idRead := none, record := some { r with comps := recoveredComps pr cs } }
  | _, _ => { x with state := .expected, record := some r }

/-- Set the registration counter (R62). -/
def setCounter (n : Nat) (s : State) : State := { s with wall := { s.wall with counter := n } }

/-- Execute a WALL-ADD (R64, R65). The reply CLAMPED carries what the reply OK carries, and no charges (DESIGN CHOICE, log
entry 42). -/
def ownWallAdd (r : Request) (f : WallAddFields) (s : State) : State :=
  match judgeWallAdd f s with
  | .error b => answer r b s
  | .ok q =>
    let pr := s.prof.profile
    let seq := nextRegistration s.wall.counter
    let x := registered s.wall.pos[q] (makeRecord pr seq f) pr f.charges
    let clamped := (f.windows.any fun w => decide (pr.compartments < w.count))
      || (s.wall.pos[q].state == .occupied && chargeClamped pr f.charges)
    let content := Content.added seq x.state (makeRecord pr seq f).windows
    let s1 := modOrd q (fun _ => x) (setCounter seq s)
    let s2 := notifyWall q (.added x.state) s1
    recordEntered (answer r (if clamped then .clamped content else .ok content) s2)

/-- Set the urgent flag of every record holding an order ref (R66). -/
def setUrgent (ref : Nat) (u : Bool) (s : State) : State :=
  ordIndices.foldl (fun s q => modRec q (fun r => if r.ref = ref then { r with urgent := u } else r) s) s

/-- Execute a WALL-URGE (R66): a changed flag starts an arbitration (R49). -/
def ownWallUrge (r : Request) (a : Nat × Byte) (s : State) : State :=
  let n := (allRecords s).countP fun x => x.ref == a.1
  if n = 0 then answer r .notFound s
  else
    let u := flagOf a.2
    let changed := (allRecords s).any fun x => x.ref == a.1 && x.urgent != u
    let s1 := answer r (.ok (.urged n)) (setUrgent a.1 u s)
    if changed then arbitrate s1 else s1

/-- Whether a state is EXPECTED, ARRIVED or ACTIVE. -/
def OrdState.holds : OrdState → Bool
  | .expected => true
  | .arrived => true
  | .active => true
  | _ => false

/-- Whether the lit cycle targets a position and serves an offer of a class (R67). -/
def cycleServes (q : Fin 12) (t : Temp) (s : State) : Bool :=
  match s.put.cycle with
  | none => false
  | some c => decide (c.tgt = q) && ((findOffer c.offer s).any fun o => decide (o.temp = t))

/-- Execute a WALL-WINDOW (R67). -/
def ownWallWindow (r : Request) (a : Nat × Nat × WindowField) (s : State) : State :=
  match ordIndex a.1, tempOfCode a.2.1 with
  | some q, some t =>
    if badWindow a.2.2 then answer r .range s
    else
      match s.wall.pos[q].record with
      | none => answer r (.reject .position) s
      | some x =>
        if s.wall.pos[q].state.holds = false then answer r (.reject .position) s
        else if cycleServes q t s then answer r .busy s
        else
          let w := storeWindow x.count a.2.2
          let s1 := modRec q (fun x => { x with windows := x.windows.set t w, full := x.full.set t false }) s
          wallChanged (answer r
            (if x.count < a.2.2.count then .clamped (.window w) else .ok (.window w)) s1)
  | _, _ => answer r .range s

/-- Whether the lit cycle targets compartment `j` of a position (R72). -/
def cycleTargets (q : Fin 12) (j : Nat) (s : State) : Bool :=
  match s.put.cycle with
  | none => false
  | some c => decide (c.tgt = q) && decide (c.comp = j)

/-- Execute a WALL-SHUT (R72). Without a record there is no compartment count, and the state decides (DEDUCED, log entry
22). -/
def ownWallShut (r : Request) (a : Nat × Nat) (s : State) : State :=
  match ordIndex a.1 with
  | none => answer r .range s
  | some q =>
    match s.wall.pos[q].record with
    | none => answer r (.reject .state) s
    | some x =>
      match x.comps[a.2]? with
      | none => answer r .range s
      | some c =>
        if s.wall.pos[q].state.holds = false then answer r (.reject .state) s
        else if cycleTargets q a.2 s then answer r .busy s
        else if c.shut then answer r (.ok .none) s
        else
          wallChanged (answer r (.ok .none) (modRec q (fun x => { x with
            comps := x.comps.modify a.2 fun c => { c with shut := true }
            full := ⟨false, false, false⟩ }) s))

/-- Execute a WALL-REBASE (R71). -/
def ownWallRebase (r : Request) (n : Nat) (s : State) : State :=
  match ordIndex n with
  | none => answer r .range s
  | some q =>
    if isTarget q s then answer r .busy s
    else if s.wall.pos[q].state ≠ .active then answer r (.reject .state) s
    else
      match s.wall.pos[q].latest with
      | some (.grams g) =>
        let wasDisturbed := s.wall.pos[q].record.any fun x => x.cond != .clean
        let s1 := modRec q (fun x => { x with baseline := some g }) s
        if wasDisturbed then
          wallChanged (answer r (.ok (.baseline g)) (cleanRecord q (notifyWall q (.clean (.grams g) g) s1)))
        else answer r (.ok (.baseline g)) s1
      | _ => answer r (.reject .overload) s

/-- An order position that is LEAVING: its leave timer started, the remove light off, the id read absent and the misput
mark of its record cleared (R70, R73). -/
def OrdPos.leave (time : Nat) (x : OrdPos) : OrdPos :=
  { x with
    state := .leaving, leaveT := some time, removeLight := false, idRead := none
    record := x.record.map fun r => { r with misput := false } }

/-- Order out the tote of an ARRIVED, ACTIVE or OCCUPIED-UNREGISTERED position: the notice RELEASED, the exit order, and a
dark order when the remove light was on (R73). -/
def releaseOrd (q : Fin 12) (s : State) : State :=
  let lit := s.wall.pos[q].removeLight
  let s1 := modOrd q (OrdPos.leave (s.prof.profile.leaveTimeout * 10)) (notifyReleased q false s)
  let s2 := exitOrd q s1
  if lit then handOrder (.ord q) (.light .all .dark) s2 else s2

/-- Execute a WALL-RELEASE (R73). For an EXPECTED record at a position kept at or above the order count the WALL notice
RELEASED stands before the POSITION notice CLOSED (DESIGN CHOICE, log entry 35). -/
def ownWallRelease (r : Request) (n : Nat) (s : State) : State :=
  match ordIndex n with
  | none => answer r .range s
  | some q =>
    match s.wall.pos[q].state with
    | .closed => answer r (.reject .position) s
    | .faulted => answer r (.reject .position) s
    | .empty => answer r (.reject .state) s
    | .leaving => answer r (.ok .none) s
    | .settling => answer r (.ok .none) s
    | .expected => wallChanged (answer r (.ok .none) (emptyOrd q (notifyReleased q false s)))
    | .occupied => answer r (.ok .none) (releaseOrd q s)
    | _ => if isTarget q s then answer r .busy s else wallChanged (answer r (.ok .none) (releaseOrd q s))

/-! ## Opening and closing positions -/

/-- Execute a POS-CLOSE (R39). -/
def ownPosClose (r : Request) (n : Nat) (s : State) : State :=
  match srcIndex n with
  | none => answer r .range s
  | some p =>
    if s.prof.profile.sourceCount ≤ n then answer r .range s
    else
      match s.src[p].state with
      | .opn =>
        if s.src[p].bothEmpty then answer r (.ok (.sourceState .closed)) (judgeDrain (closeSrc p s))
        else answer r (.ok (.sourceState .closing)) (notifySrc p (modSrc p (SrcPos.putState .closing) s))
      | .closing => answer r (.ok (.sourceState .closing)) s
      | .closed => answer r (.ok (.sourceState .closed)) s
      | .faulted => answer r (.ok (.sourceState .closed)) (judgeDrain (closeSrc p s))

/-- Hold the execution of a request for an operation (R164). -/
def holdFor (r : Request) (j : HeldJob) (s : State) : State :=
  { s with link := { s.link with held := some { req := r, job := j } } }

/-- Execute a POS-OPEN (R41). -/
def ownPosOpen (r : Request) (n : Nat) (s : State) : State :=
  match srcIndex n with
  | none => answer r .range s
  | some p =>
    if s.prof.profile.sourceCount ≤ n then answer r .range s
    else
      match s.src[p].state with
      | .opn => answer r (.ok (.sourceState .opn)) s
      | .closing => arbitrate (answer r (.ok (.sourceState .opn))
          (notifySrc p (modSrc p (SrcPos.putState .opn) s)))
      | _ => beginSurvey (.src p) (holdFor r (.openSource p) s)

/-- Execute a POS-OPEN-ORDER (R76, R161, R162). -/
def ownPosOpenOrder (r : Request) (n : Nat) (s : State) : State :=
  match ordIndex n with
  | none => answer r .range s
  | some q =>
    if s.prof.profile.orderCount ≤ n then answer r .range s
    else
      match s.wall.pos[q].state with
      | .closed => beginSurvey (.ord q) (holdFor r (.openOrder q) s)
      | .faulted => beginSurvey (.ord q) (holdFor r (.openOrder q) s)
      | st => answer r (.ok (.orderState st)) s

/-- Close a FAULTED order position: a record held there is deleted with a WALL notice RELEASED marked FAULT (R76), which
stands before the POSITION notice (DESIGN CHOICE, log entry 35). -/
def closeFaultedOrd (q : Fin 12) (s : State) : State :=
  closeOrd q (if s.wall.pos[q].record.isSome then notifyReleased q true s else s)

/-- Execute a POS-CLOSE-ORDER (R76). -/
def ownPosCloseOrder (r : Request) (n : Nat) (s : State) : State :=
  match ordIndex n with
  | none => answer r .range s
  | some q =>
    if s.prof.profile.orderCount ≤ n then answer r .range s
    else
      match s.wall.pos[q].state with
      | .closed => answer r (.ok .none) s
      | .empty => answer r (.ok .none) (closeOrd q s)
      | .faulted => answer r (.ok .none) (closeFaultedOrd q s)
      | _ => answer r .busy s

/-! ## The commands -/

/-- WALL_ADD (R64). -/
def execWallAdd (s : State) : Host.Outcome State Fault Refusal :=
  live (runRequest .wallAdd (fun s => readWallAdd s.prof.profile.compartments) ownWallAdd) s

/-- WALL_URGE (R66). -/
def execWallUrge (s : State) : Host.Outcome State Fault Refusal :=
  live (runRequest .wallUrge (fun _ => readUrge) ownWallUrge) s

/-- WALL_WINDOW (R67). -/
def execWallWindow (s : State) : Host.Outcome State Fault Refusal :=
  live (runRequest .wallWindow (fun _ => readWindow) ownWallWindow) s

/-- WALL_SHUT (R72). -/
def execWallShut (s : State) : Host.Outcome State Fault Refusal :=
  live (runRequest .wallShut (fun _ => readShut) ownWallShut) s

/-- WALL_REBASE (R71). -/
def execWallRebase (s : State) : Host.Outcome State Fault Refusal :=
  live (runRequest .wallRebase (fun _ => readPos) ownWallRebase) s

/-- WALL_RELEASE (R73). -/
def execWallRelease (s : State) : Host.Outcome State Fault Refusal :=
  live (runRequest .wallRelease (fun _ => readPos) ownWallRelease) s

/-- POS_OPEN (R41). -/
def execPosOpen (s : State) : Host.Outcome State Fault Refusal :=
  live (runRequest .posOpen (fun _ => readPos) ownPosOpen) s

/-- POS_CLOSE (R39). -/
def execPosClose (s : State) : Host.Outcome State Fault Refusal :=
  live (runRequest .posClose (fun _ => readPos) ownPosClose) s

/-- POS_OPEN_ORDER (R161). -/
def execPosOpenOrder (s : State) : Host.Outcome State Fault Refusal :=
  live (runRequest .posOpenOrder (fun _ => readPos) ownPosOpenOrder) s

/-- POS_CLOSE_ORDER (R76). -/
def execPosCloseOrder (s : State) : Host.Outcome State Fault Refusal :=
  live (runRequest .posCloseOrder (fun _ => readPos) ownPosCloseOrder) s

end Sys2Proof.Machine
end

