-- ==== Sys2Proof/Machine/Profile.lean ====
section
/-!
DEFINITION. The profile store (chapter 09): PROFILE-SET, PROFILE-GET, PROFILE-STORE, LOCK-SHIFT and the completion of a
store.
-/
namespace Sys2Proof.Machine

/-- Set the profile store. -/
def setProf (x : ProfileStore) (s : State) : State := { s with prof := x }

/-- Replace the volatile profile. -/
def setProfile (p : Profile) (s : State) : State := { s with prof := { s.prof with profile := p } }

/-- A source position follows a lowering of the source count from `old` (R42): it comes to be at or above the count. -/
def followSourceCount (old : Nat) (s : State) (p : Fin 4) : State :=
  if s.prof.profile.sourceCount ≤ p.val ∧ p.val < old then
    match s.src[p].state with
    | .closed => s
    | .faulted => closeSrc p s
    | .closing => s
    | .opn =>
      if s.src[p].bothEmpty then closeSrc p s else notifySrc p (modSrc p (SrcPos.putState .closing) s)
  else s

/-- A source position follows a change of its lane depth (R42). -/
def followDepth (s : State) (p : Fin 4) : State :=
  modSrc p (fun x => x.synced s.prof.profile.laneDepth[p]) s

/-- An order position follows a lowering of the order count from `old`; a raising and an equal value close nothing
(R76). -/
def followOrderCount (old : Nat) (s : State) (q : Fin 12) : State :=
  if s.prof.profile.orderCount < old ∧ s.prof.profile.orderCount ≤ q.val then
    match s.wall.pos[q].state with
    | .empty => closeOrd q s
    | .faulted => closeFaultedOrd q s
    | _ => s
  else s

/-- The warning flag of every cold offer is judged afresh (R121). -/
def judgeAllWarnings (s : State) : State :=
  { s with offers := s.offers.map fun o =>
      { o with exposure := o.exposure.map fun e => e.judged s.prof.profile.warningMargin } }

/-- Hand a changed field to the blocks that read it (R148); `old` is the profile before the setting. The positions that a
lowered count reaches are gone through in ascending index, which orders their POSITION notices (DESIGN CHOICE, log entry
31). -/
def handChange (f : ProfileField) (old : Profile) (s : State) : State :=
  match f with
  | .ladder => arbitrate (setLadder s.prof.profile.ladder s)
  | .rotate => arbitrate s
  | .coldAlternation => arbitrate s
  | .coldCapable => arbitrate s
  | .travelCharge => arbitrate s
  | .minDwell => arbitrate s
  | .callTimeout => arbitrate s
  | .sourceCount => arbitrate (judgeDrain (srcIndices.foldl (followSourceCount old.sourceCount) s))
  | .laneDepth => arbitrate (srcIndices.foldl followDepth s)
  | .orderCount => ordIndices.foldl (followOrderCount old.orderCount) s
  | .compartments => judgeOrphans s
  | .weightCap => judgeOrphans s
  | .volumeCap => judgeOrphans s
  | .warningMargin => judgeAllWarnings s
  | _ => s

/-- Execute a PROFILE-SET: the checks of R146 in order, then the setting and its hand-over, then the reply (R147,
R148). -/
def ownProfileSet (r : Request) (a : Option ProfileField × List Byte) (s : State) : State :=
  if s.prof.storing then answer r .busy s
  else if lockDenies s.prof.effLock s.inputs.key then answer r .denied s
  else
    match a.1 with
    | none => answer r .range s
    | some f =>
      if f.drained ∧ (s.bench.mode = .service ∨ s.bench.mode = .draining) then answer r .busy s
      else
        match f.store a.2 s.prof.profile with
        | none => answer r .range s
        | some (p, clamped) =>
          let v := Content.profileValue (f.read p)
          answer r (if clamped then .clamped v else .ok v) (handChange f s.prof.profile (setProfile p s))

/-- The content of a PROFILE-GET reply (R149). -/
def profileReport (fs : List ProfileField) (s : State) : ProfileReport :=
  { values := fs.map fun f => f.read s.prof.profile
    loaded := s.prof.loaded
    imageValid := s.prof.imageValid
    storedLock := s.prof.storedLock
    effLock := s.prof.effLock
    shift := s.prof.shift
    storing := s.prof.storing
    key := s.inputs.key }

/-- Execute a PROFILE-GET (R149). -/
def ownProfileGet (r : Request) (a : Option Nat) (s : State) : State :=
  match a with
  | none => answer r (.ok (.profile (profileReport profileFields s))) s
  | some i =>
    match profileFields[i]? with
    | none => answer r .range s
    | some f => answer r (.ok (.profile (profileReport [f] s))) s

/-- The profile store once a store has begun (R150). -/
def ProfileStore.stored (x : ProfileStore) : ProfileStore :=
  { x with image := x.profile, check := x.profile.check, imageValid := false, storing := true }

/-- Execute a PROFILE-STORE (R150): the volatile profile goes into the image with its check, and the image is INVALID
while the store lasts. -/
def ownProfileStore (r : Request) (_ : Unit) (s : State) : State :=
  if s.prof.storing then answer r .busy s
  else if lockDenies s.prof.effLock s.inputs.key then answer r .denied s
  else answer r (.ok .none) (setProf s.prof.stored s)

/-- Execute a LOCK-SHIFT (R153). -/
def ownLockShift (r : Request) (_ : Unit) (s : State) : State :=
  if s.prof.storing then answer r .busy s
  else
    let e := effectiveLock s.prof.storedLock true
    answer r (.ok (.lock e)) (setProf { s.prof with shift := true, effLock := e } s)

/-- The profile store at the completion of a store (R151). What the image memory holds after a FAILED store is a free
value (log entry 39). -/
def ProfileStore.completed (o : StoreOutcome) (x : ProfileStore) : ProfileStore :=
  match o with
  | .ok =>
    { x with
      imageValid := true, storedLock := x.image.lock, storing := false
      effLock := effectiveLock x.image.lock x.shift }
  | .failed =>
    { x with
      image := spoiledImage x.spoiled x.profile, check := failedCheck x.spoiled x.profile, spoiled := x.spoiled + 1
      imageValid := false, storing := false, effLock := effectiveLock x.storedLock x.shift }

/-- The completion of a store, with its STORED notice (R151). -/
def completeStore (o : StoreOutcome) (s : State) : State :=
  if s.prof.storing then
    let x := s.prof.completed o
    notify (.stored o x.storedLock x.effLock) (setProf x s)
  else s

/-! ## The commands -/

/-- PROFILE_SET (R146). -/
def execProfileSet (s : State) : Host.Outcome State Fault Refusal :=
  live (runRequest .profileSet (fun _ => readProfileSet) ownProfileSet) s

/-- PROFILE_GET (R149). -/
def execProfileGet (s : State) : Host.Outcome State Fault Refusal :=
  live (runRequest .profileGet (fun _ => readProfileGet) ownProfileGet) s

/-- PROFILE_STORE (R150). -/
def execProfileStore (s : State) : Host.Outcome State Fault Refusal :=
  live (runRequest .profileStore (fun _ => readNone) ownProfileStore) s

/-- LOCK_SHIFT (R153). -/
def execLockShift (s : State) : Host.Outcome State Fault Refusal :=
  live (runRequest .lockShift (fun _ => readNone) ownLockShift) s

/-- STORE_COMPLETION (R151). -/
def execStoreCompletion (outcome : StoreOutcome) (s : State) : Host.Outcome State Fault Refusal :=
  live (completeStore outcome) s

end Sys2Proof.Machine
end

