-- ==== Sys2Proof/Machine/BenchRequests.lean ====
section
/-!
DEFINITION. The bench mode control's requests BENCH-START, BENCH-DRAIN and RESTART (R138, R139, R141), and QUERY in its
four forms (R169).
-/
namespace Sys2Proof.Machine

/-- Execute a BENCH-START (R138). -/
def ownBenchStart (r : Request) (_ : Unit) (s : State) : State :=
  if s.bench.mode = .service ∨ s.bench.mode = .draining then answer r .mode s
  else if srcIndices.all (fun p => s.src[p].state != .opn) then answer r (.reject .noPosition) s
  else if s.prof.storing then answer r .busy s
  else attempt (arbitrate (answer r (.ok .none) (setMode .service s)))

/-- Execute a BENCH-DRAIN (R139); the change to DRAINING asks for an attempt (R82). -/
def ownBenchDrain (r : Request) (_ : Unit) (s : State) : State :=
  match s.bench.mode with
  | .service => attempt (answer r (.ok .none) (judgeDrain (setMode .draining s)))
  | m => answer r (.ok (.benchMode m)) s

/-- Execute a RESTART (R141): the reply OK is queued, and execution is held until it has been sent. -/
def ownRestart (r : Request) (_ : Unit) (s : State) : State := holdFor r .restart (answer r (.ok .none) s)

/-! ## QUERY (R169) -/

/-- The content of a QUERY BENCH reply (R169). -/
def benchReport (s : State) : BenchReport :=
  { mode := s.bench.mode
    picker := s.picker.cond
    idleLeft := s.picker.idleT
    clock := s.bench.clock
    loaded := s.prof.loaded
    lost := s.link.lost
    offers := s.offers.length
    inbox := s.link.inbox.length
    notices := noticeCount s
    ladder := s.arb.ladder
    lastCold := s.arb.lastCold
    cycle := s.put.cycle
    graceLeft := s.put.graceT
    lastServed := s.put.lastServed }

/-- The content of a QUERY POSITION reply for a source position (R22, R169). -/
def sourceReport (x : SrcPos) : SourceReport :=
  { state := x.state
    cause := x.cause
    slots := if x.state = .opn ∨ x.state = .closing then some (x.face, x.lane) else none }

/-- The content of a QUERY POSITION reply for an order position (R169). -/
def orderReport (x : OrdPos) : OrderReport :=
  { state := x.state, cause := x.cause, latest := x.latest, leaveT := x.leaveT, settleT := x.settleT,
    removeLight := x.removeLight, record := x.record }

/-- The content of a QUERY OFFER reply for the record in a place of the list, counted from 1 (R1, R169). -/
def offerReport (index : Nat) (o : Offer) : OfferReport :=
  { index := index
    tote := o.tote
    temp := o.temp
    exposure := o.exposure.map fun e =>
      { budget := e.budget, used := e.used / 10, remaining := e.remaining / 10, warning := e.warning,
        counted := o.counted }
    lines := o.lines
    state := o.state
    place := o.place
    lapses := o.lapses
    ret := o.ret
    presented := o.presented
    reason := o.reason
    summary := o.summary }

/-- The place in the list of the record that carries a tote id, counted from 1 (R1). -/
def placeOf (t : Nat) (s : State) : Nat := (s.offers.findIdx fun x => x.tote == t) + 1

/-- The records that hold an order ref, in registration order, with their positions (R169). -/
def recordsOf (ref : Nat) (s : State) : List (Fin 12 × Rec) :=
  (ordIndices.filterMap fun q => (s.wall.pos[q].record.filter fun r => r.ref == ref).map fun r => (q, r)).foldr
    insertBySeq []

/-- The argument of a QUERY after its form byte (log entry 5). -/
inductive QueryArg where
  | bench
  | badForm
  | position (side number : Nat)
  | id (n : Nat)
  deriving DecidableEq, Repr

/-- Read a QUERY body: the form, then the argument (R169, log entries 5 and 6). -/
def readQuery (bs : List Byte) : Option QueryArg :=
  match bs with
  | [] => none
  | f :: rest =>
    if f = 0 then some .bench
    else if f = 1 then
      (match rest with
        | side :: n :: _ => some (.position side.toNat n.toNat)
        | _ => none)
    else if f = 2 ∨ f = 3 then (readId rest).map .id
    else some .badForm

/-- Clear the lost flag (R168). -/
def clearLost (s : State) : State := { s with link := { s.link with lost := false } }

/-- Execute a QUERY BENCH: the reply reports the lost flag, which is then clear (R168, R169). A form that does not
exist is answered RANGE (log entry 6). -/
def ownQueryBench (r : Request) (a : QueryArg) (s : State) : State :=
  match a with
  | .bench => answer r (.ok (.bench (benchReport s))) (clearLost s)
  | _ => answer r .range s

/-- Execute a QUERY POSITION (R169); a side other than SOURCE and ORDER is answered RANGE (log entry 6). -/
def ownQueryPosition (r : Request) (a : QueryArg) (s : State) : State :=
  match a with
  | .position 0 n =>
    match srcIndex n with
    | none => answer r .range s
    | some p => answer r (.ok (.source (sourceReport s.src[p]))) s
  | .position 1 n =>
    match ordIndex n with
    | none => answer r .range s
    | some q => answer r (.ok (.order (orderReport s.wall.pos[q]))) s
  | _ => answer r .range s

/-- Execute a QUERY OFFER (R169). -/
def ownQueryOffer (r : Request) (a : QueryArg) (s : State) : State :=
  match a with
  | .id t =>
    match findOffer t s with
    | none => answer r .notFound s
    | some o => answer r (.ok (.offer (offerReport (placeOf t s) o))) s
  | _ => answer r .range s

/-- Execute a QUERY ORDER (R169). -/
def ownQueryOrder (r : Request) (a : QueryArg) (s : State) : State :=
  match a with
  | .id ref =>
    match recordsOf ref s with
    | [] => answer r .notFound s
    | x :: xs => answer r (.ok (.records ((x :: xs).map fun y => (y.1, s.wall.pos[y.1].state, y.2)))) s
  | _ => answer r .range s

/-! ## The commands -/

/-- BENCH_START (R138). -/
def execBenchStart (s : State) : Host.Outcome State Fault Refusal :=
  live (runRequest .benchStart (fun _ => readNone) ownBenchStart) s

/-- BENCH_DRAIN (R139). -/
def execBenchDrain (s : State) : Host.Outcome State Fault Refusal :=
  live (runRequest .benchDrain (fun _ => readNone) ownBenchDrain) s

/-- RESTART (R141). -/
def execRestart (s : State) : Host.Outcome State Fault Refusal :=
  live (runRequest .restart (fun _ => readNone) ownRestart) s

/-- QUERY_BENCH (R169). -/
def execQueryBench (s : State) : Host.Outcome State Fault Refusal :=
  live (runRequest .queryBench (fun _ => readQuery) ownQueryBench) s

/-- QUERY_POSITION (R169). -/
def execQueryPosition (s : State) : Host.Outcome State Fault Refusal :=
  live (runRequest .queryPosition (fun _ => readQuery) ownQueryPosition) s

/-- QUERY_OFFER (R169). -/
def execQueryOffer (s : State) : Host.Outcome State Fault Refusal :=
  live (runRequest .queryOffer (fun _ => readQuery) ownQueryOffer) s

/-- QUERY_ORDER (R169). -/
def execQueryOrder (s : State) : Host.Outcome State Fault Refusal :=
  live (runRequest .queryOrder (fun _ => readQuery) ownQueryOrder) s

end Sys2Proof.Machine
end

