-- ==== Sys2Proof/Machine/Tick.lean ====
section
/-!
DEFINITION. The passing of time, which the command table has no row for (log entry 1): what one tenth of a second does
to the clock, the timers and the exposure figures, and which commands of the table the part itself has then come to.
-/
namespace Sys2Proof.Machine

/-- A running timer after one tenth; a stopped one stays stopped (R23). -/
def timerTick (t : Option Nat) : Option Nat := t.map fun n => n - 1

/-- The bench clock after one tenth: it holds its greatest value (R136). -/
def clockTick (n : Nat) : Nat := if n < Config.clockMax then n + 1 else n

/-- The timers of a source position after one tenth (R23, R142). -/
def SrcPos.tick (x : SrcPos) : SrcPos :=
  { x with
    face := { x.face with
      callT := timerTick x.face.callT
      leaveT := timerTick x.face.leaveT
      settleT := timerTick x.face.settleT
      orphanT := timerTick x.face.orphanT }
    lane := { x.lane with callT := timerTick x.lane.callT, leaveT := timerTick x.lane.leaveT }
    surveyT := timerTick x.surveyT }

/-- The timers of an order position after one tenth (R60, R142). -/
def OrdPos.tick (x : OrdPos) : OrdPos :=
  { x with leaveT := timerTick x.leaveT, settleT := timerTick x.settleT, surveyT := timerTick x.surveyT }

/-- A field line after one tenth (R158). -/
def FieldLine.tick (l : FieldLine) : FieldLine := { l with ackT := timerTick l.ackT }

/-- An offer after one tenth: its exposure used grows while it is counted (R119). -/
def Offer.tick (o : Offer) : Offer :=
  if o.counted then { o with exposure := o.exposure.map fun e => { e with used := e.used + 1 } } else o

/-- One tenth of a second passes. -/
def tick (s : State) : State :=
  let s1 := { s with
    bench := { s.bench with clock := clockTick s.bench.clock }
    offers := s.offers.map Offer.tick
    put := { s.put with graceT := timerTick s.put.graceT }
    picker := { s.picker with idleT := timerTick s.picker.idleT } }
  let s2 := srcIndices.foldl (fun s p => modSrc p SrcPos.tick s) s1
  let s3 := ordIndices.foldl (fun s q => modOrd q OrdPos.tick s) s2
  lineIndices.foldl (fun s i => modLine i FieldLine.tick s) s3

/-! ## The commands that have come due -/

/-- A command, when its timer stands at 0. -/
def dueAt (t : Option Nat) (c : Instr) : List Instr := if t = some 0 then [c] else []

/-- The expiries due at a source position. -/
def dueSrc (s : State) (p : Fin 4) : List Instr :=
  let x := s.src[p]
  dueAt x.face.callT (.lapse p .face) ++ dueAt x.lane.callT (.lapse p .lane) ++ dueAt x.face.leaveT (.jam p .face) ++
    dueAt x.lane.leaveT (.jam p .lane) ++ dueAt x.face.settleT (.settleTimerExpiry p) ++
    dueAt x.face.orphanT (.orphanTimerExpiry p) ++ dueAt x.surveyT (.surveyTimerExpiry (.src p)) ++
    dueAt s.lines[lineOf (.src p)].ackT (.ackTimerExpiry (.src p))

/-- The expiries due at an order position. -/
def dueOrd (s : State) (q : Fin 12) : List Instr :=
  let x := s.wall.pos[q]
  dueAt x.leaveT (.orderLeaveTimerExpiry q) ++ dueAt x.settleT (.orderSettleTimerExpiry q) ++
    dueAt x.surveyT (.surveyTimerExpiry (.ord q)) ++ dueAt s.lines[lineOf (.ord q)].ackT (.ackTimerExpiry (.ord q))

/-- Whether the warning flag of an offer has come to be set (R121): in any state, so that the flag is judged although
another event of the same moment was taken first and returned the offer to WAITING. -/
def Offer.warningDue (o : Offer) (margin : Nat) : Bool :=
  o.exposure.any fun e => !e.warning && decide (e.remaining ≤ margin * 10)

/-- Whether an expiry with no exposure left is still to be acted on (R122): not once the tote is LEAVING, its release
held, or its put grace running. -/
def expiryDue (s : State) (o : Offer) : Bool :=
  (o.exposure.any fun e => e.remaining == 0) &&
    match o.state, o.place with
    | .present, some (p, _) => !(isLitSource p s && s.put.cycle.any fun c => c.grace)
    | .staged, some (p, .face) => s.src[p].face.held.isNone
    | .staged, some (_, .lane) => true
    | _, _ => false

/-- The judgement of the warning flag, when it is due for an offer (R121). -/
def dueWarning (s : State) (o : Offer) : List Instr :=
  if o.warningDue s.prof.profile.warningMargin then [.warningMarginReached o.tote] else []

/-- The expiry of an offer's exposure, when it is due (R122). -/
def dueExpiry (s : State) (o : Offer) : List Instr := if expiryDue s o then [.exposureExpiry o.tote] else []

/-- The request whose execution may begin, as the row that executes it (R164). -/
def dueRequest (s : State) : List Instr :=
  if mayExecute s then s.link.inbox.head?.toList.map rowOf else []

/-- Every command the part has come to of itself, in a fixed order (DESIGN CHOICE, log entry 1): the warning flags, the
expiries of the source positions, of the order positions, the exposure expiries, the idle timer, put grace, the next
request. -/
def due (s : State) : List Instr :=
  s.offers.flatMap (dueWarning s) ++ srcIndices.flatMap (dueSrc s) ++ ordIndices.flatMap (dueOrd s) ++
    s.offers.flatMap (dueExpiry s) ++ dueAt s.picker.idleT .idleTimerExpiry ++
    dueAt s.put.graceT .putGraceTimerExpiry ++ dueRequest s

/-- What the part does when no command waits (log entry 1): nothing while RESET is on (R140); else it comes to the
first command that is due; else one tenth of a second passes. -/
def idle (s : State) : State :=
  if s.inputs.reset then s
  else
    match due s with
    | c :: _ => { s with pending := [c] }
    | [] => tick s

end Sys2Proof.Machine
end

