-- ==== Sys2Proof/Machine/Dispatch.lean ====
section
/-!
DEFINITION. The dispatch: one arm for each command, each one call of its meaning.
-/
namespace Sys2Proof.Machine

/-- The effect of a command on the state, apart from the queue. -/
def exec (i : Instr) (s : State) : Host.Outcome State Fault Refusal :=
  match i with
  | .powerUp => Sys2Proof.Machine.execPowerUp s
  | .resetLine => Sys2Proof.Machine.execResetLine s
  | .holdOn => Sys2Proof.Machine.execHoldOn s
  | .holdOff => Sys2Proof.Machine.execHoldOff s
  | .keyInputChange level => Sys2Proof.Machine.execKeyInputChange level s
  | .frameReceived bytes => Sys2Proof.Machine.execFrameReceived bytes s
  | .byteGapTimeout next => Sys2Proof.Machine.execByteGapTimeout next s
  | .frameSent => Sys2Proof.Machine.execFrameSent s
  | .unknownRequest => Sys2Proof.Machine.execUnknownRequest s
  | .offer => Sys2Proof.Machine.execOffer s
  | .recall => Sys2Proof.Machine.execRecall s
  | .wallAdd => Sys2Proof.Machine.execWallAdd s
  | .wallUrge => Sys2Proof.Machine.execWallUrge s
  | .wallWindow => Sys2Proof.Machine.execWallWindow s
  | .wallShut => Sys2Proof.Machine.execWallShut s
  | .wallRebase => Sys2Proof.Machine.execWallRebase s
  | .wallRelease => Sys2Proof.Machine.execWallRelease s
  | .posOpen => Sys2Proof.Machine.execPosOpen s
  | .posClose => Sys2Proof.Machine.execPosClose s
  | .posOpenOrder => Sys2Proof.Machine.execPosOpenOrder s
  | .posCloseOrder => Sys2Proof.Machine.execPosCloseOrder s
  | .benchStart => Sys2Proof.Machine.execBenchStart s
  | .benchDrain => Sys2Proof.Machine.execBenchDrain s
  | .restart => Sys2Proof.Machine.execRestart s
  | .profileSet => Sys2Proof.Machine.execProfileSet s
  | .profileGet => Sys2Proof.Machine.execProfileGet s
  | .profileStore => Sys2Proof.Machine.execProfileStore s
  | .lockShift => Sys2Proof.Machine.execLockShift s
  | .queryBench => Sys2Proof.Machine.execQueryBench s
  | .queryPosition => Sys2Proof.Machine.execQueryPosition s
  | .queryOffer => Sys2Proof.Machine.execQueryOffer s
  | .queryOrder => Sys2Proof.Machine.execQueryOrder s
  | .storeCompletion outcome => Sys2Proof.Machine.execStoreCompletion outcome s
  | .sourceArrived p slot id => Sys2Proof.Machine.execSourceArrived p slot id s
  | .sourceDeparted p slot => Sys2Proof.Machine.execSourceDeparted p slot s
  | .orderArrived q slot id => Sys2Proof.Machine.execOrderArrived q slot id s
  | .orderDeparted q slot => Sys2Proof.Machine.execOrderDeparted q slot s
  | .stable pos g => Sys2Proof.Machine.execStable pos g s
  | .keyShort pos => Sys2Proof.Machine.execKeyShort pos s
  | .keyButton pos button => Sys2Proof.Machine.execKeyButton pos button s
  | .faultReport pos cause => Sys2Proof.Machine.execFaultReport pos cause s
  | .surveyAnswer pos answer => Sys2Proof.Machine.execSurveyAnswer pos answer s
  | .ack pos seq => Sys2Proof.Machine.execAck pos seq s
  | .ackTimerExpiry pos => Sys2Proof.Machine.execAckTimerExpiry pos s
  | .surveyTimerExpiry pos => Sys2Proof.Machine.execSurveyTimerExpiry pos s
  | .lapse p slot => Sys2Proof.Machine.execLapse p slot s
  | .jam p slot => Sys2Proof.Machine.execJam p slot s
  | .settleTimerExpiry p => Sys2Proof.Machine.execSettleTimerExpiry p s
  | .orphanTimerExpiry p => Sys2Proof.Machine.execOrphanTimerExpiry p s
  | .orderLeaveTimerExpiry q => Sys2Proof.Machine.execOrderLeaveTimerExpiry q s
  | .orderSettleTimerExpiry q => Sys2Proof.Machine.execOrderSettleTimerExpiry q s
  | .idleTimerExpiry => Sys2Proof.Machine.execIdleTimerExpiry s
  | .warningMarginReached tote => Sys2Proof.Machine.execWarningMarginReached tote s
  | .exposureExpiry tote => Sys2Proof.Machine.execExposureExpiry tote s
  | .putGraceTimerExpiry => Sys2Proof.Machine.execPutGraceTimerExpiry s
  | .resetOn => Sys2Proof.Machine.execResetOn s
  | .badLength lo hi => Sys2Proof.Machine.execBadLength lo hi s

end Sys2Proof.Machine
end

