-- ==== Sys2Proof/Safety.lean ====
section
/-!
DEFINITION. What the manual says is true of the part at every moment: the properties a safe run keeps.
-/
namespace Sys2Proof.Machine

/-! ## The queues of the control link (R164, R166, R168) -/

/-- The inbox holds at most four requests, the outbound queue at most 64 notices, and its replies, with the entry
reserved for the request in execution, at most four. -/
def State.queuesOk (s : State) : Prop :=
  s.link.inbox.length ≤ Config.inboxCapacity ∧ noticeCount s ≤ Config.noticeCapacity ∧
    replyCount s + reserved s ≤ Config.replyEntries

/-! ## The offer list (R1) -/

/-- The offer list holds at most 32 records, and no two carry the same tote id. -/
def State.offersOk (s : State) : Prop :=
  s.offers.length ≤ Config.offerCapacity ∧ (s.offers.map fun o => o.tote).Nodup

/-! ## The slots of a source position (R22, R23) -/

/-- The table of R22: the lane is non-empty only while the face is PRESENT, LEAVING or SETTLING. -/
def slotTable (f : FaceState) (l : LaneState) : Bool :=
  match f, l with
  | _, .empty => true
  | .present, _ => true
  | .leaving, _ => true
  | .settling, _ => true
  | _, _ => false

/-- The timers of a face run only in the states of R23, and a release is held only while it is ADVANCING. -/
def Face.timersOk (f : Face) : Bool :=
  (f.callT.isNone || f.state == .called || f.state == .advancing) && (f.leaveT.isNone || f.state == .leaving) &&
    (f.settleT.isNone || f.state == .settling) && (f.orphanT.isNone || f.state == .present) &&
    (f.held.isNone || f.state == .advancing)

/-- The timers of a lane run only in the states of R23. -/
def Lane.timersOk (l : Lane) : Bool :=
  (l.callT.isNone || l.state == .called) && (l.leaveT.isNone || l.state == .leaving)

/-- A face's call timer runs while it is CALLED or ADVANCING, its leave timer while it is LEAVING (R23); it names an offer
while it is CALLED, ADVANCING or PRESENT and none while it is EMPTY or SETTLING, and holds an id read only while it is
LEAVING without an offer (R22). -/
def Face.namesOk (f : Face) : Bool :=
  match f.state with
  | .empty => f.offer.isNone && f.idRead.isNone
  | .called => f.offer.isSome && f.idRead.isNone && f.callT.isSome
  | .advancing => f.offer.isSome && f.idRead.isNone && f.callT.isSome
  | .present => f.offer.isSome && f.idRead.isNone
  | .leaving => (f.offer.isNone || f.idRead.isNone) && f.leaveT.isSome
  | .settling => f.offer.isNone && f.idRead.isNone

/-- The same of a lane (R22, R23). -/
def Lane.namesOk (l : Lane) : Bool :=
  match l.state with
  | .empty => l.offer.isNone && l.idRead.isNone
  | .called => l.offer.isSome && l.idRead.isNone && l.callT.isSome
  | .staged => l.offer.isSome && l.idRead.isNone
  | .leaving => (l.offer.isNone || l.idRead.isNone) && l.leaveT.isSome

/-- A source position as R22 and R23 allow it: no slot states while it is CLOSED or FAULTED, the table of R22, an
EMPTY lane at lane depth 0, timers, offers named and held release in their states, a fault cause exactly while it is
FAULTED, a survey only while it is CLOSED or FAULTED (R41, R142). -/
def SrcPos.slotsOk (x : SrcPos) : Bool :=
  (x.cause.isSome == (x.state == .faulted)) && ((x.state != .closed && x.state != .faulted) || (x.face == {} && x.lane == {})) &&
    slotTable x.face.state x.lane.state && (x.depth != 0 || x.lane.state == .empty) && x.face.timersOk &&
    x.lane.timersOk && x.face.namesOk && x.lane.namesOk &&
    (x.surveyT.isNone || x.state == .closed || x.state == .faulted)

/-- Every source position is as R22 and R23 allow it. -/
def State.slotsOk (s : State) : Prop := ∀ p : Fin 4, s.src[p].slotsOk = true

/-- In DRAINED every face and lane is EMPTY (R139). -/
def State.drainedOk (s : State) : Prop := s.bench.mode = .drained → ∀ p : Fin 4, s.src[p].bothEmpty = true

/-- An offer in step with the slot that holds it: the table of R4, with the presentation time and the release reason
where R4 has them. -/
def Offer.inStep (o : Offer) (s : State) : Bool :=
  (o.reason.isSome == (o.state == .leaving)) && (o.state != .present || o.presented.isSome) &&
    (o.state == .present || o.state == .leaving || o.presented.isNone) &&
    match o.state, o.place with
    | .waiting, none => true
    | .called, some (p, .face) => s.src[p].face.state == .called && s.src[p].face.offer == some o.tote
    | .called, some (p, .lane) => s.src[p].lane.state == .called && s.src[p].lane.offer == some o.tote
    | .staged, some (p, .face) => s.src[p].face.state == .advancing && s.src[p].face.offer == some o.tote
    | .staged, some (p, .lane) => s.src[p].lane.state == .staged && s.src[p].lane.offer == some o.tote
    | .present, some (p, .face) => s.src[p].face.state == .present && s.src[p].face.offer == some o.tote
    | .leaving, some (p, .face) => s.src[p].face.state == .leaving && s.src[p].face.offer == some o.tote
    | .leaving, some (p, .lane) => s.src[p].lane.state == .leaving && s.src[p].lane.offer == some o.tote
    | _, _ => false

/-- Offers and slots are in step (R4), each slot names an offer of the list that is held there, and each offer is held
by at most one slot (R22). -/
def State.placesOk (s : State) : Prop :=
  (∀ o ∈ s.offers, o.inStep s = true) ∧
    (∀ (p : Fin 4) (sl : Slot) (t : Nat), s.src[p].named sl = some t →
      ∃ o ∈ s.offers, o.tote = t ∧ o.place = some (p, sl)) ∧
    ∀ (p p' : Fin 4) (sl sl' : Slot) (t : Nat), s.src[p].named sl = some t → s.src[p'].named sl' = some t →
      p = p' ∧ sl = sl'

/-! ## The timers that belong to the lit cycle (R124, R133) -/

/-- The idle timer runs only while a cycle exists and the picker is ACTIVE (R133), the put grace timer only while the
grace of the lit cycle runs (R124, R125). -/
def State.cycleTimersOk (s : State) : Prop :=
  (s.picker.idleT.isSome = true → s.put.cycle.isSome = true ∧ s.picker.cond = .active) ∧
    (s.put.graceT.isSome = true → (s.put.cycle.any fun c => c.grace) = true)

/-! ## The order positions (R60) -/

/-- An order position as R60 describes it: a record while it is EXPECTED, ARRIVED or ACTIVE and none while it is CLOSED,
EMPTY or OCCUPIED-UNREGISTERED; the id read, the timers, the remove light, the former state and the fault cause in
their states alone; a survey only while it is CLOSED or FAULTED (R142, R161). -/
def OrdPos.itemsOk (x : OrdPos) : Bool :=
  (!x.state.holds || x.record.isSome) &&
    ((x.state != .closed && x.state != .empty && x.state != .occupied) || x.record.isNone) &&
    (x.idRead.isNone || x.state == .occupied) && (x.leaveT.isNone || x.state == .leaving) &&
    (x.settleT.isNone || x.state == .settling) && (!x.removeLight || x.state == .active) &&
    (x.former.isNone || x.state == .faulted) && (x.cause.isSome == (x.state == .faulted)) &&
    (x.surveyT.isNone || x.state == .closed || x.state == .faulted)

/-- Every order position is as R60 describes it. -/
def State.wallOk (s : State) : Prop := ∀ q : Fin 12, s.wall.pos[q].itemsOk = true

/-- The charged weight and volume of every compartment lie within the caps of the record (R78), and a record has one to
six compartments (section 4.2). -/
def Rec.chargesOk (r : Rec) : Bool :=
  (r.comps.length == r.count) && decide (1 ≤ r.count) && decide (r.count ≤ 6) &&
    r.comps.all fun c => decide (c.weight ≤ r.weightCap) && decide (c.volume ≤ r.volumeCap)

/-- The records on the wall: no two with the same tote id, at most two with the same order ref (R62), charges within the
caps (R78), and a baseline at a position that is, or before its fault was, ACTIVE (section 4.2). -/
def State.recordsOk (s : State) : Prop :=
  (∀ (q q' : Fin 12) (r r' : Rec), s.wall.pos[q].record = some r → s.wall.pos[q'].record = some r' → r.tote = r'.tote →
      q = q') ∧
    (∀ r ∈ allRecords s, (allRecords s).countP (fun x => x.ref == r.ref) ≤ 2) ∧
    (∀ r ∈ allRecords s, r.chargesOk = true) ∧
    ∀ (q : Fin 12) (r : Rec), s.wall.pos[q].record = some r →
      s.wall.pos[q].state = .active ∨ s.wall.pos[q].former = some .active → r.baseline.isSome = true

/-! ## The lit cycle (section 5.2, R81, R84) -/

/-- The cycle record against what it names: n is at least 1 and the accepted count below it; the source face is PRESENT
with the offer, its orphan timer stopped; the line is OPEN and owes at least n units; the target is ACTIVE and CLEAN with
the line's order ref, its compartment not shut, with room left for the units not yet accepted and a place in the put
list. -/
def Cycle.serves (c : Cycle) (s : State) : Prop :=
  c.acc < c.n ∧ s.src[c.src].face.state = .present ∧ s.src[c.src].face.offer = some c.offer ∧
    s.src[c.src].face.orphanT = none ∧
    ∃ (o : Offer) (l : OLine) (r : Rec) (k : Comp), findOffer c.offer s = some o ∧ o.state = .present ∧
      o.lines[c.line]? = some l ∧ l.state = .opn ∧ c.n ≤ l.owed ∧ c.mode = l.mode ∧
      s.wall.pos[c.tgt].state = .active ∧ s.wall.pos[c.tgt].record = some r ∧ r.cond = .clean ∧ r.ref = l.ref ∧
      r.tote = c.tgtTote ∧ r.comps[c.comp]? = some k ∧ k.shut = false ∧
      k.weight + c.left * l.charge ≤ r.weightCap ∧ k.volume + c.left * l.volume ≤ r.volumeCap ∧
      l.barred c.tgtTote c.comp = false

/-- A cycle that exists serves what its record names. -/
def State.cycleOk (s : State) : Prop := ∀ c, s.put.cycle = some c → c.serves s

/-! ## The field lines (R157, R158) -/

/-- The acknowledgement timer of a line runs exactly while an order is outstanding (R158); order sequences lie in
0..255 (R157). -/
def FieldLine.ordersOk (l : FieldLine) : Bool :=
  (l.ackT.isSome == !l.orders.isEmpty) && decide (l.nextSeq < 256) && l.orders.all fun o => decide (o.seq < 256)

/-- Every field line is as R157 and R158 describe it. -/
def State.linesOk (s : State) : Prop := ∀ i : Fin 16, s.lines[i].ordersOk = true

/-- Whether an order is one that the line of a position carries (R157). -/
def Order.fits (pos : Pos) (o : Order) : Bool :=
  match pos, o with
  | .src _, .light .source _ => true
  | .src _, .gate .faceExit => true
  | .src _, .gate .laneExit => true
  | .src _, .gate .advance => true
  | .ord _, .light (.comp j) _ => decide (j < 6)
  | .ord _, .light .all _ => true
  | .ord _, .gate .exit => true
  | _, .survey => true
  | _, _ => false

/-- An order with what it shows disregarded: of each of these one order waits at most (R157). -/
def Order.target : Order → Order
  | .light d _ => .light d .dark
  | .gate g => .gate g
  | .survey => .survey

/-- The list of a line (R157): orders that the line carries, of each display, gate and SURVEY at most one waiting, at
most one SURVEY in all, and so ten orders at most. -/
def FieldLine.listOk (pos : Pos) (l : FieldLine) : Prop :=
  l.orders.length ≤ 10 ∧ (∀ o ∈ l.orders, o.order.fits pos = true) ∧
    (l.orders.tail.map fun o => o.order.target).Nodup ∧ l.orders.countP (fun o => o.order == .survey) ≤ 1

/-- Every line's list is as R157 has it, with a SURVEY order only while the position is surveyed. -/
def State.listsOk (s : State) : Prop :=
  ∀ pos : Pos, s.lines[lineOf pos].listOk pos ∧
    ∀ o ∈ s.lines[lineOf pos].orders, o.order = .survey → inSurvey pos s = true

/-- A survey is in progress only in the start-up survey, or at the position whose POS-OPEN or POS-OPEN-ORDER holds
execution (R142, R160, R164). -/
def State.surveysOk (s : State) : Prop :=
  ∀ pos : Pos, inSurvey pos s = true →
    s.bench.surveying = true ∨ ∃ x, s.link.held = some x ∧ x.job.waitsFor pos = true

/-! ## The bench profile (R145, R147, R152) -/

/-- Every numeric field of a profile lies in its range, each lane depth is 0 or 1, the ladder names each class once, and
the lock is OPEN, KEYED or FIXED (R145, R147). -/
def Profile.inRange (p : Profile) : Bool :=
  (profileFields.all fun f =>
    match f.range, f.read p with
    | some (lo, hi), .num n => decide (lo ≤ n) && decide (n ≤ hi)
    | _, _ => true) &&
    (srcIndices.all fun i => decide (p.laneDepth[i] ≤ 1)) && isLadder p.ladder && p.lock != .shift

/-- The volatile profile and the stored image lie in their ranges, the running ladder names each class once (R43, R45),
and the effective lock is the stronger of the stored lock and the SHIFT flag (R152). A VALID image agrees with its check
(R144); while a store is in progress the image is INVALID and holds the volatile profile with its check (R150). -/
def State.profileOk (s : State) : Prop :=
  s.prof.profile.inRange = true ∧ s.prof.image.inRange = true ∧ isLadder s.arb.ladder = true ∧
    s.prof.effLock = effectiveLock s.prof.storedLock s.prof.shift ∧
    (s.prof.imageValid = true → s.prof.check = s.prof.image.check) ∧
    (s.prof.storing = true → s.prof.imageValid = false ∧ s.prof.image = s.prof.profile ∧
      s.prof.check = s.prof.image.check)

/-! ## The put lists (R6) -/

/-- The unit counts of a line's put list add up to its done count (R6). -/
def OLine.putsOk (l : OLine) : Bool := (l.puts.map fun e => e.units).sum == l.done

/-- Every line's put list adds up to its done count. -/
def State.putListsOk (s : State) : Prop := ∀ o ∈ s.offers, ∀ l ∈ o.lines, l.putsOk = true

/-- The progress of a line: the done count is at most the quantity, the line DONE exactly when they are equal and a SHORT
line below it (R5); at most twelve put entries, no two for one tote and compartment, each of one unit or more (R6). -/
def OLine.progressOk (l : OLine) : Bool :=
  decide (l.done ≤ l.qty) && ((l.state == .done) == (l.done == l.qty)) &&
    decide (l.puts.length ≤ Config.putListCapacity) && decide ((l.puts.map fun e => (e.tote, e.comp)).Nodup) &&
    l.puts.all fun e => decide (1 ≤ e.units)

/-- The progress of an offer: its lines, and an exposure used that is at most the budget; a cold offer alone has exposure
figures (R117). -/
def Offer.progressOk (o : Offer) : Bool :=
  (o.exposure.isSome == o.temp.isCold) && (o.exposure.all fun e => decide (e.used ≤ e.budget * 10)) &&
    o.lines.all OLine.progressOk

/-- The progress of every offer of the list. -/
def State.progressOk (s : State) : Prop := ∀ o ∈ s.offers, o.progressOk = true

/-- The exposure used of an offer never falls from one state to a later one (R117). -/
def exposureGrows (s t : State) : Prop :=
  ∀ o ∈ s.offers, ∀ o' ∈ t.offers, o'.tote = o.tote → ∀ e e' : Exposure, o.exposure = some e → o'.exposure = some e' →
    e.used ≤ e'.used

/-! ## All of them together -/

/-- The records of the part agree with each other: every property above but the capacities of the link. -/
def State.consistent (s : State) : Prop :=
  s.offersOk ∧ s.slotsOk ∧ s.drainedOk ∧ s.placesOk ∧ s.wallOk ∧ s.recordsOk ∧ s.cycleTimersOk ∧ s.cycleOk ∧
    s.linesOk ∧ s.surveysOk ∧ s.listsOk ∧ s.profileOk ∧ s.putListsOk ∧ s.progressOk

/-! ## A start-up (R140 to R142, R144) -/

/-- `t` is the part right after a start-up made in state `s`; `keepShift` is set for the start-up of RESTART. The stored
image is loaded when its check agrees and no store was in progress, the defaults otherwise (R144, R151); the SHIFT flag is
kept by RESTART and clear otherwise; every queue, list, record and cycle is empty, every position CLOSED and DARK or in
its survey, the mode STARTING, the clock 0, the picker HELD while HOLD is on. -/
def startUpMade (keepShift : Bool) (s t : State) : Prop :=
  t.inputs = { s.inputs with reset := false } ∧ t.pending = s.pending ∧
    t.link = {} ∧ t.offers = [] ∧ t.put = {} ∧ t.wall.counter = 0 ∧
    t.bench = { mode := .starting, clock := 0, surveying := true } ∧
    t.picker = { cond := if s.inputs.hold then .held else .active, idleT := none } ∧
    t.prof.image = s.prof.image ∧ t.prof.imageValid = (!s.prof.storing && s.prof.image.check == s.prof.check) ∧
    (s.prof.storing = false → t.prof.check = s.prof.check) ∧
    (s.prof.storing = true → t.prof.check ≠ s.prof.image.check) ∧
    t.prof.loaded = t.prof.imageValid ∧ t.prof.profile = (if t.prof.imageValid then s.prof.image else {}) ∧
    t.prof.storedLock = (if t.prof.imageValid then s.prof.image.lock else .opn) ∧
    t.prof.shift = (keepShift && s.prof.shift) ∧ t.prof.effLock = effectiveLock t.prof.storedLock t.prof.shift ∧
    t.prof.storing = false ∧ t.arb = { ladder := t.prof.profile.ladder, lastCold := none } ∧
    (∀ p : Fin 4, t.src[p] = {
      depth := t.prof.profile.laneDepth[p]
      surveyT := if p.val < t.prof.profile.sourceCount then some 20 else none }) ∧
    (∀ q : Fin 12, t.wall.pos[q] = { surveyT := if q.val < t.prof.profile.orderCount then some 20 else none }) ∧
    (∀ p : Fin 4, t.lines[lineOf (.src p)] = {
      nextSeq := 1, ackT := some 5, orders :=
      if p.val < t.prof.profile.sourceCount then [{ seq := 0, order := .survey }]
      else [{ seq := 0, order := .light .source .dark, startDark := true }] }) ∧
    ∀ q : Fin 12, t.lines[lineOf (.ord q)] = {
      nextSeq := 1, ackT := some 5, orders :=
      if q.val < t.prof.profile.orderCount then [{ seq := 0, order := .survey }]
      else [{ seq := 0, order := .light .all .dark, startDark := true }] }

/-! ## What ACCEPT fixes (R5) -/

/-- What ACCEPT fixes of a line (R5): its record with the progress disregarded. -/
def OLine.fixed (l : OLine) : OLine := { l with done := 0, state := .opn, puts := [] }

/-- What ACCEPT fixes of an offer (R5): tote, class, budget and lines, with the progress disregarded. -/
def Offer.fixed (o : Offer) : Offer :=
  { tote := o.tote, temp := o.temp, exposure := o.exposure.map fun e => { budget := e.budget, used := 0 },
    lines := o.lines.map OLine.fixed }

/-! ## Full marks (R79) -/

/-- An order position with the full marks of its record cleared: what remains when the marks are disregarded. -/
def OrdPos.unmarked (x : OrdPos) : OrdPos :=
  { x with record := x.record.map fun r => { r with full := ⟨false, false, false⟩ } }

/-! ## When a request is executed (R142, R164) -/

/-- The rows of the table that execute a request. -/
def requestRows : List Instr :=
  [.unknownRequest, .offer, .recall, .wallAdd, .wallUrge, .wallWindow, .wallShut, .wallRebase, .wallRelease, .posOpen,
    .posClose, .posOpenOrder, .posCloseOrder, .benchStart, .benchDrain, .restart, .profileSet, .profileGet,
    .profileStore, .lockShift, .queryBench, .queryPosition, .queryOffer, .queryOrder]

/-- The request `r` stands at the front of the inbox, the row executes it, and its execution may begin: the RESET input
is off, no execution is held, the start-up survey is over, and a reply entry is free. -/
def State.canRun (row : Instr) (r : Request) (s : State) : Prop :=
  s.inputs.reset = false ∧ s.link.held = none ∧ s.bench.surveying = false ∧ replyCount s < Config.replyEntries ∧
    s.link.inbox.head? = some r ∧ rowOf r = row

end Sys2Proof.Machine
end

