-- ==== Sys2Proof/WellFormed.lean ====
section
/-!
DEFINITION. The commands whose operands are values that the world outside the part may give: the values a module may
send (R156), the frames the link takes (R163). `exec` is defined on ill-formed commands too, and discards a report
whose values fail their check (R155).
-/
namespace Sys2Proof
open Machine

/-- A tote id or order ref of a record: 1..4,294,967,295. -/
def idOk (n : Nat) : Bool := decide (1 ≤ n) && decide (n ≤ Config.idMax)

/-- The bytes of one whole frame with a good length (R163). -/
def frameOk (bs : List Byte) : Bool :=
  match bs with
  | b :: l0 :: l1 :: rest =>
    decide (b = Config.startByte) && goodLength (le16 l0 l1) && decide (rest.length = le16 l0 l1 + 2)
  | _ => false

/-- Whether a command is well formed. -/
def Instr.wellFormed (i : Instr) : Bool :=
  match i with
  | .powerUp => true
  | .resetLine => true
  | .holdOn => true
  | .holdOff => true
  | .keyInputChange _ => true
  | .frameReceived bytes => frameOk bytes
  | .byteGapTimeout _ => true
  | .frameSent => true
  | .unknownRequest => true
  | .offer => true
  | .recall => true
  | .wallAdd => true
  | .wallUrge => true
  | .wallWindow => true
  | .wallShut => true
  | .wallRebase => true
  | .wallRelease => true
  | .posOpen => true
  | .posClose => true
  | .posOpenOrder => true
  | .posCloseOrder => true
  | .benchStart => true
  | .benchDrain => true
  | .restart => true
  | .profileSet => true
  | .profileGet => true
  | .profileStore => true
  | .lockShift => true
  | .queryBench => true
  | .queryPosition => true
  | .queryOffer => true
  | .queryOrder => true
  | .storeCompletion _ => true
  | .sourceArrived _ _ id => validId id
  | .sourceDeparted _ _ => true
  | .orderArrived _ slot id => slot.isNone && validId id
  | .orderDeparted _ slot => slot.isNone
  | .stable pos g => (match pos with | .src _ => false | .ord _ => true) && validGross g
  | .keyShort pos => match pos with | .src _ => true | .ord _ => false
  | .keyButton pos button => (match pos with | .src _ => false | .ord _ => true) && decide (button ≤ 5)
  | .faultReport _ _ => true
  | .surveyAnswer _ answer => validAnswer answer
  | .ack _ seq => decide (seq ≤ 255)
  | .ackTimerExpiry _ => true
  | .surveyTimerExpiry _ => true
  | .lapse _ _ => true
  | .jam _ _ => true
  | .settleTimerExpiry _ => true
  | .orphanTimerExpiry _ => true
  | .orderLeaveTimerExpiry _ => true
  | .orderSettleTimerExpiry _ => true
  | .idleTimerExpiry => true
  | .warningMarginReached tote => idOk tote
  | .exposureExpiry tote => idOk tote
  | .putGraceTimerExpiry => true
  | .resetOn => true
  | .badLength lo hi => !goodLength (le16 lo hi)

end Sys2Proof
end

