-- ==== Sys2Proof/Certificates/Slice0/Obligations.lean ====
section
/-!
DEFINITION. The statements for the provers. Each docstring says which rule or section of spec/ the statement formalises,
and which log entry of notes/assumptions/ it rests on where it rests on one.
-/
open Sys2Proof Sys2Proof.Machine

/-! ## The machine as a whole -/

/-- A step with commands waiting takes the one at the front and executes it on the state with the rest of the queue
(the model's own queue, log entry 1). -/
def Obligations.StepRunsFrontCommand : Prop :=
  ∀ (c : Instr) (rest : List Instr) (s : State), s.pending = c :: rest → step s = exec c { s with pending := rest }

/-- With no command waiting, and the RESET input off, the part comes to the first command that is due, or one tenth of a
second passes; with the RESET input on nothing happens (the model's choice, log entry 1). One tenth of a second moves
the bench clock on, up to 4,294,967,295 (R136), takes one off every running timer (R23, R60, R124, R133, R142, R158),
and adds one to the exposure used of every counted cold offer (R119). Nothing else changes. -/
def Obligations.EmptyQueueComesToDueCommandOrTicks : Prop :=
  (∀ s : State, s.pending = [] →
    (s.inputs.reset = true → step s = .next s) ∧
    (s.inputs.reset = false → ∀ (c : Instr) (cs : List Instr), due s = c :: cs →
      step s = .next { s with pending := [c] }) ∧
    (s.inputs.reset = false → due s = [] → step s = .next (tick s))) ∧
  (∀ s : State,
    let t := tick s
    t.bench = { s.bench with clock := if s.bench.clock < 4294967295 then s.bench.clock + 1 else s.bench.clock } ∧
    t.offers = s.offers.map (fun o =>
      if o.counted then { o with exposure := o.exposure.map fun e => { e with used := e.used + 1 } } else o) ∧
    (∀ p : Fin 4, t.src[p] = { s.src[p] with
      face := { s.src[p].face with
        callT := s.src[p].face.callT.map (· - 1), leaveT := s.src[p].face.leaveT.map (· - 1),
        settleT := s.src[p].face.settleT.map (· - 1), orphanT := s.src[p].face.orphanT.map (· - 1) },
      lane := { s.src[p].lane with
        callT := s.src[p].lane.callT.map (· - 1), leaveT := s.src[p].lane.leaveT.map (· - 1) },
      surveyT := s.src[p].surveyT.map (· - 1) }) ∧
    (∀ q : Fin 12, t.wall.pos[q] = { s.wall.pos[q] with
      leaveT := s.wall.pos[q].leaveT.map (· - 1), settleT := s.wall.pos[q].settleT.map (· - 1),
      surveyT := s.wall.pos[q].surveyT.map (· - 1) }) ∧
    t.wall.counter = s.wall.counter ∧
    t.put = { s.put with graceT := s.put.graceT.map (· - 1) } ∧
    t.picker = { s.picker with idleT := s.picker.idleT.map (· - 1) } ∧
    (∀ i : Fin 16, t.lines[i] = { s.lines[i] with ackT := s.lines[i].ackT.map (· - 1) }) ∧
    t.inputs = s.inputs ∧ t.link = s.link ∧ t.arb = s.arb ∧ t.prof = s.prof ∧ t.pending = s.pending)

/-- RESET_LINE, and POWER_UP with the RESET input off, make a start-up that clears the SHIFT flag (R140, R142, R144,
section 8.6): the stored image is loaded when the check computed over it agrees with the check stored with it and no
store was in progress, the defaults otherwise; every queue, list, record and cycle is empty, every position CLOSED and
DARK or in its survey, the mode STARTING, the clock 0, the picker HELD while HOLD is on. (While the RESET input is on
POWER_UP waits for it: log entry 4.) That the bytes of a frame partly taken are dropped is the model's choice too (log
entry 30), and so is that a store abandoned by the start-up leaves the contents of the image as they were written, with
a check word left open (log entry 39). The state right after reset is the one a start-up makes with the inputs off, an
image with a check of 0 and no command waiting (the levels and the image are the model's choice, log entries 2 and 3).
-/
def Obligations.StartUpClearsTheParts : Prop :=
  (∀ s : State, ∃ t : State,
    exec .resetLine s = .next t ∧ (s.inputs.reset = false → exec .powerUp s = .next t) ∧ startUpMade false s t) ∧
  (∀ s : State, s.inputs.hold = false → s.inputs.key = false → s.prof.image = {} → s.prof.check = 0 →
    s.prof.spoiled = 0 → s.prof.storing = false → s.pending = [] → exec .resetLine s = .next State.reset)

/-- RESET_ON sets the level of the RESET input and nothing else. While it is on, no other command but RESET_LINE and the
levels of HOLD and KEY changes anything: the part takes no event (R140, section 8.6). That the levels are followed is
the model's choice (log entry 4). -/
def Obligations.ResetInputHoldsThePart : Prop :=
  (∀ s : State, exec .resetOn s = .next { s with inputs := { s.inputs with reset := true } }) ∧
  ∀ s : State, s.inputs.reset = true →
    exec .holdOn s = .next { s with inputs := { s.inputs with hold := true } } ∧
    exec .holdOff s = .next { s with inputs := { s.inputs with hold := false } } ∧
    ∀ c : Instr, c ≠ .resetLine → c ≠ .holdOn → c ≠ .holdOff → (∀ b, c ≠ .keyInputChange b) →
      exec c s = .next s

/-! ## Invariants that every step keeps -/

/-- Every step keeps the queues of the control link within their capacities: four requests in the inbox (R164), 64
notices (R168), and four replies counting the entry reserved for a request in execution (R164, R166). -/
def Obligations.StepKeepsQueuesWithinCapacity : Prop :=
  ∀ s t : State, s.queuesOk → step s = .next t → t.queuesOk

/-- Every step keeps the offer list at 32 records or fewer, no two with the same tote id (R1). -/
def Obligations.StepKeepsOfferIdsDistinct : Prop :=
  ∀ s t : State, s.offersOk → step s = .next t → t.offersOk

/-- Every step keeps the slots of the source positions as R22 and R23 allow them, with each call and leave timer running
while its slot is CALLED, ADVANCING or LEAVING, and keeps every face and lane EMPTY in DRAINED (R139). Where the records
of the part agree with each other, every step also keeps offers and slots in step: the state and position of each offer
name the slot that holds it (the table of R4), each slot names an offer of the list, and each offer is held by at most
one slot (R22). -/
def Obligations.StepKeepsSlotTable : Prop :=
  (∀ s t : State, s.slotsOk → s.drainedOk → step s = .next t → t.slotsOk ∧ t.drainedOk) ∧
  ∀ s t : State, s.consistent → step s = .next t → t.placesOk

/-- Every step keeps the items of the order positions in the states they belong to (R60, R61).
Where the records of the part agree with each other, every step also keeps the records on the wall: no two with the same
tote id, at most two with the same order ref (R62), the charged weight and volume of each compartment within the caps of
the record (R78), and a baseline at every ACTIVE position (section 4.2). -/
def Obligations.StepKeepsOrderPositionItems : Prop :=
  (∀ s t : State, s.wallOk → step s = .next t → t.wallOk) ∧
  ∀ s t : State, s.consistent → step s = .next t → t.recordsOk

/-- Every step keeps an acknowledgement timer running exactly while an order is outstanding (R158), and order sequences
in 0..255 (R157).
Where the records of the part agree with each other, every step also keeps each line's list as R157 has it: orders that
the line carries, one waiting at most for each display, gate and SURVEY, ten orders at most; and a survey only in the
start-up survey or for the request that holds execution (R142, R160, R164). That a SURVEY order stands on a list only
while its position is surveyed is the model's reading (log entry 15). -/
def Obligations.StepKeepsAckTimerWithOutstandingOrder : Prop :=
  (∀ s t : State, s.linesOk → step s = .next t → t.linesOk) ∧
  ∀ s t : State, s.consistent → step s = .next t → t.listsOk ∧ t.surveysOk

/-- Every step keeps the idle timer stopped without a lit cycle and an ACTIVE picker (R133), and the put grace timer
stopped without a grace of the lit cycle (R124, R125).
Where the records of the part agree with each other, every step also keeps the lit cycle true to what it names (section
5.2, R81, R84, R102): n of 1 or more and the accepted count below it, the source face PRESENT with the offer and its
orphan timer stopped, the line OPEN and owing n units, the target ACTIVE and CLEAN with the line's order ref, and room
in the target compartment for the units not yet accepted (R88). -/
def Obligations.StepKeepsCycleTimers : Prop :=
  (∀ s t : State, s.cycleTimersOk → step s = .next t → t.cycleTimersOk) ∧
  ∀ s t : State, s.consistent → step s = .next t → t.cycleOk

/-- Every step keeps the profile and its image within the ranges of R145, the running ladder a ladder (R43, R45), the
effective lock the stronger of the stored lock and the SHIFT flag (R152), a VALID image agreeing with its check (R144),
and the image INVALID and equal to the volatile profile, with its check, while a store is in progress (R150). That the
contents of an image left by a failed store lie in the ranges too is the model's choice (log entry 39). -/
def Obligations.StepKeepsProfileInRange : Prop :=
  ∀ s t : State, s.profileOk → step s = .next t → t.profileOk

/-- Every step keeps the unit counts of each line's put list adding up to its done count (R6).
Where the records of the part agree with each other, every step also keeps each line's done count at its quantity or
less, the line DONE exactly when they are equal and a SHORT line below (R5), its put list at twelve entries or fewer, no
two for one tote and compartment (R6), and the exposure used of each offer within its budget; and no step lowers an
exposure used (R117). -/
def Obligations.StepKeepsPutListsAddingUp : Prop :=
  (∀ s t : State, s.putListsOk → step s = .next t → t.putListsOk) ∧
  ∀ s t : State, s.consistent → step s = .next t → t.progressOk ∧ exposureGrows s t

/-- The state right after reset meets every invariant above, and they all hold of it together. -/
def Obligations.ResetMeetsInvariants : Prop :=
  State.reset.queuesOk ∧ State.reset.offersOk ∧ State.reset.slotsOk ∧ State.reset.drainedOk ∧ State.reset.wallOk ∧
    State.reset.linesOk ∧ State.reset.cycleTimersOk ∧ State.reset.profileOk ∧ State.reset.putListsOk ∧
    State.reset.consistent

/-- OFFER adds at most one record to the offer list, at its end; no other command adds any. No command changes a
record's place among the others or what ACCEPT fixed in it: tote id, class, budget, and of each line its ref, quantity,
weights, volume, put mode and charge weight (R1, R5, R14). The same holds of a tenth of a second. -/
def Obligations.OnlyOfferAddsRecordsAndNoneChangesFixedParts : Prop :=
  (∀ (c : Instr) (s t : State), c ≠ .offer → exec c s = .next t →
    (t.offers.map Offer.fixed).Sublist (s.offers.map Offer.fixed)) ∧
  (∀ s t : State, exec .offer s = .next t →
    (t.offers.map Offer.fixed).Sublist (s.offers.map Offer.fixed) ∨
      ∃ (r : Request) (o : Offer), s.link.inbox.head? = some r ∧ judgeOffer (popRequest s) r.body = .ok o ∧
        (t.offers.map Offer.fixed).Sublist (s.offers.map Offer.fixed ++ [o.fixed])) ∧
  ∀ s t : State, s.pending = [] → step s = .next t → t.offers.map Offer.fixed = s.offers.map Offer.fixed

/-! ## The weight verifier (chapter 06) -/

/-- R103, R104: OVERLOAD is AMBIGUOUS whatever the baseline and the weights; otherwise the verdict hangs on the delta
d = g − b alone; below −Ta it is NEGATIVE, from −Ta to Ta NO-CHANGE, for every line. A NEGATIVE makes the cycle CHECK, a
NO-CHANGE LIT; a delta that goes on to stage 3 is at least 3 g when Ta is at least 2. -/
def Obligations.VerdictComparesDeltaWithFloor : Prop :=
  ((∀ (base r ta tp : Nat) (b : Basis), verdict .overload base r b ta tp = .ambiguous) ∧
  ∀ (g g' base base' r ta tp : Nat) (b : Basis), (g : Int) - base = (g' : Int) - base' →
    verdict (.grams g) base r b ta tp = verdict (.grams g') base' r b ta tp) ∧
  (∀ (g base r ta tp : Nat) (b : Basis),
    ((g : Int) - base < -(ta : Int) ↔ verdict (.grams g) base r b ta tp = .negative) ∧
    (-(ta : Int) ≤ (g : Int) - base ∧ (g : Int) - base ≤ ta ↔ verdict (.grams g) base r b ta tp = .noChange) ∧
    ((ta : Int) < (g : Int) - base → verdict (.grams g) base r b ta tp = classify b (g - base) r ta tp) ∧
    ((ta : Int) < (g : Int) - base → 2 ≤ ta → 3 ≤ g - base) ∧
    stateAfter .negative = .check ∧ stateAfter .noChange = .lit)

/-- R105: the count of a FIXED line is d divided by u rounded to the nearest whole number, halves up, worked as
(2d + u) ÷ (2u) rounded down; it is 0 exactly when d is less than half a unit, and k × u differs from d by at most half
a unit. With u = 410 g, 205 g gives 1 and 204 g gives 0.
R106: the count of a VARIABLE line is d divided by the middle unit weight um, rounded in the same way; um lies from
umin to umax and is at least 1, and with umin equal to umax the count is that of a FIXED line of that weight. With 150
and 230 g, 1141 g gives 6 and 1332 g gives 7. -/
def Obligations.InferredCountIsNearestHalvesUp : Prop :=
  ((∀ d u : Nat, 0 < u →
    let k := (Basis.fixed u).inferred d
    k = (2 * d + u) / (2 * u) ∧ 2 * k * u ≤ 2 * d + u ∧ 2 * d + u < 2 * (k + 1) * u ∧ (k = 0 ↔ 2 * d < u) ∧
      2 * (k * u - d) ≤ u ∧ 2 * (d - k * u) ≤ u) ∧
  (Basis.fixed 410).inferred 205 = 1 ∧ (Basis.fixed 410).inferred 204 = 0) ∧
  ((∀ d umin umax : Nat, 0 < umin → umin ≤ umax →
    let um := (umin + umax) / 2
    (Basis.variable umin umax).inferred d = (2 * d + um) / (2 * um) ∧ umin ≤ um ∧ um ≤ umax ∧ 1 ≤ um ∧
      (umin = umax → (Basis.variable umin umax).inferred d = (Basis.fixed umin).inferred d)) ∧
  (Basis.variable 150 230).inferred 1141 = 6 ∧ (Basis.variable 150 230).inferred 1332 = 7)

/-- R107: the tests in their order, OVER with m = k − r, AMBIGUOUS at 0, AMBIGUOUS outside the tolerance, MATCH,
PARTIAL; m lies from 1 to 59999 for deltas up to 60000 g, and a remove count above 99 is held as 99. -/
def Obligations.VerdictClassifiesCountInOrder : Prop :=
  ∀ (b : Basis) (d r ta tp : Nat),
    let k := b.inferred d
    (r < k → classify b d r ta tp = .over (k - r)) ∧
    (¬ r < k → k = 0 → classify b d r ta tp = .ambiguous) ∧
    (¬ r < k → k ≠ 0 → b.within d k ta tp = false → classify b d r ta tp = .ambiguous) ∧
    (¬ r < k → k ≠ 0 → b.within d k ta tp = true → k = r → classify b d r ta tp = .matched) ∧
    (¬ r < k → k ≠ 0 → b.within d k ta tp = true → k ≠ r →
      classify b d r ta tp = .part k ∧ 1 ≤ k ∧ k ≤ r - 1) ∧
    (∀ m, classify b d r ta tp = .over m → 1 ≤ m) ∧
    (∀ m, d ≤ 60000 → 1 ≤ r → classify b d r ta tp = .over m → m ≤ 59999) ∧
    (∀ m, stateAfter (.over m) = .remove (if 99 < m then 99 else m))

/-- R109: the tolerance of a FIXED line, the greater of Ta and k × u × Tp ÷ 1000 rounded up, and the distance without
sign, an equal distance being within it; with Tp = 0 it is Ta; where it is at or above half of u, every count that is
the nearest whole number is within it.
R110: the band of a VARIABLE line, both ends included, without Tp; it is tested for the inferred count alone. With
150 and 230 g and Ta = 15 g, 260 g and 100 g are AMBIGUOUS. -/
def Obligations.ToleranceOfFixedAndVariableLines : Prop :=
  (∀ d k u ta tp : Nat,
    let tol := max ta ((k * u * tp + 999) / 1000)
    ((Basis.fixed u).within d k ta tp = true ↔ |(d : Int) - (k * u : Nat)| ≤ tol) ∧
    (tp = 0 → tol = ta) ∧
    (0 < u → k = (Basis.fixed u).inferred d → u / 2 ≤ tol → (Basis.fixed u).within d k ta tp = true ∧
      ∀ r, 1 ≤ k → k ≤ r → classify (.fixed u) d r ta tp ≠ .ambiguous)) ∧
  ((∀ d k umin umax ta tp : Nat, (Basis.variable umin umax).within d k ta tp = true ↔
    (k : Int) * umin - ta ≤ d ∧ (d : Int) ≤ k * umax + ta) ∧
  (∀ r tp, 1 ≤ r → classify (.variable 150 230) 260 r 15 tp = .ambiguous ∧
    classify (.variable 150 230) 100 r 15 tp = .ambiguous))

/-! ## Windows, allocation, put modes, request classes -/

/-- R63: the lists of a window for a record of C compartments with a count of at most C; a count above C is stored as C,
a window not given is FRONT with count C, and a window with an empty list admits nothing. -/
def Obligations.WindowListsCompartmentsInOrder : Prop :=
  (∀ C c : Nat, c ≤ C →
    (Window.mk .front c false).comps C = List.range c ∧
    (Window.mk .back c false).comps C = ((List.range C).drop (C - c)).reverse ∧
    (Window.mk .front c true).comps C = ((List.range C).drop c).reverse ∧
    (Window.mk .back c true).comps C = List.range (C - c)) ∧
  (∀ (C : Nat) (w : WindowField), (storeWindow C w).count = min w.count C) ∧
  (∀ C : Nat, (defaultWindow C).comps C = List.range C) ∧
  (∀ (q : Fin 12) (r : Rec) (t : Temp) (l : OLine), (r.windows.get t).comps r.count = [] → r.firstRoom q t l = none)

/-- An allocation's answer (R77): the record is ACTIVE and CLEAN and holds the line's order ref; the compartment lies in
the window of the class, exists, is not shut, and is named by a full put list; the count n is at least 1 and the
greatest that the units owed, the weight left and the volume left allow, that is the least of the three terms. It is the
first in registration order and then in window order: no earlier compartment of the window takes a unit, and no record
with room has a lower registration sequence. An allocation is answered "none" only when no compartment of a window of an
ACTIVE, CLEAN record with the line's order ref could take one unit (R77).
An allocation that finds a compartment changes nothing. One answered "none" sets the full mark for the class at each
candidate where it is clear, in registration order, with a FULL notice each: position, order ref, tote id, class, and
for each compartment of the window that is not shut, in window order, its weight and volume left (R79). Nothing else
changes. -/
def Obligations.AllocationAnswersExactlyTheRoom : Prop :=
  ∀ (t : Temp) (l : OLine) (s : State),
    let room := fun (r : Rec) (j m : Nat) => ∃ c : Comp, r.comps[j]? = some c ∧ c.shut = false ∧
      (12 ≤ l.puts.length → ∃ e ∈ l.puts, e.tote = r.tote ∧ e.comp = j) ∧ m ≤ l.qty - l.done ∧
      m * l.charge ≤ r.weightCap - c.weight ∧ m * l.volume ≤ r.volumeCap - c.volume
    let asked := fun (q : Fin 12) (r : Rec) => s.wall.pos[q].state = .active ∧ s.wall.pos[q].record = some r ∧
      r.cond = .clean ∧ r.ref = l.ref
    (∀ a : Answer, findRoom t l s = some a → ∃ (r : Rec) (before after : List Nat), asked a.q r ∧ r.tote = a.tote ∧
      (r.windows.get t).comps r.count = before ++ a.comp :: after ∧ (∀ j ∈ before, ¬ room r j 1) ∧
      1 ≤ a.n ∧ room r a.comp a.n ∧ (∀ m, room r a.comp m → m ≤ a.n) ∧
      ∀ (q : Fin 12) (r' : Rec), asked q r' → (∃ j ∈ (r'.windows.get t).comps r'.count, room r' j 1) →
        r.seq ≤ r'.seq) ∧
    (findRoom t l s = none → ∀ (q : Fin 12) (r : Rec), asked q r →
      ∀ j ∈ (r.windows.get t).comps r.count, ¬ room r j 1) ∧
    (∀ a : Answer, findRoom t l s = some a → allocate t l s = (some a, s)) ∧
    (findRoom t l s = none → ∃ (qs : List (Fin 12)) (u : State), allocate t l s = (none, u) ∧
      (∀ q : Fin 12, q ∈ qs ↔ ∃ r, asked q r ∧ r.full.get t = false) ∧ qs.Nodup ∧
      qs.Pairwise (fun q q' => ∀ r r' : Rec, s.wall.pos[q].record = some r → s.wall.pos[q'].record = some r' →
        r.seq ≤ r'.seq) ∧
      u = { s with wall := { s.wall with pos := u.wall.pos }, link := u.link } ∧
      (∀ q : Fin 12, u.wall.pos[q] = if q ∈ qs then { s.wall.pos[q] with
        record := s.wall.pos[q].record.map fun r => { r with full := r.full.set t true } } else s.wall.pos[q]) ∧
      u.link = (qs.foldl (fun v q => match s.wall.pos[q].record with
        | none => v
        | some r => notify (.wall q (some (r.ref, r.tote)) (.full t
            (((r.windows.get t).comps r.count).filterMap fun j => match r.comps[j]? with
              | none => none
              | some c => if c.shut then none else some (j, r.weightCap - c.weight, r.volumeCap - c.volume)))) v)
        s).link)

/-- The put mode and charge weight a line is given at ACCEPT: the table of R14, with 0 for an absent weight. -/
def Obligations.PutModeAndChargeWeight : Prop :=
  ∀ (m : Nat) (w : OfferLine),
    let l := makeLine m w
    (w.umin ≠ 0 → m ≤ w.umin → l.mode = .weigh ∧ l.charge = w.umax ∧ l.basis = .variable w.umin w.umax) ∧
    (w.umin ≠ 0 → w.umin < m → l.mode = .press ∧ l.charge = w.umax) ∧
    (w.umin = 0 → w.unit ≠ 0 → m ≤ w.unit → l.mode = .weigh ∧ l.charge = w.unit ∧ l.basis = .fixed w.unit) ∧
    (w.umin = 0 → w.unit ≠ 0 → w.unit < m → l.mode = .press ∧ l.charge = w.unit) ∧
    (w.umin = 0 → w.unit = 0 → l.mode = .press ∧ l.charge = 0)

/-- The table of R44: the first row a WAITING offer satisfies. -/
def Obligations.RequestClassIsFirstRowSatisfied : Prop :=
  ∀ (o : Offer) (s : State),
    let urgent := ∃ l ∈ o.lines, l.state = .opn ∧ ∃ (q : Fin 12) (r : Rec), s.wall.pos[q].record = some r ∧
      (s.wall.pos[q].state = .expected ∨ s.wall.pos[q].state = .arrived ∨ s.wall.pos[q].state = .active) ∧
      r.ref = l.ref ∧ r.urgent = true
    (o.ret = true → reqClass o s = .ret) ∧
    (o.ret = false → urgent → reqClass o s = .expedite) ∧
    (o.ret = false → ¬ urgent → (o.temp = .chilled ∨ o.temp = .frozen) → reqClass o s = .cold) ∧
    (o.ret = false → ¬ urgent → o.temp = .ambient → reqClass o s = .ambient)

/-! ## Judgements that follow many commands -/

/-- A grant takes the four steps of R52: the slot becomes CALLED for the offer with its call timer loaded (R27), the
offer becomes CALLED there with the travel charge made (R120), the CALL notice is handed over with the figures after
the charge (R53), then the ladder rotates if the rotate flag is on and a cold grant sets the last cold temperature
(R45, R54). Nothing else changes. -/
def Obligations.GrantTakesFourSteps : Prop :=
  ∀ (p : Fin 4) (sl : Slot) (o : Offer) (c : ReqClass) (s : State),
    let pr := s.prof.profile
    let o' : Offer := { o with
      state := .called, place := some (p, sl)
      exposure := o.exposure.map fun e => Exposure.judged { e with used := e.used + pr.travelCharge * 10 } pr.warningMargin }
    let t := grant p sl o c s
    (∀ p', p' ≠ p → t.src[p'] = s.src[p']) ∧
    t.src[p] = (match sl with
      | .face => { s.src[p] with face := { state := .called, offer := some o.tote, callT := some (pr.callTimeout * 10) } }
      | .lane => { s.src[p] with lane := { state := .called, offer := some o.tote, callT := some (pr.callTimeout * 10) } }) ∧
    (∀ i (h : i < s.offers.length), s.offers[i] = o → t.offers[i]? = some o') ∧
    (∀ i (h : i < s.offers.length), s.offers[i].tote ≠ o.tote → t.offers[i]? = some s.offers[i]) ∧
    t.offers.length = s.offers.length ∧
    t.link = (notify (.call o.tote p sl o.temp c o.lapses o'.remainingSeconds (pr.callTimeout * 10)) s).link ∧
    t.arb.ladder = (if pr.rotate then s.arb.ladder.filter (fun x => x != c) ++ [c] else s.arb.ladder) ∧
    t.arb.lastCold = (if o.temp = .chilled ∨ o.temp = .frozen then some o.temp else s.arb.lastCold) ∧
    t.inputs = s.inputs ∧ t.wall = s.wall ∧ t.put = s.put ∧ t.picker = s.picker ∧ t.bench = s.bench ∧
    t.prof = s.prof ∧ t.lines = s.lines ∧ t.pending = s.pending

/-- With no callable slot an arbitration examines nothing and changes nothing (R48).
What an arbitration may change: the outbound queue grows by CALL notices of offers granted and RELEASE notices, reason
EXPOSED, of offers dropped (R21, R53), the lost flag is set only with 64 notices held (R168); EMPTY slots of OPEN
positions become CALLED; WAITING offers become CALLED or, cold and short of exposure, are dropped (R48); the last-served
pointer is cleared when it names a dropped offer (R80); the running ladder moves only while rotate is on (R45) and the
last cold temperature only to a cold class (R54). Everything else is unchanged (sections 3.4 to 3.9). -/
def Obligations.ArbitrationFrame : Prop :=
  (∀ s : State, (∀ (p : Fin 4) (sl : Slot), callable p sl s = false) → arbitrate s = s) ∧
  (∀ s : State, s.offersOk →
    let t := arbitrate s
    let pr := s.prof.profile
    t.inputs = s.inputs ∧ t.pending = s.pending ∧ t.prof = s.prof ∧ t.bench = s.bench ∧ t.picker = s.picker ∧
    t.wall = s.wall ∧ t.lines = s.lines ∧ t.put.cycle = s.put.cycle ∧ t.put.graceT = s.put.graceT ∧
    t.link.rx = s.link.rx ∧ t.link.inbox = s.link.inbox ∧ t.link.held = s.link.held ∧
    (∃ ns : List Notice, t.link.out = s.link.out ++ ns.map OutEntry.notice ∧ ∀ n ∈ ns, n.clock = s.bench.clock ∧
      ∃ o ∈ s.offers, o.state = .waiting ∧
        ((∃ p sl c, n.body = .call o.tote p sl o.temp c o.lapses (o.granted p sl pr).remainingSeconds
            (pr.callTimeout * 10)) ∨
          o.temp ≠ .ambient ∧ o.passesExposure pr = false ∧
            n.body = .release (some o.tote) .exposed none o.remainingSeconds o.summary)) ∧
    (t.link.lost = s.link.lost ∨ t.link.lost = true ∧ 64 ≤ noticeCount t) ∧
    (t.put.lastServed = s.put.lastServed ∨ t.put.lastServed = none ∧
      ∃ o ∈ s.offers, s.put.lastServed = some o.tote ∧ ∀ o' ∈ t.offers, o'.tote ≠ o.tote) ∧
    (pr.rotate = false → t.arb.ladder = s.arb.ladder) ∧
    (t.arb.lastCold = s.arb.lastCold ∨ t.arb.lastCold = some .chilled ∨ t.arb.lastCold = some .frozen) ∧
    (∀ p : Fin 4, t.src[p] = { s.src[p] with face := t.src[p].face, lane := t.src[p].lane } ∧
      (t.src[p].face = s.src[p].face ∨
        s.src[p].state = .opn ∧ s.src[p].face.state = .empty ∧ t.src[p].face.state = .called) ∧
      (t.src[p].lane = s.src[p].lane ∨
        s.src[p].state = .opn ∧ s.src[p].face.state = .present ∧ s.src[p].lane.state = .empty ∧
          t.src[p].lane.state = .called)) ∧
    (t.offers.map fun o => o.tote).Sublist (s.offers.map fun o => o.tote) ∧
    (∀ o ∈ s.offers, (∀ o' ∈ t.offers, o'.tote ≠ o.tote) →
      o.state = .waiting ∧ o.temp ≠ .ambient ∧ o.passesExposure pr = false) ∧
    (∀ o ∈ s.offers, o.state ≠ .waiting → o ∈ t.offers) ∧
    (∀ o ∈ t.offers, o ∈ s.offers ∨ ∃ o' ∈ s.offers, o'.state = .waiting ∧ ∃ p sl, o = o'.granted p sl pr))

/-- A slot is callable under the conditions of R46, and an offer eligible under those of R47.
The choice of R51: the first class of the ladder with an eligible offer; for COLD a temperature, with alternation and
both temperatures eligible the one that differs from the last cold temperature and FROZEN after NONE, otherwise FROZEN
where one is eligible; then the earliest in the list. With none eligible there is no choice.
An arbitration that finds a callable slot first drops each cold WAITING offer whose remaining exposure is below the
travel charge plus the minimum dwell, in list order, with its RELEASE notice, reason EXPOSED (R21, R48). It then
considers the faces and then the lanes, in ascending index, each against the state as it stands: a slot that is callable
is granted its choice (R50). None of the dropped offers is left (R48), and after an arbitration no callable slot is left
with an eligible offer waiting (R46, R47, R50, R51). -/
def Obligations.ArbitrationServesEveryCallableSlot : Prop :=
  (∀ (s : State) (p : Fin 4) (sl : Slot), callable p sl s = true ↔
    s.bench.mode = .service ∧ (s.picker.cond = .active ∨ s.picker.cond = .idle) ∧ noticeCount s < 48 ∧
    s.src[p].state = .opn ∧ match sl with
      | .face => s.src[p].face.state = .empty
      | .lane => s.src[p].depth = 1 ∧ s.src[p].face.state = .present ∧ s.src[p].lane.state = .empty) ∧
  (∀ (s : State) (p : Fin 4) (o : Offer), eligible p o s = true ↔
    o.state = .waiting ∧
    (∃ l ∈ o.lines, l.state = .opn ∧ ∃ (q : Fin 12) (r : Rec), s.wall.pos[q].record = some r ∧ r.ref = l.ref ∧
      (s.wall.pos[q].state = .expected ∨ s.wall.pos[q].state = .arrived ∨ s.wall.pos[q].state = .active)) ∧
    (o.temp ≠ .ambient → s.prof.profile.coldCapable[p] = true ∧ s.picker.cond ≠ .idle ∧
      ∀ e, o.exposure = some e →
        (s.prof.profile.travelCharge + s.prof.profile.minDwell) * 10 ≤ e.budget * 10 - e.used)) ∧
  (∀ (s : State) (p : Fin 4), isLadder s.arb.ladder = true →
    let able := fun (c : ReqClass) (o : Offer) => o ∈ s.offers ∧ eligible p o s = true ∧ reqClass o s = c
    let cold := fun t : Temp => s.offers.any fun o => eligible p o s && reqClass o s == .cold && o.temp == t
    ((∀ o ∈ s.offers, eligible p o s = false) → chooseOffer p s = none) ∧
    ((∃ o ∈ s.offers, eligible p o s = true) → ∃ (o : Offer) (c : ReqClass), chooseOffer p s = some (o, c) ∧
      (∃ higher lower, s.arb.ladder = higher ++ c :: lower ∧ ∀ c' ∈ higher, ∀ o', ¬ able c' o') ∧
      (∃ front back, s.offers = front ++ o :: back ∧ ∀ o' ∈ front, able c o' → c = .cold ∧ o'.temp ≠ o.temp) ∧
      able c o ∧
      (c = .cold → o.temp = (if s.prof.profile.coldAlternation && cold .frozen && cold .chilled then
          (if s.arb.lastCold = some .frozen then Temp.chilled else .frozen)
        else if cold .frozen then .frozen else .chilled)))) ∧
  (∀ s : State, (∃ (p : Fin 4) (sl : Slot), callable p sl s = true) →
    let fails := fun o : Offer => o.state == .waiting && o.temp != .ambient && o.exposure.any fun e =>
      decide (e.budget * 10 - e.used < (s.prof.profile.travelCharge + s.prof.profile.minDwell) * 10)
    arbitrate s = [((0 : Fin 4), Slot.face), (1, .face), (2, .face), (3, .face), (0, .lane), (1, .lane), (2, .lane),
        (3, .lane)].foldl
      (fun u x => if callable x.1 x.2 u then
        match chooseOffer x.1 u with
        | none => u
        | some (o, c) => grant x.1 x.2 o c u
        else u)
      ((s.offers.filter fails).foldl (fun u o =>
        notify (.release (some o.tote) .exposed none o.remainingSeconds o.summary) (dropOffer o.tote u)) s) ∧
    ∀ o ∈ s.offers, fails o = true → ∀ o' ∈ (arbitrate s).offers, o'.tote ≠ o.tote) ∧
  ∀ s : State, isLadder s.arb.ladder = true → ∀ (p : Fin 4) (sl : Slot), callable p sl (arbitrate s) = true →
    ∀ o ∈ (arbitrate s).offers, eligible p o (arbitrate s) = false

/-- The orphan judgement (R38): the orphan timer of a face runs exactly when the face is PRESENT, is not the source of
the lit cycle, and its offer has an OPEN line and no serveable one. A timer that it starts holds the orphan dwell times
10, and one that runs already keeps its time. Where it runs, every candidate record of an OPEN line of the offer has its
full mark set. No full mark is cleared, and one is set only at a candidate for an OPEN line of a face judged for which
no compartment was found, for the class of its offer; a FULL notice names such a record, its class and the room left
(R79). Nothing else changes but the outbound queue. -/
def Obligations.OrphanTimersRunWhenNothingServeable : Prop :=
  ∀ s : State,
    let t := judgeOrphans s
    let left := fun (c : Temp) (r : Rec) => ((r.windows.get c).comps r.count).filterMap fun j => match r.comps[j]? with
      | none => none
      | some k => if k.shut then none else some (j, r.weightCap - k.weight, r.volumeCap - k.volume)
    (∀ p : Fin 4, t.src[p].face.orphanT.isSome = true ↔
      s.src[p].face.state = .present ∧ (∀ c, s.put.cycle = some c → c.src ≠ p) ∧
        ∃ o, faceOffer p s = some o ∧ (∃ l ∈ o.lines, l.state = .opn) ∧
          ∀ l ∈ o.lines, l.state = .opn → findRoom o.temp l s = none) ∧
    (∀ (p : Fin 4) (n : Nat), t.src[p].face.orphanT = some n →
      (s.src[p].face.orphanT = none → n = s.prof.profile.orphanDwell * 10) ∧
      ∀ m, s.src[p].face.orphanT = some m → n = m) ∧
    (∀ p : Fin 4, t.src[p].setOrphan none = s.src[p].setOrphan none) ∧
    (∀ p : Fin 4, t.src[p].face.orphanT.isSome = true → ∀ o, faceOffer p s = some o → ∀ l ∈ o.lines, l.state = .opn →
      ∀ (q : Fin 12) (r : Rec), t.wall.pos[q].record = some r → t.wall.pos[q].state = .active → r.cond = .clean →
        r.ref = l.ref → r.full.get o.temp = true) ∧
    (∀ q : Fin 12, t.wall.pos[q].unmarked = s.wall.pos[q].unmarked) ∧ t.wall.counter = s.wall.counter ∧
    (∀ (q : Fin 12) (r : Rec), s.wall.pos[q].record = some r → ∃ r', t.wall.pos[q].record = some r' ∧ ∀ c : Temp,
      (r.full.get c = true → r'.full.get c = true) ∧
      (r.full.get c = false → r'.full.get c = true → s.wall.pos[q].state = .active ∧ r.cond = .clean ∧
        ∃ (p : Fin 4) (o : Offer) (l : OLine), s.src[p].face.state = .present ∧
          (∀ k, s.put.cycle = some k → k.src ≠ p) ∧ faceOffer p s = some o ∧ o.temp = c ∧
          l ∈ o.lines ∧ l.state = .opn ∧ l.ref = r.ref ∧ findRoom c l s = none)) ∧
    (∃ ns : List Notice, t.link.out = s.link.out ++ ns.map OutEntry.notice ∧ ∀ n ∈ ns, n.clock = s.bench.clock ∧
      ∃ (q : Fin 12) (r : Rec) (c : Temp), s.wall.pos[q].state = .active ∧ s.wall.pos[q].record = some r ∧
        r.cond = .clean ∧ r.full.get c = false ∧ n.body = .wall q (some (r.ref, r.tote)) (.full c (left c r))) ∧
    t.link = { s.link with out := t.link.out, lost := t.link.lost } ∧
    t.inputs = s.inputs ∧ t.offers = s.offers ∧ t.arb = s.arb ∧ t.put = s.put ∧ t.picker = s.picker ∧
    t.bench = s.bench ∧ t.prof = s.prof ∧ t.lines = s.lines ∧ t.pending = s.pending

/-- An attempt to begin a cycle (R82 to R84): without an ACTIVE picker, in another mode, or with a cycle lit, nothing
happens; a cycle that begins is LIT with nothing accepted, on the first OPEN line of the PRESENT offer at its source
face that is serveable (R84), with the target the allocation answers, ACTIVE, CLEAN and with the line's order ref, and n
of 1 or more; the orphan timer of the source stops, the last-served pointer names the offer, the source display and then
the target compartment are lit with n (R85), and the idle timer starts.
Whether a cycle begins or not, an attempt changes nothing else but full marks, set only at candidates for a line of a
PRESENT face for which no compartment was found, with their FULL notices (R79), and the outbound queue: where none
begins the lines, the faces, the put sequencer and the picker stay as they were. -/
def Obligations.AttemptBeginsServeableCycle : Prop :=
  (∀ s : State,
    (s.put.cycle.isSome = true ∨ s.picker.cond ≠ .active ∨
      (s.bench.mode ≠ .service ∧ s.bench.mode ≠ .draining) → attempt s = s) ∧
    ∀ c : Cycle, s.put.cycle = none → (attempt s).put.cycle = some c →
      c.state = .lit ∧ c.acc = 0 ∧ c.verdict = none ∧ c.grace = false ∧ 1 ≤ c.n ∧
      (attempt s).put = { cycle := some c, lastServed := some c.offer, graceT := s.put.graceT } ∧
      (attempt s).picker = { cond := .active, idleT := some (s.prof.profile.idleTimeout * 10) } ∧
      (attempt s).src = s.src.set c.src (s.src[c.src].setOrphan none) ∧
      (attempt s).lines = (handOrder (.ord c.tgt) (.light (.comp c.comp) (.count c.n))
        (handOrder (.src c.src) (.light .source (.count c.n)) s)).lines ∧
      s.src[c.src].face.state = .present ∧ s.src[c.src].face.offer = some c.offer ∧
      ∃ (o : Offer) (l : OLine) (r : Rec), findOffer c.offer s = some o ∧ o.state = .present ∧
        (∀ i l', i < c.line → o.lines[i]? = some l' → l'.state = .opn → findRoom o.temp l' s = none) ∧
        o.lines[c.line]? = some l ∧ l.state = .opn ∧ c.mode = l.mode ∧ c.n ≤ l.qty - l.done ∧
        findRoom o.temp l s = some { q := c.tgt, tote := c.tgtTote, comp := c.comp, n := c.n } ∧
        s.wall.pos[c.tgt].state = .active ∧ s.wall.pos[c.tgt].record = some r ∧ r.cond = .clean ∧ r.ref = l.ref ∧
        r.tote = c.tgtTote) ∧
  (∀ s : State,
    let t := attempt s
    let left := fun (c : Temp) (r : Rec) => ((r.windows.get c).comps r.count).filterMap fun j => match r.comps[j]? with
      | none => none
      | some k => if k.shut then none else some (j, r.weightCap - k.weight, r.volumeCap - k.volume)
    (t.put.cycle = none → t.put = s.put ∧ t.picker = s.picker ∧ t.src = s.src ∧ t.lines = s.lines) ∧
    (∀ q : Fin 12, t.wall.pos[q].unmarked = s.wall.pos[q].unmarked) ∧ t.wall.counter = s.wall.counter ∧
    (∀ (q : Fin 12) (r : Rec), s.wall.pos[q].record = some r → ∃ r', t.wall.pos[q].record = some r' ∧ ∀ c : Temp,
      (r.full.get c = true → r'.full.get c = true) ∧
      (r.full.get c = false → r'.full.get c = true → s.wall.pos[q].state = .active ∧ r.cond = .clean ∧
        ∃ (p : Fin 4) (o : Offer) (l : OLine), s.src[p].face.state = .present ∧ faceOffer p s = some o ∧
          o.state = .present ∧ o.temp = c ∧
          l ∈ o.lines ∧ l.state = .opn ∧ l.ref = r.ref ∧ findRoom c l s = none)) ∧
    (∃ ns : List Notice, t.link.out = s.link.out ++ ns.map OutEntry.notice ∧ ∀ n ∈ ns, n.clock = s.bench.clock ∧
      ∃ (q : Fin 12) (r : Rec) (c : Temp), s.wall.pos[q].state = .active ∧ s.wall.pos[q].record = some r ∧
        r.cond = .clean ∧ r.full.get c = false ∧ n.body = .wall q (some (r.ref, r.tote)) (.full c (left c r))) ∧
    t.link = { s.link with out := t.link.out, lost := t.link.lost } ∧
    (t.link.lost = s.link.lost ∨ t.link.lost = true ∧ 48 ≤ noticeCount t) ∧
    t.inputs = s.inputs ∧ t.offers = s.offers ∧ t.arb = s.arb ∧ t.picker.cond = s.picker.cond ∧
    t.bench = s.bench ∧ t.prof = s.prof ∧ t.pending = s.pending)

/-- The candidates of an attempt are the PRESENT faces whose PRESENT offer has a serveable OPEN line and, when cold,
exposure left; with none of them no cycle begins, and otherwise the cycle is that of the candidate R83 prefers: a warned
offer with the least remaining exposure; with none warned the offer last served; with neither the earliest presented;
then the lowest position. -/
def Obligations.CandidatePreference : Prop :=
  (∀ s : State, mayBegin s = true →
    let cs := (candidates srcIndices s).1
    (∀ p : Fin 4, (∃ k ∈ cs, k.p = p) ↔ s.src[p].face.state = .present ∧ ∃ o, faceOffer p s = some o ∧
      o.state = .present ∧ (∃ l ∈ o.lines, l.state = .opn ∧ findRoom o.temp l s ≠ none) ∧
      ∀ e, o.exposure = some e → 0 < e.remaining) ∧
    (cs = [] → (attempt s).put.cycle = none) ∧
    (cs ≠ [] → ∃ k c, pickCandidate cs s.put.lastServed = some k ∧ (attempt s).put.cycle = some c ∧ c.src = k.p ∧
      c.offer = k.offer.tote)) ∧
  ∀ (s : State) (served : Option Nat) (k : Candidate),
    let cs := (candidates srcIndices s).1
    let time := fun x : Candidate => x.offer.presented.getD 0
    pickCandidate cs served = some k →
      k ∈ cs ∧
      (∀ w ∈ cs, w.warned = true → k.warned = true ∧ (k.remaining < w.remaining ∨ k.remaining = w.remaining ∧
        (time k < time w ∨ time k = time w ∧ k.p ≤ w.p))) ∧
      ((∀ w ∈ cs, w.warned = false) → ∀ w ∈ cs, served = some w.offer.tote → served = some k.offer.tote) ∧
      ((∀ w ∈ cs, w.warned = false ∧ served ≠ some w.offer.tote) → ∀ w ∈ cs,
        time k < time w ∨ time k = time w ∧ k.p ≤ w.p)

/-- The release of the tote of a PRESENT face or a STAGED lane (R17, R32): the slot becomes LEAVING with its leave timer
started and the orphan timer of a face stopped, the exit order is handed to the line, the offer becomes LEAVING with
the reason, the RELEASE notice is handed over; the other slot, the other offers and everything else are unchanged. -/
def Obligations.ReleaseOrdersToteOut : Prop :=
  ∀ (p : Fin 4) (sl : Slot) (r : Reason) (o : Offer) (s : State), s.offersOk → s.src[p].state ≠ .faulted →
    (match sl with
      | .face => s.src[p].face.state = .present
      | .lane => s.src[p].lane.state = .staged) →
    findOffer o.tote s = some o →
    let t := releaseSlot p sl o.tote r s
    t.src[p] = (match sl with
      | .face => { s.src[p] with face := { state := .leaving, offer := some o.tote,
                                           leaveT := some (s.prof.profile.leaveTimeout * 10) } }
      | .lane => { s.src[p] with lane := { state := .leaving, offer := some o.tote,
                                           leaveT := some (s.prof.profile.leaveTimeout * 10) } }) ∧
    (∀ p', p' ≠ p → t.src[p'] = s.src[p']) ∧
    findOffer o.tote t = some { o with state := .leaving, reason := some r } ∧
    (∀ i : Nat, s.offers[i]? ≠ some o → t.offers[i]? = s.offers[i]?) ∧
    t.lines[lineOf (.src p)] =
      FieldLine.hand (.gate (match sl with | .face => .faceExit | .lane => .laneExit)) false s.lines[lineOf (.src p)] ∧
    (∀ i, i ≠ lineOf (.src p) → t.lines[i] = s.lines[i]) ∧
    t.link = (notify (.release (some o.tote) r (some (p, sl)) o.remainingSeconds o.summary) s).link ∧
    t.put = { s.put with lastServed := if s.put.lastServed = some o.tote then none else s.put.lastServed } ∧
    t.inputs = s.inputs ∧ t.arb = s.arb ∧ t.wall = s.wall ∧ t.picker = s.picker ∧ t.bench = s.bench ∧
    t.prof = s.prof ∧ t.pending = s.pending

/-! ## The control link (chapter 11) -/

/-- A whole good frame taken while the receiver hunts (R163): its request joins the inbox when a place is free; with the
inbox full it is answered FULL when a reply entry is free, and is lost otherwise (R164). Nothing else changes. -/
def Obligations.GoodFrameBecomesRequest : Prop :=
  ∀ (s : State) (tag kind : Byte) (body : List Byte), s.inputs.reset = false → s.link.rx = [] → tag ≠ 0 →
    body.length ≤ 480 →
    let r : Request := { tag := tag, kind := kind, body := body }
    exec (.frameReceived (frame tag kind body)) s = .next (
      if s.link.inbox.length < 4 then { s with link := { s.link with inbox := s.link.inbox ++ [r] } }
      else if replyCount s + reserved s < 4 then answer r .full s
      else s)

/-- A whole frame of good length whose check fails, or whose tag is 0, is discarded: nothing changes (R163).
A start byte with a bad length is discarded and hunting resumes with the byte after it (R163); a gap discards the
bytes taken, and the byte that ends it is judged as in hunting. Nothing else changes. -/
def Obligations.BadFramesAreDiscarded : Prop :=
  (∀ (s : State) (l0 l1 tag kind c0 c1 : Byte) (body : List Byte), s.inputs.reset = false → s.link.rx = [] →
    2 ≤ le16 l0 l1 → le16 l0 l1 ≤ 482 → body.length + 2 = le16 l0 l1 →
    (crc16 (l0 :: l1 :: tag :: kind :: body) ≠ le16 c0 c1 ∨ tag = 0) →
    exec (.frameReceived (0xC3 :: l0 :: l1 :: tag :: kind :: (body ++ [c0, c1]))) s = .next s) ∧
  ((∀ (s : State) (lo hi : Byte), s.inputs.reset = false → s.link.rx = [] → (le16 lo hi < 2 ∨ 482 < le16 lo hi) →
    exec (.badLength lo hi) s = .next { s with link := { s.link with
      rx := if lo = 0xC3 then [lo, hi] else if hi = 0xC3 then [hi] else [] } }) ∧
  ∀ (s : State) (next : Byte), s.inputs.reset = false →
    exec (.byteGapTimeout next) s = .next { s with link := { s.link with rx := if next = 0xC3 then [next] else [] } })

/-- When the last byte of the frame at the front of the outbound queue has been sent its entry is freed (R168). A fall
from 48 to 47 notices starts an arbitration (R49); the sent reply of the RESTART that holds execution leads to a
start-up, the one of power-up but that it keeps the SHIFT flag and works out the effective lock with it (R141, R144).
With an empty queue nothing changes. That the store is looked at when the start-up is made, that the bytes of a partial
frame are dropped, and what an abandoned store leaves in the image are the model's choices (log entries 38, 30 and 39).
A notice handed to the link (R167, R168): one of a kind whose mask entry is off is not queued and sets no lost flag; one
of a maskable kind is queued with the bench clock while fewer than 48 notices are held, CALL, RELEASE and LAPSE while
fewer than 64 are; any other is discarded and sets the lost flag. Replies count towards neither, and nothing else
changes. The body of a RELEASE notice (R170): 15 bytes and 7 for each summary entry, each field at its offset, low byte
first, with 0, 0xFF and 0xFFFF for a tote id, a place and a remaining exposure that are absent. -/
def Obligations.SentFrameFreesItsEntry : Prop :=
  (∀ s : State, s.inputs.reset = false →
      (s.link.out = [] → exec .frameSent s = .next s) ∧
      (∀ n rest, s.link.out = .notice n :: rest → noticeCount s ≠ 48 →
        exec .frameSent s = .next { s with link := { s.link with out := rest } }) ∧
      (∀ n rest, s.link.out = .notice n :: rest → noticeCount s = 48 →
        exec .frameSent s = .next (arbitrate { s with link := { s.link with out := rest } })) ∧
      (∀ r rest, s.link.out = .reply r :: rest → (r.kind ≠ 0x8F ∨ r.body ≠ .ok .none ∨
          ∀ x, s.link.held = some x → x.job ≠ .restart) →
        exec .frameSent s = .next { s with link := { s.link with out := rest } }) ∧
      (∀ r rest x, s.link.out = .reply r :: rest → r.kind = 0x8F → r.body = .ok .none → s.link.held = some x →
        x.job = .restart → ∃ t, exec .frameSent s = .next t ∧ startUpMade true s t ∧ t.prof.shift = s.prof.shift ∧
          t.prof.effLock = effectiveLock t.prof.storedLock s.prof.shift)) ∧
  ((∀ (s : State) (b : NoticeBody),
      let m := s.prof.profile.mask
      let queued : State := { s with link := { s.link with
        out := s.link.out ++ [.notice { clock := s.bench.clock, body := b }] } }
      let discarded : State := { s with link := { s.link with lost := true } }
      let maskable := fun on : Bool => (on = false → notify b s = s) ∧
        (on = true → noticeCount s < 48 → notify b s = queued) ∧ (on = true → 48 ≤ noticeCount s → notify b s = discarded)
      let always := (noticeCount s < 64 → notify b s = queued) ∧ (64 ≤ noticeCount s → notify b s = discarded)
      match b with
      | .call .. => always
      | .release .. => always
      | .lapse .. => always
      | .line .. => maskable m.line
      | .wall .. => maskable m.wall
      | .picker .. => maskable m.picker
      | .position .. => maskable m.position
      | .benchMode .. => maskable m.bench
      | .surveyed .. => maskable m.bench
      | .stored .. => maskable m.stored) ∧
    (∀ (s : State) (r : Request) (b : ReplyBody), noticeCount (answer r b s) = noticeCount s) ∧
    ∀ (clock : Nat) (tote : Option Nat) (r : Reason) (place : Option (Fin 4 × Slot)) (rem : Option Nat)
      (sm : List SummaryEntry), clock ≤ 4294967295 → (∀ t, tote = some t → t ≤ 4294967295) →
      (∀ n, rem = some n → n < 65535) → sm.length ≤ 8 →
      (∀ e ∈ sm, e.ref ≤ 4294967295 ∧ e.qty ≤ 255 ∧ e.done ≤ 255) →
      ∃ bs : List Byte, Notice.bytes { clock := clock, body := .release tote r place rem sm } = some bs ∧
        bs.length = 15 + 7 * sm.length ∧ u32At bs 0 = clock ∧ u32At bs 4 = tote.getD 0 ∧
        (byteAt bs 8).toNat = (match r with
          | .done => 0
          | .orphan => 1
          | .exposed => 2
          | .idleRescue => 3
          | .recall => 4
          | .fault => 5
          | .unread => 6
          | .wrongTote => 7
          | .unknown => 8) ∧
        (place = none → byteAt bs 9 = 0xFF ∧ byteAt bs 10 = 0xFF) ∧
        (∀ p, place = some (p, .face) → (byteAt bs 9).toNat = p.val ∧ byteAt bs 10 = 0) ∧
        (∀ p, place = some (p, .lane) → (byteAt bs 9).toNat = p.val ∧ byteAt bs 10 = 1) ∧
        u16At bs 11 = rem.getD 65535 ∧ u16At bs 13 = sm.length ∧
        ∀ i (h : i < sm.length), u32At bs (15 + 7 * i) = sm[i].ref ∧ (byteAt bs (19 + 7 * i)).toNat = sm[i].qty ∧
          (byteAt bs (20 + 7 * i)).toNat = sm[i].done ∧ (byteAt bs (21 + 7 * i)).toNat = (match sm[i].state with
            | .opn => 0
            | .done => 1
            | .short => 2))

/-- A request row whose request is not at the front of the inbox, or whose execution may not begin, changes nothing (the
model's choice, log entry 10; the conditions are those of R142 and R164).
In STARTING six requests are answered MODE and change nothing else (R143). A kind that names no request is answered
UNKNOWN (R165).
A body too short to hold the fields of its request is answered FORMAT (R165; the layouts are the model's choice, log
entry 5).
The row that executes a request is that of its kind in the table of section 11.6; QUERY goes by its form, the codes 0 to
3 of the forms and the row of an unknown form being the model's choice (log entries 5 and 6). The kind of a reply is the
kind of its request plus 0x80 (R166); beyond a byte it is a free value (log entry 9). -/
def Obligations.RequestsWaitOrAreTurnedAway : Prop :=
  ((∀ (s : State) (row : Instr), row ∈ requestRows → (∀ r, ¬ s.canRun row r) → exec row s = .next s) ∧
    ((∀ (s : State) (r : Request) (row : Instr),
      row ∈ [Instr.recall, .wallUrge, .wallWindow, .wallShut, .wallRebase, .benchDrain] → s.canRun row r →
      s.bench.mode = .starting → exec row s = .next (answer r .mode (popRequest s))) ∧
    ∀ (s : State) (r : Request), s.canRun .unknownRequest r →
      exec .unknownRequest s = .next (answer r .unknown (popRequest s))) ∧
    (∀ (s : State) (r : Request) (row : Instr) (n : Nat),
      (row, n) ∈ [(Instr.recall, 4), (.wallAdd, 10), (.wallUrge, 5), (.wallWindow, 5), (.wallShut, 2), (.wallRebase, 1),
        (.wallRelease, 1), (.posOpen, 1), (.posClose, 1), (.posOpenOrder, 1), (.posCloseOrder, 1), (.profileSet, 2),
        (.queryBench, 1), (.queryPosition, 3), (.queryOffer, 5), (.queryOrder, 5)] →
      s.canRun row r → (s.bench.mode = .starting → refusedInStarting row = false) → r.body.length < n →
      exec row s = .next (answer r .format (popRequest s)))) ∧
  (∀ (tag k : Byte) (body : List Byte),
    let row := rowOf { tag := tag, kind := k, body := body }
    (∀ (n : Nat) (i : Instr), (n, i) ∈ [(0x01, Instr.offer), (0x02, .recall), (0x03, .wallAdd), (0x04, .wallUrge),
        (0x05, .wallWindow), (0x06, .wallShut), (0x07, .wallRebase), (0x08, .wallRelease), (0x09, .posOpen),
        (0x0A, .posClose), (0x0B, .posOpenOrder), (0x0C, .posCloseOrder), (0x0D, .benchStart), (0x0E, .benchDrain),
        (0x0F, .restart), (0x10, .profileSet), (0x11, .profileGet), (0x12, .profileStore), (0x13, .lockShift)] →
      k.toNat = n → row = i) ∧
    (k = 0x14 → ∀ rest, (body = 1 :: rest → row = .queryPosition) ∧ (body = 2 :: rest → row = .queryOffer) ∧
      (body = 3 :: rest → row = .queryOrder) ∧
      ((∀ f : Byte, f ∈ [1, 2, 3] → body.head? ≠ some f) → row = .queryBench)) ∧
    (k = 0 ∨ 0x14 < k.toNat → row = .unknownRequest)) ∧
  ∀ k : Byte, k.toNat < 0x80 → (replyKind k).toNat = k.toNat + 0x80

/-! ## The offer store (chapter 01) -/

/-- An OFFER that passes every check of R9 is appended at the end of the list, answered ACCEPT with the number of
records, the budget as stored and the put modes (R10, R13), and followed by an arbitration (R49); one that fails is
answered by the failing check's reply and changes nothing else (R9). -/
def Obligations.OfferIsAppendedOrAnswered : Prop :=
  ∀ (s : State) (r : Request), s.canRun .offer r →
    (∀ o, judgeOffer (popRequest s) r.body = .ok o → exec .offer s = .next (arbitrate
      (answer r (.accept (s.offers.length + 1) (o.exposure.map fun e => e.budget) (o.lines.map fun l => l.mode))
        { popRequest s with offers := s.offers ++ [o] }))) ∧
    ∀ b, judgeOffer (popRequest s) r.body = .error b → exec .offer s = .next (answer r b (popRequest s))

/-- What passing the checks of R9 means, and the record made (R3, R5, R11): the mode is SERVICE, the list has room, the
line count is 1 to 8 and the body holds the lines, the tote id is new and not 0, the class is known, every line is
within its bounds, a cold offer has exposure left after the clamping, some order is on the wall.
The table of R9: the checks in their order, each with its reply, the first line that fails a check made line by line
being the one named (R10); an OFFER that passes all of them is accepted. That a tote id of 0 is found before an order
ref of 0, so that FORMAT carries no index, is the model's choice (log entry 40). -/
def Obligations.AcceptedOfferPassedEveryCheck : Prop :=
  (∀ (s : State) (bs : List Byte) (o : Offer), judgeOffer s bs = .ok o →
      s.bench.mode = .service ∧ s.offers.length < 32 ∧
      1 ≤ (byteAt bs 9).toNat ∧ (byteAt bs 9).toNat ≤ 8 ∧ 10 + 12 * (byteAt bs 9).toNat ≤ bs.length ∧
      o.tote = u32At bs 0 ∧ o.tote ≠ 0 ∧ (∀ x ∈ s.offers, x.tote ≠ o.tote) ∧
      tempOfCode (byteAt bs 4).toNat = some o.temp ∧
      (o.temp = .ambient → o.exposure = none) ∧
      (o.temp ≠ .ambient → ∃ e, o.exposure = some e ∧ e.used = 10 * u16At bs 7 ∧ e.used < 10 * e.budget ∧
        60 ≤ e.budget ∧ e.budget ≤ (if o.temp = .frozen then 1800 else 3600) ∧
        (60 ≤ u16At bs 5 → u16At bs 5 ≤ (if o.temp = .frozen then 1800 else 3600) → e.budget = u16At bs 5) ∧
        (e.warning = true ↔ e.budget * 10 - e.used ≤ s.prof.profile.warningMargin * 10)) ∧
      o.state = .waiting ∧ o.place = none ∧ o.lapses = 0 ∧ o.ret = false ∧ o.presented = none ∧ o.reason = none ∧
      o.lines.length = (byteAt bs 9).toNat ∧
      (∀ i (h : i < o.lines.length),
        let l := o.lines[i]
        let w := offerLineAt bs i
        l.ref = w.ref ∧ l.ref ≠ 0 ∧ l.qty = w.qty ∧ 1 ≤ l.qty ∧ l.qty ≤ 99 ∧ l.volume = w.volume ∧ l.volume ≤ 250 ∧
        l.unit = (if w.unit = 0 then none else some w.unit) ∧ w.unit ≤ 30000 ∧
        l.bounds = (if w.umin = 0 then none else some (w.umin, w.umax)) ∧ w.umin ≤ w.umax ∧ w.umax ≤ 30000 ∧
        (w.umin = 0 → w.umax = 0) ∧ l.done = 0 ∧ l.state = .opn ∧ l.puts = []) ∧
      ∃ l ∈ o.lines, ∃ (q : Fin 12) (x : Rec), s.wall.pos[q].record = some x ∧ x.ref = l.ref ∧
        (s.wall.pos[q].state = .expected ∨ s.wall.pos[q].state = .arrived ∨ s.wall.pos[q].state = .active)) ∧
  ∀ (s : State) (bs : List Byte),
    let n := (byteAt bs 9).toNat
    let cls := (byteAt bs 4).toNat
    let ls := (List.range n).map (offerLineAt bs)
    let first := fun (bad : OfferLine → Prop) (i : Nat) =>
      (∃ l, ls[i]? = some l ∧ bad l) ∧ ∀ j < i, ∀ l, ls[j]? = some l → ¬ bad l
    let qty := fun l : OfferLine => l.qty = 0 ∨ 99 < l.qty
    let bounds := fun l : OfferLine => 30000 < l.unit ∨ 30000 < l.umin ∨ 30000 < l.umax ∨
      (l.umin = 0 ∧ l.umax ≠ 0) ∨ (l.umin ≠ 0 ∧ l.umax = 0) ∨ l.umax < l.umin
    let top := if cls = 2 then 1800 else 3600
    let budget := if u16At bs 5 < 60 then 60 else if top < u16At bs 5 then top else u16At bs 5
    let p1 := s.bench.mode = .service
    let p2 := p1 ∧ 10 ≤ bs.length
    let p3 := p2 ∧ 1 ≤ n ∧ n ≤ 8
    let p4 := p3 ∧ 10 + 12 * n ≤ bs.length
    let p5 := p4 ∧ u32At bs 0 ≠ 0 ∧ ∀ l ∈ ls, l.ref ≠ 0
    let p6 := p5 ∧ cls ≤ 2
    let p7 := p6 ∧ ∀ l ∈ ls, ¬ qty l
    let p8 := p7 ∧ ∀ l ∈ ls, ¬ bounds l
    let p9 := p8 ∧ ∀ l ∈ ls, l.volume ≤ 250
    let p10 := p9 ∧ ∀ x ∈ s.offers, x.tote ≠ u32At bs 0
    let p11 := p10 ∧ (cls = 0 ∨ u16At bs 7 < budget)
    let p12 := p11 ∧ s.offers.length < 32
    let p13 := p12 ∧ ∃ l ∈ ls, ∃ (q : Fin 12) (x : Rec), s.wall.pos[q].record = some x ∧ x.ref = l.ref ∧
      (s.wall.pos[q].state = .expected ∨ s.wall.pos[q].state = .arrived ∨ s.wall.pos[q].state = .active)
    let gives := fun b : ReplyBody => judgeOffer s bs = .error b
    (¬ p1 → gives (.wait .mode)) ∧ (p1 → ¬ p2 → gives (.reject (.format none))) ∧
    (p2 → ¬ p3 → gives (.reject .lines)) ∧ (p3 → ¬ p4 → gives (.reject (.format none))) ∧
    (p4 → u32At bs 0 = 0 → gives (.reject (.format none))) ∧
    (∀ i, p4 → u32At bs 0 ≠ 0 → first (fun l => l.ref = 0) i → gives (.reject (.format (some i)))) ∧
    (p5 → ¬ p6 → gives (.reject .cls)) ∧ (∀ i, p6 → first qty i → gives (.reject (.quantity i))) ∧
    (∀ i, p7 → first bounds i → gives (.reject (.bounds i))) ∧
    (∀ i, p8 → first (fun l => 250 < l.volume) i → gives (.reject (.volume i))) ∧
    (p9 → ¬ p10 → gives (.reject .duplicate)) ∧ (p10 → ¬ p11 → gives (.reject .exposed)) ∧
    (p11 → ¬ p12 → gives (.wait .full)) ∧ (p12 → ¬ p13 → gives (.wait .noOrder)) ∧
    (p13 → ∃ o, judgeOffer s bs = .ok o ∧ o.tote = u32At bs 0)

/-- RECALL by the state of the record that carries the tote id: the table of R15. A slot made EMPTY is followed by the
depth, closing and drain judgements (R39, R42, R139), and a diverted call by an arbitration (R49).
What slotSettled does is said in SourceSlotsEmpty. The place of the reply after the slot judgements and before the
arbitration is the model's choice (log entry 11). -/
def Obligations.RecallActsByOfferState : Prop :=
  ∀ (s : State) (r : Request) (t : Nat), s.canRun .recall r → s.bench.mode ≠ .starting → readId r.body = some t →
    let u := popRequest s
    (findOffer t s = none → exec .recall s = .next (answer r .notFound u)) ∧
    ∀ o, findOffer t s = some o →
      (o.state = .waiting → exec .recall s = .next (answer r (.ok (.recalled .removed)) (dropOffer t u))) ∧
      (∀ p sl, o.state = .called → o.place = some (p, sl) → exec .recall s = .next (arbitrate
        (answer r (.ok (.recalled .diverted)) (slotSettled p (dropOffer t (modSrc p (SrcPos.diverted sl) u)))))) ∧
      (∀ p, o.state = .staged → o.place = some (p, .lane) →
        exec .recall s = .next (answer r (.ok (.recalled .releasing)) (releaseSlot p .lane t .recall u))) ∧
      (∀ p, o.state = .staged → o.place = some (p, .face) → exec .recall s = .next (answer r .busy u)) ∧
      (∀ p, o.state = .present → o.place = some (p, .face) → (∀ c, s.put.cycle = some c → c.src ≠ p) →
        exec .recall s = .next (answer r (.ok (.recalled .releasing)) (releaseSlot p .face t .recall u))) ∧
      (∀ p c, o.state = .present → o.place = some (p, .face) → s.put.cycle = some c → c.src = p →
        exec .recall s = .next (answer r .busy u)) ∧
      (o.state = .leaving → exec .recall s = .next (answer r (.ok (.recalled .leaving)) u))

/-! ## The wall manager (chapter 04) -/

/-- A WALL-ADD that passes the checks of R64 creates the record of R62 and R65, queues ADDED, is answered OK or CLAMPED
with the record as stored, and is followed by an arbitration, the orphan judgement and an attempt; one that fails is
answered by its check and changes nothing else.
The place of the reply between the ADDED notice and the arbitration is the model's choice (log entry 11), the order of
what follows is read from R65 (log entry 26), and the flag of a byte other than 0 and 1 and the counter after its
greatest value are free values (log entries 7 and 8). That CLAMPED carries what OK carries, and no charges, is the
model's choice (log entry 42). What follows a record that enters EXPECTED, ARRIVED or ACTIVE is an arbitration, then
what follows any change of a record: the orphan judgement, then an attempt (R38, R49, R65, R82). -/
def Obligations.WallAddRegistersOrAnswers : Prop :=
  (∀ (s : State) (r : Request) (f : WallAddFields), s.canRun .wallAdd r →
      readWallAdd s.prof.profile.compartments r.body = some f →
      (∀ b, judgeWallAdd f (popRequest s) = .error b → exec .wallAdd s = .next (answer r b (popRequest s))) ∧
      ∀ q, judgeWallAdd f (popRequest s) = .ok q →
        let pr := s.prof.profile
        let seq := if s.wall.counter < 4294967295 then s.wall.counter + 1 else Config.registrationAfterMax
        let w := fun i : Nat => (f.windows[i]?.map (storeWindow pr.compartments)).getD (defaultWindow pr.compartments)
        ∃ x : OrdPos, ∃ rec : Rec, x.record = some rec ∧ rec.ref = f.ref ∧ rec.tote = f.tote ∧
          rec.urgent = flagOf f.urgent ∧ rec.seq = seq ∧ rec.count = pr.compartments ∧ rec.weightCap = pr.weightCap ∧
          rec.volumeCap = pr.volumeCap ∧ rec.windows = ⟨w 0, w 1, w 2⟩ ∧ rec.cond = .clean ∧ rec.misput = false ∧
          rec.full = ⟨false, false, false⟩ ∧ rec.comps.length = pr.compartments ∧ (∀ c ∈ rec.comps, c.shut = false) ∧
          (s.wall.pos[q].state = .empty → x.state = .expected ∧ rec.baseline = none ∧
            ∀ c ∈ rec.comps, c.weight = 0 ∧ c.volume = 0) ∧
          (s.wall.pos[q].state = .occupied → x.idRead = none ∧
            (∀ g, s.wall.pos[q].latest = some (.grams g) → x.state = .active ∧ rec.baseline = some g) ∧
            ((∀ g, s.wall.pos[q].latest ≠ some (.grams g)) → x.state = .arrived ∧ rec.baseline = none) ∧
            ∀ j, j < pr.compartments → rec.comps[j]? = some (match f.charges[j]? with
              | none => {}
              | some c => { weight := min c.1 pr.weightCap, volume := min c.2 pr.volumeCap })) ∧
          ∃ b : ReplyBody,
            (((∃ v ∈ f.windows, pr.compartments < v.count) ∨ s.wall.pos[q].state = .occupied ∧
                ∃ c ∈ f.charges.take pr.compartments, pr.weightCap < c.1 ∨ pr.volumeCap < c.2) →
              b = .clamped (.added seq x.state rec.windows)) ∧
            (¬ ((∃ v ∈ f.windows, pr.compartments < v.count) ∨ s.wall.pos[q].state = .occupied ∧
                ∃ c ∈ f.charges.take pr.compartments, pr.weightCap < c.1 ∨ pr.volumeCap < c.2) →
              b = .ok (.added seq x.state rec.windows)) ∧
            exec .wallAdd s = .next (recordEntered (answer r b
              (notifyWall q (.added x.state) (modOrd q (fun _ => x) (setCounter seq (popRequest s))))))) ∧
  ∀ s : State, wallChanged s = attempt (judgeOrphans s) ∧ recordEntered s = attempt (judgeOrphans (arbitrate s))

/-- What passing the checks of R64 means, and the table of R64: the checks in their order, each with its reply; check 4
takes in every position at or above the order count. A WALL-ADD that passes all of them is registered (R65). -/
def Obligations.RegisteredToteIsNewAndPlaced : Prop :=
  (∀ (f : WallAddFields) (s : State) (q : Fin 12), judgeWallAdd f s = .ok q →
      f.pos = q.val ∧ f.ref ≠ 0 ∧ f.tote ≠ 0 ∧ (∀ w ∈ f.windows, w.side ≤ 1 ∧ w.invert ≤ 1) ∧
      (s.wall.pos[q].state = .empty ∨ s.wall.pos[q].state = .occupied ∧ s.wall.pos[q].idRead = some f.tote) ∧
      (∀ (q' : Fin 12) (x : Rec), s.wall.pos[q'].record = some x → x.tote ≠ f.tote) ∧
      (allRecords s).countP (fun x => x.ref == f.ref) ≤ 1) ∧
  ∀ (f : WallAddFields) (s : State),
    let gives := fun b : ReplyBody => judgeWallAdd f s = .error b
    (12 ≤ f.pos → gives .range) ∧
    ∀ q : Fin 12, f.pos = q.val →
      let x := s.wall.pos[q]
      let p2 := f.ref ≠ 0 ∧ f.tote ≠ 0
      let p3 := p2 ∧ ∀ w ∈ f.windows, w.side ≤ 1 ∧ w.invert ≤ 1
      let p4 := p3 ∧ x.state ≠ .closed ∧ x.state ≠ .faulted ∧ f.pos < s.prof.profile.orderCount
      let p5 := p4 ∧ (x.state = .empty ∨ x.state = .occupied)
      let p6 := p5 ∧ ∀ (q' : Fin 12) (r : Rec), s.wall.pos[q'].record = some r → r.tote ≠ f.tote
      let p7 := p6 ∧ (allRecords s).countP (fun r => r.ref == f.ref) ≤ 1
      let p8 := p7 ∧ (x.state = .occupied → x.idRead = some f.tote)
      (¬ p2 → gives .format) ∧ (p2 → ¬ p3 → gives .range) ∧ (p3 → ¬ p4 → gives (.reject .position)) ∧
      (p4 → ¬ p5 → gives .busy) ∧ (p5 → ¬ p6 → gives (.reject .duplicate)) ∧ (p6 → ¬ p7 → gives (.reject .limit)) ∧
      (p7 → ¬ p8 → gives (.reject .mismatch)) ∧ (p8 → judgeWallAdd f s = .ok q)

/-- WALL-URGE sets the urgent flag of every record that holds the ref, in any state, and is answered OK with their
number; a changed flag is followed by an arbitration; without a record it is answered NOT-FOUND (R66).
The place of the reply before the arbitration is the model's choice (log entry 11), and the flag of a byte other than 0
and 1 is a free value (log entry 7). -/
def Obligations.WallUrgeSetsEveryRecord : Prop :=
  ∀ (s : State) (r : Request) (ref : Nat) (b : Byte), s.canRun .wallUrge r → s.bench.mode ≠ .starting →
    readUrge r.body = some (ref, b) →
    let n := (allRecords s).countP fun x => x.ref == ref
    let u := answer r (.ok (.urged n)) (setUrgent ref (flagOf b) (popRequest s))
    (n = 0 → exec .wallUrge s = .next (answer r .notFound (popRequest s))) ∧
    (n ≠ 0 → (∃ x ∈ allRecords s, x.ref = ref ∧ x.urgent ≠ flagOf b) → exec .wallUrge s = .next (arbitrate u)) ∧
    (n ≠ 0 → (∀ x ∈ allRecords s, x.ref = ref → x.urgent = flagOf b) → exec .wallUrge s = .next u) ∧
    (∀ q : Fin 12, u.wall.pos[q] = { s.wall.pos[q] with
      record := s.wall.pos[q].record.map fun x => if x.ref = ref then { x with urgent := flagOf b } else x }) ∧
    u.src = s.src ∧ u.offers = s.offers ∧ u.lines = s.lines ∧ u.put = s.put ∧ u.wall.counter = s.wall.counter ∧
    flagOf 0 = false ∧ flagOf 1 = true

/-- WALL-WINDOW replaces the window of one class, with a count above C stored as C, clears the full mark of the class,
and is followed by the orphan judgement and an attempt; its refusals change nothing else (R67).
WALL-SHUT sets the shut flag of one compartment and clears the three full marks, followed by the orphan judgement and an
attempt; a compartment already shut is answered OK with nothing changed; its refusals change nothing else (R72). The
order of the refusals is the model's reading (log entry 22), and the place of the reply before what follows its choice
(log entry 11). -/
def Obligations.WallWindowAndWallShut : Prop :=
  (∀ (s : State) (r : Request) (n c : Nat) (w : WindowField), s.canRun .wallWindow r → s.bench.mode ≠ .starting →
    readWindow r.body = some (n, c, w) →
    let u := popRequest s
    (12 ≤ n ∨ 2 < c ∨ 1 < w.side ∨ 1 < w.invert → exec .wallWindow s = .next (answer r .range u)) ∧
    ∀ (q : Fin 12) (t : Temp), n = q.val → tempOfCode c = some t → w.side ≤ 1 → w.invert ≤ 1 →
      (s.wall.pos[q].state.holds = false ∨ s.wall.pos[q].record = none →
        exec .wallWindow s = .next (answer r (.reject .position) u)) ∧
      ∀ x, s.wall.pos[q].record = some x → s.wall.pos[q].state.holds = true →
        (cycleServes q t s = true → exec .wallWindow s = .next (answer r .busy u)) ∧
        (cycleServes q t s = false →
          let w' : Window := { side := if w.side = 0 then .front else .back, count := min w.count x.count,
                               invert := w.invert == 1 }
          exec .wallWindow s = .next (wallChanged (answer r
            (if x.count < w.count then .clamped (.window w') else .ok (.window w'))
            (modRec q (fun x => { x with windows := x.windows.set t w', full := x.full.set t false }) u))))) ∧
  (∀ (s : State) (r : Request) (n j : Nat), s.canRun .wallShut r → s.bench.mode ≠ .starting →
    readShut r.body = some (n, j) →
    let u := popRequest s
    (12 ≤ n → exec .wallShut s = .next (answer r .range u)) ∧
    ∀ q : Fin 12, n = q.val →
      (s.wall.pos[q].record = none → exec .wallShut s = .next (answer r (.reject .state) u)) ∧
      ∀ x, s.wall.pos[q].record = some x →
        (x.comps.length ≤ j → exec .wallShut s = .next (answer r .range u)) ∧
        ∀ c, x.comps[j]? = some c →
          (s.wall.pos[q].state.holds = false → exec .wallShut s = .next (answer r (.reject .state) u)) ∧
          (s.wall.pos[q].state.holds = true → cycleTargets q j s = true →
            exec .wallShut s = .next (answer r .busy u)) ∧
          (s.wall.pos[q].state.holds = true → cycleTargets q j s = false → c.shut = true →
            exec .wallShut s = .next (answer r (.ok .none) u)) ∧
          (s.wall.pos[q].state.holds = true → cycleTargets q j s = false → c.shut = false →
            exec .wallShut s = .next (wallChanged (answer r (.ok .none) (modRec q (fun x => { x with
              comps := x.comps.modify j fun c => { c with shut := true }
              full := ⟨false, false, false⟩ }) u)))))

/-- WALL-REBASE sets the baseline to the latest stable weight; a DISTURBED record becomes CLEAN with a CLEAN notice, its
misput mark cleared and its remove light turned off, followed by the orphan judgement and an attempt; its refusals
change nothing else (R71).
The order of the refusals is the model's reading (log entry 22), and the place of the reply after the CLEAN notice and
before the judgements its choice (log entry 11). -/
def Obligations.WallRebaseSetsBaseline : Prop :=
  ∀ (s : State) (r : Request) (n : Nat), s.canRun .wallRebase r → s.bench.mode ≠ .starting →
    readPos r.body = some n →
    let u := popRequest s
    (12 ≤ n → exec .wallRebase s = .next (answer r .range u)) ∧
    ∀ q : Fin 12, n = q.val →
      (isTarget q s = true → exec .wallRebase s = .next (answer r .busy u)) ∧
      (isTarget q s = false → s.wall.pos[q].state ≠ .active →
        exec .wallRebase s = .next (answer r (.reject .state) u)) ∧
      (isTarget q s = false → s.wall.pos[q].state = .active → (∀ g, s.wall.pos[q].latest ≠ some (.grams g)) →
        exec .wallRebase s = .next (answer r (.reject .overload) u)) ∧
      ∀ g x, isTarget q s = false → s.wall.pos[q].state = .active → s.wall.pos[q].latest = some (.grams g) →
        s.wall.pos[q].record = some x →
        let v := modRec q (fun x => { x with baseline := some g }) u
        (x.cond = .clean → exec .wallRebase s = .next (answer r (.ok (.baseline g)) v)) ∧
        (x.cond ≠ .clean → exec .wallRebase s = .next (wallChanged (answer r (.ok (.baseline g))
          (lightOff q (modRec q (fun x => { x with cond := .clean, misput := false })
            (notifyWall q (.clean (.grams g) g) v))))))

/-- WALL-RELEASE by the state of the position: the table and the refusals of R73.
What ordering out the tote of an order position leaves (R73): the exit order on its line, the position LEAVING with
its leave timer started and the remove light off, the record kept with its charges and its misput mark cleared, one
notice RELEASED handed over. Every other position and the rest of the state are unchanged.
The place of the reply after the RELEASED notice and before the judgements is the model's choice (log entry 11), and so
is RELEASED before POSITION CLOSED where an EXPECTED record stands at or above the order count (R76, log entry 35). -/
def Obligations.WallReleaseActsByState : Prop :=
  (∀ (s : State) (r : Request) (n : Nat), s.canRun .wallRelease r → readPos r.body = some n →
    let u := popRequest s
    (12 ≤ n → exec .wallRelease s = .next (answer r .range u)) ∧
    ∀ q : Fin 12, n = q.val →
      (s.wall.pos[q].state = .closed ∨ s.wall.pos[q].state = .faulted →
        exec .wallRelease s = .next (answer r (.reject .position) u)) ∧
      (s.wall.pos[q].state = .empty → exec .wallRelease s = .next (answer r (.reject .state) u)) ∧
      (s.wall.pos[q].state = .leaving ∨ s.wall.pos[q].state = .settling →
        exec .wallRelease s = .next (answer r (.ok .none) u)) ∧
      (s.wall.pos[q].state = .expected →
        exec .wallRelease s = .next (wallChanged (answer r (.ok .none) (emptyOrd q (notifyReleased q false u))))) ∧
      (s.wall.pos[q].state = .occupied → exec .wallRelease s = .next (answer r (.ok .none) (releaseOrd q u))) ∧
      (s.wall.pos[q].state = .arrived ∨ s.wall.pos[q].state = .active →
        (isTarget q s = true → exec .wallRelease s = .next (answer r .busy u)) ∧
        (isTarget q s = false → exec .wallRelease s = .next (wallChanged (answer r (.ok .none) (releaseOrd q u)))))) ∧
  (∀ (q : Fin 12) (s : State),
    (s.wall.pos[q].state = .arrived ∨ s.wall.pos[q].state = .active ∨ s.wall.pos[q].state = .occupied) →
    let t := releaseOrd q s
    t.wall.pos[q] = { s.wall.pos[q] with
      state := .leaving, leaveT := some (s.prof.profile.leaveTimeout * 10), removeLight := false, idRead := none,
      record := s.wall.pos[q].record.map fun x => { x with misput := false } } ∧
    (∀ q', q' ≠ q → t.wall.pos[q'] = s.wall.pos[q']) ∧ t.wall.counter = s.wall.counter ∧
    (s.wall.pos[q].removeLight = false →
      t.lines[lineOf (.ord q)] = FieldLine.hand (.gate .exit) false s.lines[lineOf (.ord q)]) ∧
    (s.wall.pos[q].removeLight = true →
      t.lines[lineOf (.ord q)] =
        FieldLine.hand (.light .all .dark) false (FieldLine.hand (.gate .exit) false s.lines[lineOf (.ord q)])) ∧
    (∀ i, i ≠ lineOf (.ord q) → t.lines[i] = s.lines[i]) ∧
    t.link = (notify (.wall q (s.wall.pos[q].record.map fun x => (x.ref, x.tote)) (match s.wall.pos[q].record with
      | none => .released [] false s.wall.pos[q].idRead
      | some x => .released x.comps false none)) s).link ∧
    t.inputs = s.inputs ∧ t.offers = s.offers ∧ t.arb = s.arb ∧ t.src = s.src ∧ t.put = s.put ∧
    t.picker = s.picker ∧ t.bench = s.bench ∧ t.prof = s.prof ∧ t.pending = s.pending)

/-! ## Opening and closing positions, bench modes -/

/-- POS-CLOSE by the position state: the table of R39.
POS-OPEN by the position state: the table of R41. A CLOSED or FAULTED position is surveyed alone, and execution is held
with no reply yet.
The place of the reply after the POSITION notice and the drain judgement, and before the arbitration, is the model's
choice (log entry 11), and so is POSITION CLOSED before BENCH DRAINED (log entry 32). -/
def Obligations.SourcePositionsOpenAndClose : Prop :=
  (∀ (s : State) (r : Request) (n : Nat), s.canRun .posClose r → readPos r.body = some n →
    let u := popRequest s
    (4 ≤ n ∨ s.prof.profile.sourceCount ≤ n → exec .posClose s = .next (answer r .range u)) ∧
    ∀ p : Fin 4, n = p.val → n < s.prof.profile.sourceCount →
      let closed : SrcPos := { s.src[p] with state := .closed, cause := none, face := {}, lane := {} }
      let v := notify (.position (.src p) (.source .closed) none) { u with src := s.src.set p closed }
      (s.src[p].state = .opn → s.src[p].face.state = .empty → s.src[p].lane.state = .empty →
        exec .posClose s = .next (answer r (.ok (.sourceState .closed)) (judgeDrain v))) ∧
      (s.src[p].state = .opn → (s.src[p].face.state ≠ .empty ∨ s.src[p].lane.state ≠ .empty) →
        exec .posClose s = .next (answer r (.ok (.sourceState .closing))
          (notify (.position (.src p) (.source .closing) s.src[p].cause)
            { u with src := s.src.set p { s.src[p] with state := .closing } }))) ∧
      (s.src[p].state = .closing → exec .posClose s = .next (answer r (.ok (.sourceState .closing)) u)) ∧
      (s.src[p].state = .closed → exec .posClose s = .next (answer r (.ok (.sourceState .closed)) u)) ∧
      (s.src[p].state = .faulted →
        exec .posClose s = .next (answer r (.ok (.sourceState .closed)) (judgeDrain v)))) ∧
  (∀ (s : State) (r : Request) (n : Nat), s.canRun .posOpen r → readPos r.body = some n →
    let u := popRequest s
    (4 ≤ n ∨ s.prof.profile.sourceCount ≤ n → exec .posOpen s = .next (answer r .range u)) ∧
    ∀ p : Fin 4, n = p.val → n < s.prof.profile.sourceCount →
      (s.src[p].state = .opn → exec .posOpen s = .next (answer r (.ok (.sourceState .opn)) u)) ∧
      (s.src[p].state = .closing → exec .posOpen s = .next (arbitrate (answer r (.ok (.sourceState .opn))
        (notify (.position (.src p) (.source .opn) s.src[p].cause)
          { u with src := s.src.set p { s.src[p] with state := .opn } })))) ∧
      (s.src[p].state = .closed ∨ s.src[p].state = .faulted →
        exec .posOpen s = .next { u with
          link := { u.link with held := some { req := r, job := .openSource p } }
          src := s.src.set p { s.src[p] with surveyT := some 20 }
          lines := s.lines.set (lineOf (.src p)) (FieldLine.hand .survey false s.lines[lineOf (.src p)]) }))

/-- POS-OPEN-ORDER and POS-CLOSE-ORDER by the position state (R76).
The place of the reply after the POSITION and RELEASED notices is the model's choice (log entry 11), and so is RELEASED
before POSITION (log entry 35). -/
def Obligations.OrderPositionsOpenAndClose : Prop :=
  ∀ (s : State) (r : Request) (n : Nat), readPos r.body = some n →
    let u := popRequest s
    (s.canRun .posOpenOrder r → 12 ≤ n ∨ s.prof.profile.orderCount ≤ n →
      exec .posOpenOrder s = .next (answer r .range u)) ∧
    (s.canRun .posCloseOrder r → 12 ≤ n ∨ s.prof.profile.orderCount ≤ n →
      exec .posCloseOrder s = .next (answer r .range u)) ∧
    ∀ q : Fin 12, n = q.val → n < s.prof.profile.orderCount →
      (s.canRun .posOpenOrder r →
        (s.wall.pos[q].state = .closed ∨ s.wall.pos[q].state = .faulted →
          exec .posOpenOrder s = .next { u with
            link := { u.link with held := some { req := r, job := .openOrder q } }
            wall := { s.wall with pos := s.wall.pos.set q { s.wall.pos[q] with surveyT := some 20 } }
            lines := s.lines.set (lineOf (.ord q)) (FieldLine.hand .survey false s.lines[lineOf (.ord q)]) }) ∧
        (s.wall.pos[q].state ≠ .closed → s.wall.pos[q].state ≠ .faulted →
          exec .posOpenOrder s = .next (answer r (.ok (.orderState s.wall.pos[q].state)) u))) ∧
      (s.canRun .posCloseOrder r →
        let closed : OrdPos := { surveyT := s.wall.pos[q].surveyT }
        let close := fun v : State => notify (.position (.ord q) (.order .closed) none)
          { v with wall := { v.wall with pos := v.wall.pos.set q closed } }
        (s.wall.pos[q].state = .closed → exec .posCloseOrder s = .next (answer r (.ok .none) u)) ∧
        (s.wall.pos[q].state = .empty → exec .posCloseOrder s = .next (answer r (.ok .none) (close u))) ∧
        (s.wall.pos[q].state = .faulted → s.wall.pos[q].record = none →
          exec .posCloseOrder s = .next (answer r (.ok .none) (close u))) ∧
        (∀ x, s.wall.pos[q].state = .faulted → s.wall.pos[q].record = some x →
          exec .posCloseOrder s = .next (answer r (.ok .none)
            (close (notify (.wall q (some (x.ref, x.tote)) (.released x.comps true none)) u)))) ∧
        (s.wall.pos[q].state ≠ .closed → s.wall.pos[q].state ≠ .empty → s.wall.pos[q].state ≠ .faulted →
          exec .posCloseOrder s = .next (answer r .busy u)))

/-- BENCH-START: the checks of R138 in order, then SERVICE with its BENCH notice, the reply OK, an arbitration and an
attempt (R49, R82).
BENCH-DRAIN: from SERVICE to DRAINING, and on to DRAINED at once when every face and lane is EMPTY; in DRAINING and
DRAINED nothing (R139).
RESTART queues the reply OK and holds execution until that reply has been sent (R141).
The place of the reply between the BENCH notices and the arbitration and attempt is the model's choice (log entry 11).
-/
def Obligations.BenchModeRequests : Prop :=
  (∀ (s : State) (r : Request), s.canRun .benchStart r →
    let u := popRequest s
    (s.bench.mode = .service ∨ s.bench.mode = .draining → exec .benchStart s = .next (answer r .mode u)) ∧
    (s.bench.mode = .starting ∨ s.bench.mode = .drained →
      ((∀ p : Fin 4, s.src[p].state ≠ .opn) → exec .benchStart s = .next (answer r (.reject .noPosition) u)) ∧
      ((∃ p : Fin 4, s.src[p].state = .opn) →
        (s.prof.storing = true → exec .benchStart s = .next (answer r .busy u)) ∧
        (s.prof.storing = false → exec .benchStart s = .next (attempt (arbitrate (answer r (.ok .none)
          (notify (.benchMode .service s.bench.mode) { u with bench := { s.bench with mode := .service } })))))))) ∧
  (∀ (s : State) (r : Request), s.canRun .benchDrain r →
    let u := popRequest s
    let v := notify (.benchMode .draining .service) { u with bench := { s.bench with mode := .draining } }
    (s.bench.mode = .service → (∃ p : Fin 4, s.src[p].face.state ≠ .empty ∨ s.src[p].lane.state ≠ .empty) →
      exec .benchDrain s = .next (attempt (answer r (.ok .none) v))) ∧
    (s.bench.mode = .service → (∀ p : Fin 4, s.src[p].face.state = .empty ∧ s.src[p].lane.state = .empty) →
      exec .benchDrain s = .next (attempt (answer r (.ok .none)
        (notify (.benchMode .drained .draining) { v with bench := { s.bench with mode := .drained } })))) ∧
    (s.bench.mode = .draining ∨ s.bench.mode = .drained →
      exec .benchDrain s = .next (answer r (.ok (.benchMode s.bench.mode)) u))) ∧
  (∀ (s : State) (r : Request), s.canRun .restart r →
    exec .restart s = .next { s with link := { s.link with
      inbox := s.link.inbox.tail
      out := s.link.out ++ [.reply { tag := r.tag, kind := 0x8F, body := .ok .none }]
      held := some { req := r, job := .restart } } })

/-! ## The profile store and the queries -/

/-- PROFILE-SET: the checks of R146 in order, each refusal changing nothing else; then the setting, its hand-over to the
blocks that read it, and the reply with the value as stored, CLAMPED when it was clamped (R147, R148). The layout of the
values, two bytes low first for a number and a byte an entry otherwise, is the model's choice (log entry 5). A numeric
field is clamped into its range and read back as stored; an enumerated field takes the values of its range alone, a bad
entry refusing the whole value; no other field of R145 changes (R147).
The hand-over of R148 by field, from the profile before the setting: the running ladder is set and an arbitration runs;
the arbiter's other fields are followed by an arbitration alone; a lowered source count closes the positions that come
to be at or above it, CLOSING those that hold a tote (R42); a lane depth reaches each position whose lane is EMPTY
(R42); a lowered order count closes the EMPTY and FAULTED positions at or above it, and a raised or equal one none
(R76); C and the caps are followed by the orphan judgement; the warning margin by the warning flags (R121); every other
field by nothing. The order of the notices of one setting is the model's choice (log entries 31 and 35). -/
def Obligations.ProfileSetChecksThenSets : Prop :=
  ((∀ (s : State) (r : Request) (f? : Option ProfileField) (v : List Byte), s.canRun .profileSet r →
      readProfileSet r.body = some (f?, v) →
      let u := popRequest s
      (s.prof.storing = true → exec .profileSet s = .next (answer r .busy u)) ∧
      (s.prof.storing = false → lockDenies s.prof.effLock s.inputs.key = true →
        exec .profileSet s = .next (answer r .denied u)) ∧
      (s.prof.storing = false → lockDenies s.prof.effLock s.inputs.key = false →
        (f? = none → exec .profileSet s = .next (answer r .range u)) ∧
        ∀ f, f? = some f →
          (f.drained = true → (s.bench.mode = .service ∨ s.bench.mode = .draining) →
            exec .profileSet s = .next (answer r .busy u)) ∧
          (f.drained = false ∨ (s.bench.mode ≠ .service ∧ s.bench.mode ≠ .draining) →
            (f.store v s.prof.profile = none → exec .profileSet s = .next (answer r .range u)) ∧
            ∀ p clamped, f.store v s.prof.profile = some (p, clamped) → exec .profileSet s = .next
              (answer r (if clamped then .clamped (.profileValue (f.read p)) else .ok (.profileValue (f.read p)))
                (handChange f s.prof.profile { u with prof := { s.prof with profile := p } }))))) ∧
    (∀ (f : ProfileField) (lo hi : Nat) (v : List Byte) (p : Profile), f.range = some (lo, hi) →
      let n := u16At v 0
      let x := if n < lo then lo else if hi < n then hi else n
      ∃ p' : Profile, f.store v p = some (p', decide (n < lo ∨ hi < n)) ∧ f.read p' = .num x ∧ lo ≤ x ∧ x ≤ hi ∧
        ∀ g : ProfileField, g ≠ f → g.read p' = g.read p) ∧
    (∀ (v : List Byte) (p : Profile),
      let takes := fun (f : ProfileField) (x : ProfileValue) => ∃ p' : Profile, f.store v p = some (p', false) ∧
        f.read p' = x ∧ ∀ g : ProfileField, g ≠ f → g.read p' = g.read p
      let bits := v.map fun b => b == 1
      (∀ (f : ProfileField) (n : Nat), (f, n) ∈ [(ProfileField.coldCapable, 4), (.laneDepth, 4), (.mask, 6), (.rotate, 1),
          (.coldAlternation, 1)] → v.length = n → (∃ b ∈ v, b ≠ 0 ∧ b ≠ 1) → f.store v p = none) ∧
      ((∀ b ∈ v, b = 0 ∨ b = 1) →
        (v.length = 4 → takes .coldCapable (.flags bits) ∧ takes .laneDepth (.nums (v.map BitVec.toNat))) ∧
        (v.length = 6 → takes .mask (.flags bits)) ∧
        (v.length = 1 → takes .rotate (.flag (bits == [true])) ∧ takes .coldAlternation (.flag (bits == [true])))) ∧
      (∀ l : List ReqClass, v.map classOf = l.map some → l.Perm [.ret, .expedite, .cold, .ambient] →
        takes .ladder (.classes l)) ∧
      (v.length = 4 → (∀ l : List ReqClass, v.map classOf = l.map some → ¬ l.Perm [.ret, .expedite, .cold, .ambient]) →
        ProfileField.ladder.store v p = none) ∧
      (v = [0] → takes .lock (.lock .opn)) ∧ (v = [1] → takes .lock (.lock .keyed)) ∧
      (v = [3] → takes .lock (.lock .fixed)) ∧
      (∀ b : Byte, v = [b] → b ≠ 0 → b ≠ 1 → b ≠ 3 → ProfileField.lock.store v p = none))) ∧
  (∀ (s : State) (old : Profile),
      let pr := s.prof.profile
      handChange .ladder old s = arbitrate { s with arb := { s.arb with ladder := pr.ladder } } ∧
      (∀ f ∈ [ProfileField.rotate, .coldAlternation, .coldCapable, .travelCharge, .minDwell, .callTimeout],
        handChange f old s = arbitrate s) ∧
      (∀ f ∈ [ProfileField.compartments, .weightCap, .volumeCap], handChange f old s = judgeOrphans s) ∧
      handChange .warningMargin old s = { s with offers := s.offers.map fun o => { o with
        exposure := o.exposure.map fun e => { e with warning := decide (e.remaining ≤ pr.warningMargin * 10) } } } ∧
      (∀ f ∈ [ProfileField.ta, .tp, .minWeighable, .leaveTimeout, .settleGuard, .lapseLimit, .orphanDwell, .putGrace,
        .idleTimeout, .rescueMargin, .mask, .lock], handChange f old s = s) ∧
      (∃ u : State, handChange .laneDepth old s = arbitrate u ∧ u = { s with src := u.src } ∧
        ∀ p : Fin 4, u.src[p] = { s.src[p] with
          depth := if s.src[p].lane.state = .empty then pr.laneDepth[p] else s.src[p].depth }) ∧
      (∃ u : State, handChange .sourceCount old s = arbitrate (judgeDrain u) ∧
        u = { s with src := u.src, link := { s.link with out := u.link.out, lost := u.link.lost } } ∧
        (∃ ns : List Notice, u.link.out = s.link.out ++ ns.map OutEntry.notice ∧ ∀ n ∈ ns, n.clock = s.bench.clock ∧
          ∃ p : Fin 4, u.src[p].state ≠ s.src[p].state ∧
            n.body = .position (.src p) (.source u.src[p].state) u.src[p].cause) ∧
        ∀ p : Fin 4,
          let x := s.src[p]
          let blank : SrcPos := { x with state := .closed, cause := none, face := {}, lane := {} }
          (p.val < pr.sourceCount ∨ old.sourceCount ≤ p.val → u.src[p] = x) ∧
          (pr.sourceCount ≤ p.val → p.val < old.sourceCount → u.src[p] = (match x.state with
            | .closed => x
            | .closing => x
            | .faulted => blank
            | .opn => if x.face.state = .empty ∧ x.lane.state = .empty then blank else { x with state := .closing }))) ∧
      (let u := handChange .orderCount old s
       u = { s with
          wall := { s.wall with pos := u.wall.pos }, link := { s.link with out := u.link.out, lost := u.link.lost } } ∧
        (∃ ns : List Notice, u.link.out = s.link.out ++ ns.map OutEntry.notice ∧ ∀ n ∈ ns, n.clock = s.bench.clock ∧
          ∃ q : Fin 12, u.wall.pos[q].state ≠ s.wall.pos[q].state ∧
            (n.body = .position (.ord q) (.order .closed) none ∨ ∃ r : Rec, s.wall.pos[q].record = some r ∧
              n.body = .wall q (some (r.ref, r.tote)) (.released r.comps true none))) ∧
        ∀ q : Fin 12, u.wall.pos[q] =
          if pr.orderCount < old.orderCount ∧ pr.orderCount ≤ q.val ∧
            (s.wall.pos[q].state = .empty ∨ s.wall.pos[q].state = .faulted)
          then { surveyT := s.wall.pos[q].surveyT } else s.wall.pos[q]))

/-- The effective lock is the stronger of the stored lock and SHIFT while the flag is set, and decides PROFILE-SET and
PROFILE-STORE by the table of R152.
PROFILE-STORE: BUSY while a store runs, DENIED by the lock, else the volatile profile goes into the image with its check
and the image is INVALID while the store lasts (R150). LOCK-SHIFT: BUSY while a store runs, else the SHIFT flag is set,
the effective lock is worked out afresh, and nothing else changes (R153).
The completion of a store (R151): OK makes the image VALID and its lock the stored lock; FAILED leaves the image INVALID
and the stored lock as it was, and what the image memory then holds is left open, but that it is not the volatile
profile with an agreeing check (log entry 39); the effective lock is worked out afresh and the STORED notice is handed
over. With no store in progress nothing changes. -/
def Obligations.LocksAndTheStoredImage : Prop :=
  ((∀ l : Lock, effectiveLock l false = l ∧ (effectiveLock l true).strength = max l.strength Lock.shift.strength) ∧
  ∀ key : Bool, lockDenies .opn key = false ∧ lockDenies .keyed key = !key ∧ lockDenies .shift key = true ∧
    lockDenies .fixed key = true) ∧
  (∀ (s : State) (r : Request),
    let u := popRequest s
    (s.canRun .profileStore r →
      (s.prof.storing = true → exec .profileStore s = .next (answer r .busy u)) ∧
      (s.prof.storing = false → lockDenies s.prof.effLock s.inputs.key = true →
        exec .profileStore s = .next (answer r .denied u)) ∧
      (s.prof.storing = false → lockDenies s.prof.effLock s.inputs.key = false →
        exec .profileStore s = .next (answer r (.ok .none) { u with prof := { s.prof with
          image := s.prof.profile, check := crc16 s.prof.profile.bytes, imageValid := false, storing := true } }))) ∧
    (s.canRun .lockShift r →
      (s.prof.storing = true → exec .lockShift s = .next (answer r .busy u)) ∧
      (s.prof.storing = false →
        exec .lockShift s = .next (answer r (.ok (.lock (effectiveLock s.prof.storedLock true))) { u with
          prof := { s.prof with shift := true, effLock := effectiveLock s.prof.storedLock true } })))) ∧
  (∀ s : State, s.inputs.reset = false →
    (∀ o, s.prof.storing = false → exec (.storeCompletion o) s = .next s) ∧
    (s.prof.storing = true →
      let e := effectiveLock s.prof.image.lock s.prof.shift
      let e' := effectiveLock s.prof.storedLock s.prof.shift
      exec (.storeCompletion .ok) s = .next (notify (.stored .ok s.prof.image.lock e) { s with prof := { s.prof with
        imageValid := true, storedLock := s.prof.image.lock, storing := false, effLock := e } }) ∧
      ∃ (image : Profile) (check spoiled : Nat), ¬ (image = s.prof.profile ∧ check = crc16 image.bytes) ∧
        exec (.storeCompletion .failed) s = .next (notify (.stored .failed s.prof.storedLock e') { s with prof := { s.prof with
          image := image, check := check, spoiled := spoiled, imageValid := false, storing := false, effLock := e' } })))

/-- PROFILE-GET changes nothing but the reply (R149): the whole profile, one field, or RANGE for an identifier of no
field, each with the statuses, the locks, the SHIFT flag, the store and the KEY input as they stand. The four QUERYs
change nothing but the inbox, the reply, and, for QUERY BENCH, the lost flag, which the reply reports and which is then
clear (R168, R169). Each reply holds the items of R169: places in the offer list are counted from 1 (R1), exposure
figures are in whole seconds rounded down (R118). The bytes of the requests, form codes 0 to 3, side codes 0 and 1, and
a field's identifier as its place in R145, are the model's choice (log entry 5). -/
def Obligations.QueriesAndProfileGetReport : Prop :=
  (∀ (s : State) (r : Request), s.canRun .profileGet r →
    let u := popRequest s
    let report := fun vs : List ProfileValue => ReplyBody.ok (.profile {
      values := vs, loaded := s.prof.loaded, imageValid := s.prof.imageValid, storedLock := s.prof.storedLock,
      effLock := s.prof.effLock, shift := s.prof.shift, storing := s.prof.storing, key := s.inputs.key })
    (r.body = [] → exec .profileGet s = .next (answer r (report (profileFields.map fun f => f.read s.prof.profile)) u)) ∧
    ∀ i rest, r.body = i :: rest →
      (26 ≤ i.toNat → exec .profileGet s = .next (answer r .range u)) ∧
      ∀ f, profileFields[i.toNat]? = some f →
        exec .profileGet s = .next (answer r (report [f.read s.prof.profile]) u)) ∧
  (∀ (s : State) (r : Request),
    let u := popRequest s
    (s.canRun .queryBench r → ∀ rest, r.body = 0 :: rest →
      exec .queryBench s = .next (answer r (.ok (.bench {
        mode := s.bench.mode, picker := s.picker.cond, idleLeft := s.picker.idleT, clock := s.bench.clock,
        loaded := s.prof.loaded, lost := s.link.lost, offers := s.offers.length, inbox := s.link.inbox.length - 1,
        notices := noticeCount s, ladder := s.arb.ladder, lastCold := s.arb.lastCold, cycle := s.put.cycle,
        graceLeft := s.put.graceT, lastServed := s.put.lastServed })) { u with link := { u.link with lost := false } })) ∧
    (s.canRun .queryPosition r → ∀ (n : Byte) rest,
      (∀ p : Fin 4, r.body = 1 :: 0 :: n :: rest → n.toNat = p.val →
        exec .queryPosition s = .next (answer r (.ok (.source {
          state := s.src[p].state, cause := s.src[p].cause
          slots := if s.src[p].state = .opn ∨ s.src[p].state = .closing then some (s.src[p].face, s.src[p].lane)
            else none })) u)) ∧
      (∀ q : Fin 12, r.body = 1 :: 1 :: n :: rest → n.toNat = q.val →
        let x := s.wall.pos[q]
        exec .queryPosition s = .next (answer r (.ok (.order {
          state := x.state, cause := x.cause, latest := x.latest, leaveT := x.leaveT, settleT := x.settleT,
          removeLight := x.removeLight, record := x.record })) u)) ∧
      (r.body = 1 :: 0 :: n :: rest → 4 ≤ n.toNat → exec .queryPosition s = .next (answer r .range u)) ∧
      (r.body = 1 :: 1 :: n :: rest → 12 ≤ n.toNat → exec .queryPosition s = .next (answer r .range u))) ∧
    (s.canRun .queryOffer r → ∀ t bs, r.body = 2 :: bs → readId bs = some t →
      (findOffer t s = none → exec .queryOffer s = .next (answer r .notFound u)) ∧
      ∀ o, findOffer t s = some o → ∃ i : Nat, s.offers[i]? = some o ∧
        exec .queryOffer s = .next (answer r (.ok (.offer {
          index := i + 1, tote := o.tote, temp := o.temp,
          exposure := o.exposure.map fun e => {
            budget := e.budget, used := e.used / 10, remaining := (e.budget * 10 - e.used) / 10, warning := e.warning,
            counted := o.counted }
          lines := o.lines, state := o.state, place := o.place, lapses := o.lapses, ret := o.ret,
          presented := o.presented, reason := o.reason
          summary := o.lines.map fun l => { ref := l.ref, qty := l.qty, done := l.done, state := l.state } })) u)) ∧
    (s.canRun .queryOrder r → ∀ ref bs, r.body = 3 :: bs → readId bs = some ref →
      ((∀ (q : Fin 12) (x : Rec), s.wall.pos[q].record = some x → x.ref ≠ ref) →
        exec .queryOrder s = .next (answer r .notFound u)) ∧
      ((∃ (q : Fin 12) (x : Rec), s.wall.pos[q].record = some x ∧ x.ref = ref) →
        ∃ l : List (Fin 12 × OrdState × Rec),
          (∀ q st x, (q, st, x) ∈ l ↔ s.wall.pos[q].record = some x ∧ x.ref = ref ∧ s.wall.pos[q].state = st) ∧
          l.Pairwise (fun a b => a.2.2.seq ≤ b.2.2.seq) ∧
          exec .queryOrder s = .next (answer r (.ok (.records l)) u))))

/-! ## The logic inputs and the source positions -/

/-- KEY_INPUT_CHANGE moves the level alone (R154). HOLD_ON makes the picker HELD with its notice, stops the idle timer
and turns every remove light off, with a dark LIGHT for each, the lit cycle being kept and its two displays sent a dark
LIGHT (R86, R131). HOLD_OFF makes the picker ACTIVE again, starts the idle timer afresh when a cycle is lit, sends LIGHT
orders for what the lit cycle shows (R85) and for the remove light of each misput record at an ACTIVE position (R86),
and is followed by an arbitration and an attempt (R132). A level that does not change the condition changes nothing
else. -/
def Obligations.HoldAndKeyInputs : Prop :=
  (∀ (s : State) (b : Bool), exec (.keyInputChange b) s = .next { s with inputs := { s.inputs with key := b } }) ∧
  ∀ s : State, s.inputs.reset = false →
    let on : State := { s with inputs := { s.inputs with hold := true } }
    let off : State := { s with inputs := { s.inputs with hold := false } }
    let lit := fun pos : Pos => s.put.cycle.filter fun c => decide (pos = .src c.src ∨ pos = .ord c.tgt)
    let sent := fun (pos : Pos) (o : Order) (l : FieldLine) => if isFaulted pos s then l else FieldLine.hand o false l
    (s.picker.cond = .held → exec .holdOn s = .next on) ∧
    (s.picker.cond ≠ .held → ∃ t, exec .holdOn s = .next t ∧ t.inputs = on.inputs ∧
      t.picker = { cond := .held, idleT := none } ∧ t.put = s.put ∧ t.offers = s.offers ∧ t.src = s.src ∧
      t.arb = s.arb ∧ t.bench = s.bench ∧ t.prof = s.prof ∧ t.pending = s.pending ∧
      t.wall.counter = s.wall.counter ∧
      (∀ q : Fin 12, t.wall.pos[q] = { s.wall.pos[q] with removeLight := false }) ∧
      (∀ p : Fin 4, t.lines[lineOf (.src p)] = match lit (.src p) with
        | none => s.lines[lineOf (.src p)]
        | some _ => sent (.src p) (.light .source .dark) s.lines[lineOf (.src p)]) ∧
      (∀ q : Fin 12,
        let l := match lit (.ord q) with
          | none => s.lines[lineOf (.ord q)]
          | some c => sent (.ord q) (.light (.comp c.comp) .dark) s.lines[lineOf (.ord q)]
        t.lines[lineOf (.ord q)] = if s.wall.pos[q].removeLight then sent (.ord q) (.light .all .dark) l else l) ∧
      t.link = (notify (.picker .held s.picker.cond .holdOn) s).link) ∧
    (s.picker.cond ≠ .held → exec .holdOff s = .next off) ∧
    (s.picker.cond = .held → ∃ u, exec .holdOff s = .next (attempt (arbitrate u)) ∧ u.inputs = off.inputs ∧
      u.picker = { cond := .active, idleT :=
        if s.put.cycle.isSome then some (s.prof.profile.idleTimeout * 10) else s.picker.idleT } ∧
      u.put = s.put ∧ u.offers = s.offers ∧ u.src = s.src ∧ u.arb = s.arb ∧ u.bench = s.bench ∧ u.prof = s.prof ∧
      u.pending = s.pending ∧
      (∀ q : Fin 12,
        let marked := s.wall.pos[q].state = .active ∧ ∃ x, s.wall.pos[q].record = some x ∧ x.misput = true
        let l := match lit (.ord q) with
          | none => s.lines[lineOf (.ord q)]
          | some c => sent (.ord q) (.light (.comp c.comp) (match c.state with
            | .lit => .count (c.n - c.acc)
            | .remove m => .remove m
            | .check => .check)) s.lines[lineOf (.ord q)]
        (marked → u.wall.pos[q] = { s.wall.pos[q] with removeLight := true } ∧
          u.lines[lineOf (.ord q)] = FieldLine.hand (.light .all .removeAll) false l) ∧
        (¬ marked → u.wall.pos[q] = s.wall.pos[q] ∧ u.lines[lineOf (.ord q)] = l)) ∧
      (∀ p : Fin 4, u.lines[lineOf (.src p)] = match lit (.src p) with
        | none => s.lines[lineOf (.src p)]
        | some c => sent (.src p) (.light .source (match c.state with
          | .lit => .count (c.n - c.acc)
          | .remove _ => .dark
          | .check => .dark)) s.lines[lineOf (.src p)]) ∧
      u.link = (notify (.picker .active .held .holdOff) s).link)

/-- ARRIVED at a source position (R28 to R31): the awaited tote at the face or at the lane, the tote followed forward, a
repeat report, an unread and a wrong tote; a report from a FAULTED or surveyed position, or with an id no module sends,
is not taken.
The face checks come first, then the arbitration, then the attempt: the model's choice and reading (log entries 33 and
26). -/
def Obligations.SourceArrivalsByTheAwaitingSlot : Prop :=
  ∀ (s : State) (p : Fin 4), s.inputs.reset = false →
    (∀ sl id, takesReports (.src p) s = false ∨ validId id = false → exec (.sourceArrived p sl id) s = .next s) ∧
    (takesReports (.src p) s = true →
      (∀ sl, exec (.sourceArrived p sl none) s = .next (notify (.release none .unread (some (p, sl)) none [])
        (handOrder (.src p) (.gate (exitGate sl)) s))) ∧
      ∀ x : Nat, 1 ≤ x → x ≤ 4294967295 →
        let f := s.src[p].face
        let l := s.src[p].lane
        let awaited := (f.state = .called ∨ f.state = .advancing) ∧ f.offer = some x
        let atFace : State := { s with
          src := s.src.set p { s.src[p] with face := { state := .present, offer := some x } }
          offers := s.offers.map fun o => if o.tote = x then
            { o with state := .present, place := some (p, .face), presented := some s.bench.clock } else o }
        (awaited → f.held = none →
          exec (.sourceArrived p .face (some x)) s = .next (attempt (arbitrate (judgeFace p atFace)))) ∧
        (∀ h, awaited → f.held = some h →
          exec (.sourceArrived p .face (some x)) s =
            .next (attempt (arbitrate (releaseSlot p .face x h.reason atFace)))) ∧
        (¬ awaited → f.state = .present → f.offer = some x → exec (.sourceArrived p .face (some x)) s = .next s) ∧
        (¬ awaited → ¬ (f.state = .present ∧ f.offer = some x) →
          exec (.sourceArrived p .face (some x)) s = .next (notify (.release (some x) .wrongTote (some (p, .face)) none [])
            (handOrder (.src p) (.gate .faceExit) s))) ∧
        (l.state = .called → l.offer = some x → exec (.sourceArrived p .lane (some x)) s = .next { s with
          src := s.src.set p { s.src[p] with lane := { state := .staged, offer := some x } }
          offers := s.offers.map fun o => if o.tote = x then
            { o with state := .staged, place := some (p, .lane) } else o }) ∧
        (¬ (l.state = .called ∧ l.offer = some x) → f.state = .called → f.offer = some x → s.src[p].depth = 1 →
          exec (.sourceArrived p .lane (some x)) s = .next { s with
            src := s.src.set p { s.src[p] with face := { f with state := .advancing } }
            lines := (handOrder (.src p) (.gate .advance) s).lines
            offers := s.offers.map fun o => if o.tote = x then
              { o with state := .staged, place := some (p, .face) } else o }) ∧
        (¬ (l.state = .called ∧ l.offer = some x) → ¬ (f.state = .called ∧ f.offer = some x ∧ s.src[p].depth = 1) →
          (l.state = .staged ∧ l.offer = some x ∨ f.state = .advancing ∧ f.offer = some x →
            exec (.sourceArrived p .lane (some x)) s = .next s) ∧
          (¬ (l.state = .staged ∧ l.offer = some x ∨ f.state = .advancing ∧ f.offer = some x) →
            exec (.sourceArrived p .lane (some x)) s =
              .next (notify (.release (some x) .wrongTote (some (p, .lane)) none [])
                (handOrder (.src p) (.gate .laneExit) s)))))

/-- DEPARTED at a LEAVING slot (R18, R36), the expiry of the settle guard (R35) and the lapse of a call (R19, R55). At
the end of a guard the STAGED tote advances and its offer's place becomes the face; a call moves from the lane to the
face with the time it has left, the offer's place with it (R4, R35), and one with no time left lapses there at once
(R56; within the step, log entry 23). A report or expiry that finds its slot or timer otherwise changes nothing (the
model's choice, log entry 12), a lapse and the arbitration it starts are one step (log entry 13), and LAPSE stands
before the notices of the position and the drain (log entry 32).
What follows a slot made EMPTY: the lane depth is the profile's while the lane is EMPTY (R42); a CLOSING position with
both slots EMPTY becomes CLOSED with its POSITION notice (R39); in DRAINING, with every face and lane EMPTY, the mode
becomes DRAINED with its BENCH notice (R139), which is queued last (log entry 32). -/
def Obligations.SourceSlotsEmpty : Prop :=
  (∀ (s : State) (p : Fin 4), s.inputs.reset = false →
      let x := s.src[p]
      (takesReports (.src p) s = true → x.face.state = .leaving →
        let u : State := { s with src := s.src.set p { x with face :=
          { state := .settling, settleT := some s.prof.profile.settleGuard } } }
        (x.face.offer = none → exec (.sourceDeparted p .face) s = .next u) ∧
        ∀ t o, x.face.offer = some t → findOffer t s = some o →
          (o.reason = some .idleRescue → exec (.sourceDeparted p .face) s = .next (arbitrate { u with
            offers := s.offers.map fun o => if o.tote = t then
              { o with state := .waiting, place := none, presented := none, reason := none, ret := true } else o })) ∧
          (o.reason ≠ some .idleRescue → exec (.sourceDeparted p .face) s = .next (dropOffer t u))) ∧
      (takesReports (.src p) s = true → x.lane.state = .leaving →
        exec (.sourceDeparted p .lane) s = .next (arbitrate (slotSettled p (offerDeparts x.lane.offer { s with
          src := s.src.set p { x with
            lane := {}
            face := if x.face.state = .settling ∧ x.face.settleT = none then {} else x.face } })))) ∧
      (takesReports (.src p) s = false → ∀ sl, exec (.sourceDeparted p sl) s = .next s) ∧
      (x.face.state ≠ .leaving → exec (.sourceDeparted p .face) s = .next s) ∧
      (x.lane.state ≠ .leaving → exec (.sourceDeparted p .lane) s = .next s) ∧
      (x.face.settleT ≠ some 0 → exec (.settleTimerExpiry p) s = .next s) ∧
      (x.face.settleT = some 0 →
        (x.lane.state = .staged → ∃ u, exec (.settleTimerExpiry p) s = .next (arbitrate (slotSettled p u)) ∧
          u.src = s.src.set p { x with
            face := { state := .advancing, offer := x.lane.offer,
                      callT := some (s.prof.profile.callTimeout * 10) }
            lane := {} } ∧
          (∀ t, x.lane.offer = some t → u.offers = s.offers.map fun o =>
            if o.tote = t then { o with place := some (p, .face) } else o) ∧
          u.lines = (handOrder (.src p) (.gate .advance) s).lines ∧ u.link = s.link ∧ u.wall = s.wall ∧ u.put = s.put) ∧
        (∀ n, x.lane.state = .called → x.lane.callT = some (n + 1) → ∃ u,
          exec (.settleTimerExpiry p) s = .next (arbitrate (slotSettled p u)) ∧
          u.src = s.src.set p { x with
            face := { state := .called, offer := x.lane.offer, callT := some (n + 1) }
            lane := {} } ∧
          (∀ t, x.lane.offer = some t → u.offers = s.offers.map fun o =>
            if o.tote = t then { o with place := some (p, .face) } else o) ∧
          u.lines = s.lines ∧ u.link = s.link ∧ u.wall = s.wall ∧ u.put = s.put) ∧
        (∀ t o, x.lane.state = .called → x.lane.callT = some 0 → x.lane.offer = some t → findOffer t s = some o →
          let v : State := { s with src := s.src.set p { x with face := {}, lane := {} } }
          let n := o.lapses + 1
          exec (.settleTimerExpiry p) s = .next (arbitrate (slotSettled p (arbitrate (slotSettled p (
            notify (.lapse t p .face n o.summary (decide (s.prof.profile.lapseLimit ≤ n))) (
              if s.prof.profile.lapseLimit ≤ n then dropOffer t v
              else { v with offers := s.offers.map fun o' => if o'.tote = t then
                { o' with state := .waiting, place := none, presented := none, reason := none, lapses := n }
                else o' }))))))) ∧
        (x.lane.state = .leaving → exec (.settleTimerExpiry p) s =
          .next { s with src := s.src.set p { x with face := { x.face with settleT := none } } }) ∧
        (x.lane.state = .empty → exec (.settleTimerExpiry p) s =
          .next (arbitrate (slotSettled p { s with src := s.src.set p { x with face := {} } })))) ∧
      (∀ sl t o, x.callTimer sl = some 0 → x.named sl = some t → findOffer t s = some o →
        let u : State := { s with src := s.src.set p (match sl with
          | .face => { x with face := {} }
          | .lane => { x with lane := {} }) }
        (o.lapses + 1 < s.prof.profile.lapseLimit → exec (.lapse p sl) s = .next (arbitrate (slotSettled p
          (notify (.lapse t p sl (o.lapses + 1) o.summary false) { u with
            offers := s.offers.map fun o' => if o'.tote = t then
              { o' with state := .waiting, place := none, presented := none, reason := none, lapses := o.lapses + 1 }
              else o' })))) ∧
        (s.prof.profile.lapseLimit ≤ o.lapses + 1 → exec (.lapse p sl) s = .next (arbitrate (slotSettled p
          (notify (.lapse t p sl (o.lapses + 1) o.summary true) (dropOffer t u)))))) ∧
      ∀ sl, x.callTimer sl ≠ some 0 → exec (.lapse p sl) s = .next s) ∧
  (∀ s : State,
    let empty := ∀ p : Fin 4, s.src[p].face.state = .empty ∧ s.src[p].lane.state = .empty
    (s.bench.mode = .draining → empty →
      judgeDrain s = notify (.benchMode .drained .draining) { s with bench := { s.bench with mode := .drained } }) ∧
    (s.bench.mode ≠ .draining ∨ ¬ empty → judgeDrain s = s)) ∧
  ∀ (s : State) (p : Fin 4),
    let x := s.src[p]
    let d := if x.lane.state = .empty then s.prof.profile.laneDepth[p] else x.depth
    (x.state = .closing → x.face.state = .empty → x.lane.state = .empty → slotSettled p s =
      judgeDrain (notify (.position (.src p) (.source .closed) none) { s with src := s.src.set p { x with
        state := .closed, cause := none, face := {}, lane := {}, depth := d } })) ∧
    (x.state ≠ .closing ∨ x.face.state ≠ .empty ∨ x.lane.state ≠ .empty →
      slotSettled p s = judgeDrain { s with src := s.src.set p { x with depth := d } })

/-- A fault of a source or order position, by a FAULT report (R40, R75, R159) or by the expiry of a leave timer (R34,
R74): the position becomes FAULTED with its cause, its slot states, timers and line orders go, no cycle is left with it
as source or target, and an order tote record is kept only from EXPECTED, ARRIVED and ACTIVE, DISTURBED with cause
FAULT. The offers a source position names are removed, and where it is not the source of the lit cycle the RELEASE
notices with reason FAULT, the face's first, are followed by the POSITION notice and the drain judgement (R20, R40);
that order of POSITION and BENCH DRAINED is the model's choice (log entry 32).
A FAULTED position keeps its first cause, a report in the start-up survey is discarded (R160); a FAULT report in the
survey of a POS-OPEN is in SurveysEnd. An expiry that finds its timer otherwise changes nothing (the model's choice, log
entry 12), and so is that leaving ACTIVE hands no dark LIGHT (log entry 36). -/
def Obligations.FaultsDropThePosition : Prop :=
  ∀ s : State, s.inputs.reset = false →
    (∀ p : Fin 4,
      let dropped := fun (c : Cause) (t : State) =>
        t.src[p] = { s.src[p] with state := .faulted, cause := some c, face := {}, lane := {},
                                   depth := t.src[p].depth } ∧
        t.lines[lineOf (.src p)].orders = [] ∧ t.lines[lineOf (.src p)].ackT = none ∧
        (s.src[p].state ≠ .closed → ∀ c', t.put.cycle = some c' → c'.src ≠ p) ∧
        (s.src[p].state = .opn ∨ s.src[p].state = .closing → ∀ o ∈ t.offers,
          s.src[p].face.offer ≠ some o.tote ∧ s.src[p].lane.offer ≠ some o.tote)
      let gone := fun (sl : Slot) (named : Option Nat) (u : State) => match named.bind fun t => findOffer t u with
        | none => u
        | some o => notify (.release (some o.tote) .fault (some (p, sl)) o.remainingSeconds o.summary)
            (dropOffer o.tote u)
      (∀ c, s.src[p].state = .opn ∨ s.src[p].state = .closing → s.src[p].surveyT = none →
        (∀ k, s.put.cycle = some k → k.src ≠ p) →
        exec (.faultReport (.src p) c) s = .next (judgeDrain
          (notify (.position (.src p) (.source .faulted) (some (causeOf c)))
            { gone .lane s.src[p].lane.offer (gone .face s.src[p].face.offer s) with
              src := s.src.set p { s.src[p] with
                state := .faulted, cause := some (causeOf c), face := {}, lane := {},
                depth := s.prof.profile.laneDepth[p] }
              lines := s.lines.set (lineOf (.src p)) { s.lines[lineOf (.src p)] with orders := [], ackT := none } }))) ∧
      (s.src[p].state ≠ .faulted → s.src[p].surveyT = none → ∀ c, ∃ t,
        exec (.faultReport (.src p) c) s = .next t ∧ dropped (causeOf c) t) ∧
      (∀ sl, s.src[p].state ≠ .faulted → s.src[p].leaveTimer sl = some 0 → ∃ t,
        exec (.jam p sl) s = .next t ∧ dropped (.jam (some sl)) t) ∧
      (∀ sl, s.src[p].leaveTimer sl ≠ some 0 → exec (.jam p sl) s = .next s)) ∧
    (∀ q : Fin 12,
      let dropped := fun (c : Cause) (t : State) =>
        t.wall.pos[q].unmarked = ({
          state := .faulted
          record := if s.wall.pos[q].state.holds then
            s.wall.pos[q].record.map fun r => { r with cond := .disturbed .fault, misput := false } else none
          former := if s.wall.pos[q].state.holds then some s.wall.pos[q].state else none
          latest := s.wall.pos[q].latest
          cause := some c
          surveyT := s.wall.pos[q].surveyT } : OrdPos).unmarked ∧
        t.lines[lineOf (.ord q)].orders = [] ∧ t.lines[lineOf (.ord q)].ackT = none ∧
        ∀ c', t.put.cycle = some c' → c'.tgt ≠ q
      (s.wall.pos[q].state ≠ .faulted → s.wall.pos[q].surveyT = none → ∀ c, ∃ t,
        exec (.faultReport (.ord q) c) s = .next t ∧ dropped (causeOf c) t) ∧
      (s.wall.pos[q].state ≠ .faulted → s.wall.pos[q].leaveT = some 0 → ∃ t,
        exec (.orderLeaveTimerExpiry q) s = .next t ∧ dropped (.jam none) t) ∧
      (s.wall.pos[q].leaveT ≠ some 0 → exec (.orderLeaveTimerExpiry q) s = .next s)) ∧
    ∀ pos c, isFaulted pos s = true ∧ inSurvey pos s = false ∨ inSurvey pos s = true ∧ s.bench.surveying = true →
      exec (.faultReport pos c) s = .next s

/-- WARNING_MARGIN_REACHED judges the warning flag of an offer (R121), in any state, so also where another event of the
same moment has returned it to WAITING (the model's reading, log entry 44). EXPOSURE_EXPIRY of an offer with no exposure
left (R122): at a face that is not the lit source, or at the lane, its release is ordered with reason EXPOSED; an
ADVANCING face holds it (R33); at the lit source the put grace starts (R124), and a put grace of 0 expires at once.
PUT_GRACE_TIMER_EXPIRY cancels the lit cycle and makes an attempt (R98, R125).
An expiry that finds its timer or figure otherwise changes nothing (the model's choice, log entry 12); that a put grace
of 0 expires within the step is read from R124 (log entry 23). -/
def Obligations.ExposureEvents : Prop :=
  (∀ s : State, s.inputs.reset = false →
    (∀ c, s.put.cycle = some c → c.grace = true → s.put.graceT = some 0 →
      exec .putGraceTimerExpiry s = .next (attempt (cancelCycle c none s))) ∧
    (s.put.graceT ≠ some 0 ∨ (∀ c, s.put.cycle = some c → c.grace = false) →
      exec .putGraceTimerExpiry s = .next s)) ∧
  ∀ (s : State) (t : Nat) (o : Offer), s.inputs.reset = false → findOffer t s = some o →
    exec (.warningMarginReached t) s = .next { s with offers := s.offers.map fun o => if o.tote = t then
      { o with exposure := o.exposure.map fun e => { e with
        warning := decide (e.remaining ≤ s.prof.profile.warningMargin * 10) } } else o } ∧
    ((o.state = .waiting ∨ o.state = .called) → exec (.exposureExpiry t) s = .next s) ∧
    (o.state = .leaving → exec (.exposureExpiry t) s = .next s) ∧
    ((∀ e, o.exposure = some e → e.remaining ≠ 0) → exec (.exposureExpiry t) s = .next s) ∧
    ∀ e, o.exposure = some e → e.remaining = 0 →
      (∀ p, o.state = .present → o.place = some (p, .face) → s.src[p].face.state = .present →
        ((∀ c, s.put.cycle = some c → c.src ≠ p) →
          exec (.exposureExpiry t) s = .next (releaseSlot p .face t .exposed s)) ∧
        ∀ c, s.put.cycle = some c → c.src = p →
          (c.grace = true → exec (.exposureExpiry t) s = .next s) ∧
          (c.grace = false →
            let u : State := { s with put := { s.put with
              cycle := some { c with grace := true }, graceT := some (s.prof.profile.putGrace * 10) } }
            (0 < s.prof.profile.putGrace → exec (.exposureExpiry t) s = .next u) ∧
            (s.prof.profile.putGrace = 0 → exec (.exposureExpiry t) s =
              .next (attempt (cancelCycle { c with grace := true } none u))))) ∧
      (∀ p, o.state = .staged → o.place = some (p, .lane) → s.src[p].lane.state = .staged →
        exec (.exposureExpiry t) s = .next (releaseSlot p .lane t .exposed s)) ∧
      (∀ p, o.state = .staged → o.place = some (p, .face) → s.src[p].face.state = .advancing →
        exec (.exposureExpiry t) s = .next { s with src := s.src.set p { s.src[p] with face :=
          { s.src[p].face with held := some (s.src[p].face.held.getD .exposed) } } })

/-- ORPHAN_TIMER_EXPIRY at a PRESENT face releases its tote with reason ORPHAN (R38). IDLE_TIMER_EXPIRY makes the picker
IDLE with its notice and stops the timer (R135); idle rescue then examines the slots in ascending index, the face before
the lane (R126): a cold offer with remaining exposure at or below the rescue margin is released with reason IDLE-RESCUE
from a PRESENT face that is not the lit source and from a STAGED lane, its release is held at an ADVANCING face unless
one is held already, and at the lit source and at CALLED and LEAVING slots it is passed over; an offer above the margin,
or without exposure figures, stays, and a margin of 0 rescues nothing. An expiry that finds its timer otherwise changes
nothing (log entry 12). -/
def Obligations.OrphanAndIdleExpiries : Prop :=
  (∀ s : State, s.inputs.reset = false →
    (∀ (p : Fin 4) (t : Nat), s.src[p].face.orphanT = some 0 → s.src[p].face.state = .present →
      s.src[p].face.offer = some t → exec (.orphanTimerExpiry p) s = .next (releaseSlot p .face t .orphan s)) ∧
    (∀ p : Fin 4, s.src[p].face.orphanT ≠ some 0 → exec (.orphanTimerExpiry p) s = .next s) ∧
    (s.picker.idleT ≠ some 0 → exec .idleTimerExpiry s = .next s) ∧
    (s.picker.idleT = some 0 → exec .idleTimerExpiry s = .next
      ([((0 : Fin 4), Slot.face), (0, .lane), (1, .face), (1, .lane), (2, .face), (2, .lane), (3, .face), (3, .lane)].foldl
        rescueSlot
        (notify (.picker .idle s.picker.cond .idleExpiry) { s with picker := { cond := .idle, idleT := none } })))) ∧
  ∀ (v : State) (p : Fin 4),
    let f := v.src[p].face
    let l := v.src[p].lane
    let due := fun o : Offer => 0 < v.prof.profile.rescueMargin ∧
      ∃ e, o.exposure = some e ∧ e.remaining ≤ v.prof.profile.rescueMargin * 10
    (f.state ≠ .present → f.state ≠ .advancing → rescueSlot v (p, .face) = v) ∧
    (l.state ≠ .staged → rescueSlot v (p, .lane) = v) ∧
    (f.offer = none → rescueSlot v (p, .face) = v) ∧ (l.offer = none → rescueSlot v (p, .lane) = v) ∧
    (∀ t o, f.offer = some t → findOffer t v = some o →
      (¬ due o → rescueSlot v (p, .face) = v) ∧
      (due o → o.place = some (p, .face) →
        (f.state = .present → (∃ c, v.put.cycle = some c ∧ c.src = p) → rescueSlot v (p, .face) = v) ∧
        (f.state = .present → (∀ c, v.put.cycle = some c → c.src ≠ p) →
          rescueSlot v (p, .face) = releaseSlot p .face t .idleRescue v) ∧
        (f.state = .advancing → rescueSlot v (p, .face) = { v with src := v.src.set p { v.src[p] with
          face := { f with held := some (f.held.getD .idleRescue) } } }))) ∧
    ∀ t o, l.offer = some t → findOffer t v = some o →
      (¬ due o → rescueSlot v (p, .lane) = v) ∧
      (due o → o.place = some (p, .lane) → l.state = .staged →
        rescueSlot v (p, .lane) = releaseSlot p .lane t .idleRescue v)

/-! ## The order positions and the picker -/

/-- ARRIVED, DEPARTED and the settle guard of an order position: the table of R68 and R74.
A settle expiry that finds its timer otherwise changes nothing (the model's choice, log entry 12); the order of what
follows an arrival is that of log entry 26; a position at or above the order count when it becomes EMPTY is CLOSED (R76,
log entry 34). -/
def Obligations.OrderPositionReports : Prop :=
  ∀ (s : State) (q : Fin 12), s.inputs.reset = false →
    let x := s.wall.pos[q]
    let sentOut := fun i : Option Nat => notify (.wall q (x.record.map fun r => (r.ref, r.tote)) (.wrongTote i))
      (handOrder (.ord q) (.gate .exit) s)
    let wrong := fun i : Option Nat => notify (.wall q (x.record.map fun r => (r.ref, r.tote)) (.wrongTote i)) s
    (∀ sl i, takesReports (.ord q) s = false ∨ sl.isSome = true ∨ validId i = false →
      exec (.orderArrived q sl i) s = .next s) ∧
    (∀ sl, takesReports (.ord q) s = false ∨ sl.isSome = true ∨ x.state ≠ .leaving →
      exec (.orderDeparted q sl) s = .next s) ∧
    (takesReports (.ord q) s = true → x.state = .leaving → exec (.orderDeparted q none) s = .next { s with
      wall := { s.wall with pos := s.wall.pos.set q { x with
        state := .settling, leaveT := none, settleT := some s.prof.profile.settleGuard } } }) ∧
    (∀ i, takesReports (.ord q) s = true → validId i = true →
      (∀ r, x.state = .expected → x.record = some r → i = some r.tote → exec (.orderArrived q none i) s = .next
        (recordEntered (notify (.wall q (some (r.ref, r.tote)) .arrived)
          { s with wall := { s.wall with pos := s.wall.pos.set q { x with state := .arrived } } }))) ∧
      (x.state = .expected → (∀ r, x.record = some r → i ≠ some r.tote) →
        exec (.orderArrived q none i) s = .next (sentOut i)) ∧
      (x.state = .empty ∨ x.state = .settling → exec (.orderArrived q none i) s = .next (sentOut i)) ∧
      (∀ r, x.state = .arrived ∨ x.state = .active ∨ x.state = .leaving → x.record = some r → i = some r.tote →
        exec (.orderArrived q none i) s = .next s) ∧
      (x.state = .arrived ∨ x.state = .active ∨ x.state = .leaving → (∀ r, x.record = some r → i ≠ some r.tote) →
        exec (.orderArrived q none i) s = .next (wrong i)) ∧
      (x.state = .occupied → exec (.orderArrived q none i) s = .next (wrong i)) ∧
      (x.state = .closed →
        exec (.orderArrived q none i) s = .next (handOrder (.ord q) (.gate .exit) s))) ∧
    (x.settleT ≠ some 0 → exec (.orderSettleTimerExpiry q) s = .next s) ∧
    (x.settleT = some 0 →
      let e : OrdPos := { x with state := .empty, record := none, idRead := none, leaveT := none, settleT := none }
      (q.val < s.prof.profile.orderCount → exec (.orderSettleTimerExpiry q) s =
        .next { s with wall := { s.wall with pos := s.wall.pos.set q e } }) ∧
      (s.prof.profile.orderCount ≤ q.val → ∃ t, exec (.orderSettleTimerExpiry q) s = .next t ∧
        t.wall.pos[q] = { surveyT := x.surveyT } ∧
        t.link = (notify (.position (.ord q) (.order .closed) none) s).link))

/-- STABLE from an order position (R60, R68, R69, R87 to R90, R92): the latest stable weight is replaced; an ARRIVED
record becomes ACTIVE with the weight as its baseline, or reports OVERLOAD; at the target of a WEIGH cycle the verdict
acts; at the target of a PRESS cycle nothing more happens; at any other ACTIVE position the condition is judged. The
picker monitor takes the report as activity when it differs from the baseline by more than Ta (R134). That the owner
acts before the picker monitor is the model's choice (log entry 21), the order of what follows a change of a record its
reading (log entry 26), and a weight above 60000 g is discarded (R155, R156; log entry 37).
Charging (R78): the charge weight and unit volume of the line, times the units, are added to the charges of one
compartment of the target, the three full marks are cleared (R79), the baseline is set when that is asked, and the
orphan judgement follows (R38); no other record and nothing else changes; without the line nothing does (log entry 27).
A record that becomes DISTURBED by a report, or changes its cause, is a misput while a cycle is lit: its mark is set,
and its remove light turned on unless the picker is HELD (R69, R70, R86); the notice carries the mark of this change
(log entry 20). A record that becomes CLEAN loses its mark, and a remove light that is on goes off with a dark LIGHT
(R70). The order of each notice and LIGHT order is as written.
The table of R69: a weight more than Ta above the baseline is ABOVE, one more than Ta below it BELOW, OVERLOAD is
OVERLOAD, and a weight within Ta is CLEAN. What recordEntered and wallChanged do is said in WallAddRegistersOrAnswers,
what updateCycle does in PickerKeys. -/
def Obligations.StableWeightsActByOwner : Prop :=
  (((∀ (s : State) (p : Fin 4) (g : Gross), exec (.stable (.src p) g) s = .next s) ∧
      ∀ (s : State) (q : Fin 12) (g : Gross), s.inputs.reset = false →
        (takesReports (.ord q) s = false ∨ validGross g = false → exec (.stable (.ord q) g) s = .next s) ∧
        (takesReports (.ord q) s = true → validGross g = true →
          let x := s.wall.pos[q]
          let u : State := { s with wall := { s.wall with pos := s.wall.pos.set q { x with latest := some g } } }
          let act := fun v : State => if isActivity x g s.prof.profile.ta then activity (.ord q) .stable v else v
          (x.state = .closed → exec (.stable (.ord q) g) s = .next (act s)) ∧
          (x.state ≠ .closed → x.state ≠ .arrived → x.state ≠ .active →
            exec (.stable (.ord q) g) s = .next (act u)) ∧
          (∀ w, x.state = .arrived → g = .grams w → exec (.stable (.ord q) g) s = .next (act (recordEntered
            (notify (.wall q (x.record.map fun r => (r.ref, r.tote)) (.active w)) { s with wall := { s.wall with
              pos := s.wall.pos.set q { x with
                latest := some g, state := .active,
                record := x.record.map fun r => { r with baseline := some w, cond := .clean } } } })))) ∧
          (x.state = .arrived → g = .overload → exec (.stable (.ord q) g) s =
            .next (act (notify (.wall q (x.record.map fun r => (r.ref, r.tote)) .overload) u))) ∧
          (∀ c, x.state = .active → s.put.cycle = some c → c.tgt = q → c.mode = .press →
            exec (.stable (.ord q) g) s = .next (act u)) ∧
          (∀ c l r, x.state = .active → s.put.cycle = some c → c.tgt = q → c.mode = .weigh → cycleLine c s = some l →
            x.record = some r →
            let v := verdict g (r.baseline.getD 0) (c.n - c.acc) l.basis s.prof.profile.ta s.prof.profile.tp
            let base := match g with
              | .grams w => some w
              | .overload => none
            exec (.stable (.ord q) g) s = .next (act (match v with
              | .matched => endCycle { c with acc := c.n, verdict := some v, state := .lit } false
                  (charge c (c.n - c.acc) base { u with put := { s.put with
                    cycle := some { c with acc := c.n, verdict := some v, state := .lit } } })
              | .part k => updateCycle c { c with acc := c.acc + k, verdict := some v, state := .lit } (charge c k base u)
              | _ => updateCycle c { c with verdict := some v, state := stateAfter v } u))) ∧
          (∀ r, x.state = .active → (∀ c, s.put.cycle = some c → c.tgt ≠ q) → x.record = some r →
            (condOf (disturbanceOf g (r.baseline.getD 0) s.prof.profile.ta) = r.cond →
              exec (.stable (.ord q) g) s = .next (act u)) ∧
            (disturbanceOf g (r.baseline.getD 0) s.prof.profile.ta = none → r.cond ≠ .clean →
              exec (.stable (.ord q) g) s = .next (act (wallChanged
                (cleanRecord q (notifyWall q (.clean g (r.baseline.getD 0)) u))))) ∧
            ∀ d, disturbanceOf g (r.baseline.getD 0) s.prof.profile.ta = some d → r.cond ≠ .disturbed d →
              exec (.stable (.ord q) g) s =
                .next (act (wallChanged (disturbByReport q d g (r.baseline.getD 0) u)))))) ∧
    ((∀ (c : Cycle) (k : Nat) (base : Option Nat) (s : State),
        (cycleLine c s = none → charge c k base s = s) ∧
        ∀ l, cycleLine c s = some l → charge c k base s = judgeOrphans { s with wall := { s.wall with
          pos := s.wall.pos.set c.tgt { s.wall.pos[c.tgt] with record := s.wall.pos[c.tgt].record.map fun r => { r with
            comps := r.comps.modify c.comp fun x => { x with
              weight := x.weight + k * l.charge, volume := x.volume + k * l.volume }
            full := ⟨false, false, false⟩
            baseline := match base with
              | none => r.baseline
              | some b => some b } } } }) ∧
      (∀ (q : Fin 12) (d : Disturbance) (g : Gross) (b : Nat) (s : State) (r : Rec), s.wall.pos[q].record = some r →
        let lit := s.put.cycle.isSome
        let u := notify (.wall q (some (r.ref, r.tote)) (.disturbed d g b lit)) { s with wall := { s.wall with
          pos := s.wall.pos.set q { s.wall.pos[q] with record := some { r with
            cond := .disturbed d, misput := r.misput || lit } } } }
        (lit = false ∨ s.picker.cond = .held → disturbByReport q d g b s = u) ∧
        (lit = true → s.picker.cond ≠ .held → disturbByReport q d g b s = handOrder (.ord q) (.light .all .removeAll)
          { u with wall := { u.wall with pos := u.wall.pos.set q { u.wall.pos[q] with removeLight := true } } })) ∧
      ∀ (q : Fin 12) (s : State) (r : Rec), s.wall.pos[q].record = some r →
        let x : OrdPos := { s.wall.pos[q] with record := some { r with cond := .clean, misput := false } }
        let u := fun y : OrdPos => { s with wall := { s.wall with pos := s.wall.pos.set q y } }
        (s.wall.pos[q].removeLight = false → cleanRecord q s = u x) ∧
        (s.wall.pos[q].removeLight = true →
          cleanRecord q s = handOrder (.ord q) (.light .all .dark) (u { x with removeLight := false })))) ∧
  ∀ b ta w : Nat,
    disturbanceOf .overload b ta = some .overload ∧
    (disturbanceOf (.grams w) b ta = some .above ↔ (ta : Int) < (w : Int) - b) ∧
    (disturbanceOf (.grams w) b ta = some .below ↔ (ta : Int) < (b : Int) - w) ∧
    (disturbanceOf (.grams w) b ta = none ↔ |(w : Int) - b| ≤ ta) ∧
    condOf none = .clean ∧ ∀ d, condOf (some d) = .disturbed d

/-- Picker activity (R134): while ACTIVE it restarts the idle timer when a cycle exists, while HELD it does nothing,
while IDLE it makes the picker ACTIVE with its notice, starts the idle timer, and an arbitration and an attempt follow;
a stable weight is activity when its record has a baseline and it differs from it by more than Ta or is OVERLOAD.
KEY_SHORT at the source of the lit cycle ends the cycle short (R93); KEY_BUTTON at the target compartment of a PRESS
cycle counts and charges one unit, and the last one ends the cycle (R91); every key that is taken is picker activity
(R134); any other key has no other effect, and a key of the wrong kind of line none at all (R94, R155). That the owner
acts before the picker monitor is the model's choice (log entry 21).
A cycle that goes on takes its new record, and a LIGHT order goes to each display whose content changes, the source
first: the count n − k_acc on both while LIT, REMOVE with m or CHECK at the target and dark at the source otherwise;
while the picker is HELD none is sent (R85, R86). That a display whose content stays gets none is the model's reading
(log entry 43). -/
def Obligations.PickerKeys : Prop :=
  ((∀ (pos : Pos) (report : ActivityReport) (s : State),
      let timed := fun u : State => if s.put.cycle.isSome then
        { u with picker := { u.picker with idleT := some (s.prof.profile.idleTimeout * 10) } } else u
      (s.picker.cond = .active → activity pos report s = timed s) ∧
      (s.picker.cond = .held → activity pos report s = s) ∧
      (s.picker.cond = .idle → activity pos report s = attempt (arbitrate (timed
        (notify (.picker .active .idle (.activity pos report)) { s with picker := { s.picker with cond := .active } }))))) ∧
    (∀ (x : OrdPos) (g : Gross) (ta : Nat), isActivity x g ta = true ↔ ∃ (r : Rec) (b : Nat), x.record = some r ∧
      r.baseline = some b ∧ (g = .overload ∨ ∃ w, g = .grams w ∧ (b + ta < w ∨ w + ta < b))) ∧
    ∀ s : State, s.inputs.reset = false →
      (∀ q : Fin 12, exec (.keyShort (.ord q)) s = .next s) ∧
      (∀ (p : Fin 4) (j : Nat), exec (.keyButton (.src p) j) s = .next s) ∧
      (∀ p : Fin 4, takesReports (.src p) s = false → exec (.keyShort (.src p)) s = .next s) ∧
      (∀ (q : Fin 12) (j : Nat), takesReports (.ord q) s = false ∨ 5 < j → exec (.keyButton (.ord q) j) s = .next s) ∧
      (∀ p : Fin 4, takesReports (.src p) s = true →
        ((∀ c, s.put.cycle = some c → c.src ≠ p) →
          exec (.keyShort (.src p)) s = .next (activity (.src p) .key s)) ∧
        ∀ c, s.put.cycle = some c → c.src = p →
          exec (.keyShort (.src p)) s = .next (activity (.src p) .key (endCycle c true s))) ∧
      (∀ (q : Fin 12) (j : Nat), takesReports (.ord q) s = true → j ≤ 5 →
        ((∀ c, s.put.cycle = some c → ¬ (c.tgt = q ∧ c.comp = j ∧ c.mode = .press)) →
          exec (.keyButton (.ord q) j) s = .next (activity (.ord q) .key s)) ∧
        ∀ c, s.put.cycle = some c → c.tgt = q → c.comp = j → c.mode = .press →
          let c' := { c with acc := c.acc + 1 }
          (c.acc + 1 < c.n → exec (.keyButton (.ord q) j) s =
            .next (activity (.ord q) .key (updateCycle c c' (charge c 1 none s)))) ∧
          (c.n ≤ c.acc + 1 → exec (.keyButton (.ord q) j) s =
            .next (activity (.ord q) .key (endCycle c' false (putCycle c' (charge c 1 none s))))))) ∧
  ∀ (old new : Cycle) (s : State),
    let source := fun c : Cycle => match c.state with
      | .lit => Show.count (c.n - c.acc)
      | .remove _ => .dark
      | .check => .dark
    let target := fun c : Cycle => match c.state with
      | .lit => Show.count (c.n - c.acc)
      | .remove m => .remove m
      | .check => .check
    let u : State := { s with put := { s.put with cycle := some new } }
    let v := if source old = source new then u else handOrder (.src new.src) (.light .source (source new)) u
    (s.picker.cond = .held → updateCycle old new s = u) ∧
    (s.picker.cond ≠ .held → updateCycle old new s = if target old = target new then v
      else handOrder (.ord new.tgt) (.light (.comp new.comp) (target new)) v)

/-- The end of a put cycle writes its accepted units into the line: the done count grows by them, the line becomes SHORT
when the key ended it, DONE when nothing is left, and stays OPEN otherwise (R95). The put list (R6): the first entry of
the target's tote and compartment grows by the units, without one a new entry is appended at the end, and at 0 units it
stays as it was. A line that closes is the first thing reported, by a LINE notice with its figures and put list, when
the kind is not masked and fewer than 48 notices are held; a line left OPEN is not reported (R96). A cancellation writes
the units in the same way, leaves the line's state, and queues no LINE notice (R98, R99).
The settlement of the target: at the end of a PRESS cycle the baseline becomes the latest stable weight, or on OVERLOAD
the record DISTURBED (R92); at the SHORT of a WEIGH cycle, and at a cancellation whose target is not faulting, a latest
weight beyond Ta of the baseline makes it DISTURBED with its cause, and one within Ta changes nothing (R93, R98); a
MATCH and a fault of the target settle nothing. Full marks apart, nothing else of the target changes.
The hand-over (R97): a put grace that runs is stopped and the tote released with reason EXPOSED before R37 is judged, so
never with DONE (R125); without grace a tote without an OPEN line is released with reason DONE, and otherwise the orphan
condition is judged (R37, R38); at a fault of the source neither is done; then the idle timer stops (R133). Before the
hand-over the source display and then the target compartment get a dark LIGHT order, none while the picker is HELD, and
at a cancellation none at the position that is faulting; no other order goes out until then (R85, R86, R95, R98). That a
record without a baseline is judged against 0 is the model's choice (log entry 27). -/
def Obligations.CycleEndWritesTheLine : Prop :=
  ((∀ (c : Cycle) (s : State) (o : Offer) (l : OLine), s.offersOk → findOffer c.offer s = some o → o.state = .present →
        o.lines[c.line]? = some l →
        let l' := l.accept c.tgtTote c.comp c.acc
        let same := fun e : PutEntry => e.tote = c.tgtTote ∧ e.comp = c.comp
        let isLine := fun n : Notice => ∃ t p i ref q d st ps, n.body = .line t p i ref q d st ps
        let ended := fun short : Bool => (if short then .short else if l.done + c.acc = l.qty then .done else .opn : LineState)
        l'.done = l.done + c.acc ∧
        (c.acc = 0 → l'.puts = l.puts) ∧
        (c.acc ≠ 0 → (∀ e ∈ l.puts, ¬ same e) →
          l'.puts = l.puts ++ [{ tote := c.tgtTote, comp := c.comp, units := c.acc }]) ∧
        (∀ before e after, c.acc ≠ 0 → l.puts = before ++ e :: after → (∀ x ∈ before, ¬ same x) → same e →
          l'.puts = before ++ { e with units := e.units + c.acc } :: after) ∧
        (∀ short : Bool,
          (∃ o', findOffer c.offer (endCycle c short s) = some o' ∧
            o'.lines[c.line]? = some { l' with state := ended short } ∧ ∀ i, i ≠ c.line → o'.lines[i]? = o.lines[i]?) ∧
          ∃ ns : List Notice, (endCycle c short s).link.out = s.link.out ++ ns.map OutEntry.notice ∧
            (ended short ≠ .opn → s.prof.profile.mask.line = true → noticeCount s < 48 → ∃ rest, ns =
              { clock := s.bench.clock
                body := .line c.offer c.src c.line l.ref l.qty (l.done + c.acc) (ended short) l'.puts } :: rest ∧
              ∀ n ∈ rest, ¬ isLine n) ∧
            (ended short = .opn ∨ s.prof.profile.mask.line = false ∨ 48 ≤ noticeCount s → ∀ n ∈ ns, ¬ isLine n)) ∧
        (∃ o', findOffer c.offer (attempt (cancelCycle c none s)) = some o' ∧ o'.lines[c.line]? = some l' ∧
          ∀ i, i ≠ c.line → o'.lines[i]? = o.lines[i]?) ∧
        ∃ ns : List Notice, (attempt (cancelCycle c none s)).link.out = s.link.out ++ ns.map OutEntry.notice ∧
          ∀ n ∈ ns, ¬ isLine n) ∧
    ((∀ (c : Cycle) (s : State) (r : Rec) (g : Gross), s.wall.pos[c.tgt].record = some r →
        s.wall.pos[c.tgt].latest = some g →
        let is := fun (t : State) (r' : Rec) =>
          t.wall.pos[c.tgt].unmarked = OrdPos.unmarked { s.wall.pos[c.tgt] with record := some r' }
        let judged : Rec := match disturbanceOf g (r.baseline.getD 0) s.prof.profile.ta with
          | none => r
          | some d => { r with cond := .disturbed d }
        (∀ short, c.mode = .press → is (endCycle c short s) (match g with
          | .grams w => { r with baseline := some w }
          | .overload => { r with cond := .disturbed .overload })) ∧
        (c.mode = .weigh → is (endCycle c true s) judged ∧ is (endCycle c false s) r) ∧
        (∀ faulting, faulting ≠ some (.ord c.tgt) → is (cancelCycle c faulting s) judged) ∧
        is (cancelCycle c (some (.ord c.tgt)) s) r ∧
        ∀ d, disturbanceOf g (r.baseline.getD 0) s.prof.profile.ta = some d → settleTarget c.tgt s =
          judgeOrphans (notify (.wall c.tgt (some (r.ref, r.tote)) (.disturbed d g (r.baseline.getD 0) false)) { s with
            wall := { s.wall with pos := s.wall.pos.set c.tgt { s.wall.pos[c.tgt] with
              record := some { r with cond := .disturbed d } } } })) ∧
      ∀ (c : Cycle) (s : State) (o : Offer), s.put.cycle = none → s.src[c.src].face.state = .present →
        s.src[c.src].face.offer = some c.offer → findOffer c.offer s = some o → o.place = some (c.src, .face) →
        let stopped : State := { s with put := { s.put with graceT := none } }
        (c.grace = true → handOver c false s = stopIdle (releaseSlot c.src .face c.offer .exposed stopped) ∧
          handOver c true s = stopIdle stopped) ∧
        (c.grace = false → handOver c true s = stopIdle s ∧
          (o.hasOpen = false → handOver c false s = stopIdle (releaseSlot c.src .face c.offer .done s)) ∧
          (o.hasOpen = true → handOver c false s = stopIdle (judgeOrphan c.src s))))) ∧
  ∀ (c : Cycle) (s : State),
    let source := fun (skip : Bool) (v : State) => if skip then v else handOrder (.src c.src) (.light .source .dark) v
    let target := fun (skip : Bool) (v : State) =>
      if skip then v else handOrder (.ord c.tgt) (.light (.comp c.comp) .dark) v
    (∀ short : Bool, ∃ u : State, endCycle c short s = attempt (handOver c false u) ∧ u.put.cycle = none ∧
      (s.picker.cond = .held → u.lines = s.lines) ∧
      (s.picker.cond ≠ .held → u.lines = (target false (source false s)).lines)) ∧
    ∀ faulting : Option Pos, ∃ u : State,
      cancelCycle c faulting s = handOver c (decide (faulting = some (.src c.src))) u ∧ u.put.cycle = none ∧
      (s.picker.cond = .held → u.lines = s.lines) ∧
      (s.picker.cond ≠ .held → u.lines = (target (decide (faulting = some (.ord c.tgt)))
        (source (decide (faulting = some (.src c.src))) s)).lines)

/-! ## Surveys and field lines (chapter 10) -/

/-- The end of a survey: a good answer opens a source position, with the totes found LEAVING, and gives an order
position without a record its state (R25, R61); a record held at a FAULTED position is recovered by the table of R162,
full marks apart; an answer of the wrong kind, and the expiry of the survey timer, leave the position FAULTED with cause
KIND or SURVEY (R25, R160), and so does a FAULT report in the survey of a POS-OPEN or POS-OPEN-ORDER, with cause SURVEY
(R160). The request that waited is answered, OK with the state of the position, REJECT SURVEY or REJECT KIND, and
execution no longer held (R41, R161, R162). The rest of what the end of a survey does, in its order: the line's SURVEY
order goes (log entry 15), the POSITION notice, the RELEASE notices of R25, the face's first, or the WALL notice of R162
(log entry 18), in DRAINED the BENCH notice of a return to DRAINING where a tote was found (R139, log entry 41), the
reply (log entry 11), then an arbitration and an attempt for an opened source position, and what follows a record that
enters EXPECTED, ARRIVED or ACTIVE (R49, R82, R162). A position already FAULTED that fails again queues no POSITION
notice (log entry 18). When no position is in its survey any more the start-up survey is over: SURVEYED is queued with
mode STARTING and the number of positions in each state, and requests are executed again (R142; every position is
counted, log entry 19). Outside a survey an answer is discarded, and an expiry that finds its timer otherwise changes
nothing (the model's choice, log entry 12). -/
def Obligations.SurveysEnd : Prop :=
  (∀ s : State, s.inputs.reset = false →
      (∀ pos a, inSurvey pos s = false ∨ validAnswer a = false → exec (.surveyAnswer pos a) s = .next s) ∧
      (∀ pos, surveyTimer pos s ≠ some 0 → exec (.surveyTimerExpiry pos) s = .next s) ∧
      (∀ (p : Fin 4) (f l : Option (Option Nat)), inSurvey (.src p) s = true → validAnswer (.source f l) = true →
        (s.src[p].depth ≠ 0 ∨ l = none) → ∃ t, exec (.surveyAnswer (.src p) (.source f l)) s = .next t ∧
          t.src[p].state = .opn ∧ t.src[p].cause = none ∧ t.src[p].surveyT = none ∧
          (∀ id, f = some id → t.src[p].face = { state := .leaving, idRead := id,
                                                 leaveT := some (s.prof.profile.leaveTimeout * 10) }) ∧
          (∀ id, l = some id → t.src[p].lane = { state := .leaving, idRead := id,
                                                 leaveT := some (s.prof.profile.leaveTimeout * 10) }) ∧
          (f = none → l ≠ none → t.src[p].face = { state := .settling }) ∧
          ∀ x, s.link.held = some x → x.job = .openSource p → t.link.held = none ∧
            OutEntry.reply { tag := x.req.tag, kind := replyKind x.req.kind, body := .ok (.sourceState .opn) } ∈ t.link.out) ∧
      (∀ (q : Fin 12) (i : Option (Option Nat)) (g : Gross), inSurvey (.ord q) s = true →
        validAnswer (.order i g) = true → s.wall.pos[q].record = none →
        ∃ t, exec (.surveyAnswer (.ord q) (.order i g)) s = .next t ∧ t.wall.pos[q] = { s.wall.pos[q] with
          state := (if i.isSome then .occupied else .empty)
          idRead := (match i with | none => s.wall.pos[q].idRead | some id => id)
          latest := some g, former := none, cause := none, surveyT := none }) ∧
      (∀ (q : Fin 12) (i : Option (Option Nat)) (g : Gross) (x : Rec), inSurvey (.ord q) s = true →
        validAnswer (.order i g) = true → s.wall.pos[q].record = some x →
        let was := s.wall.pos[q].former = some .active
        let y : OrdPos := { s.wall.pos[q] with latest := some g, former := none, cause := none, surveyT := none }
        let clean : Rec := { x with cond := .clean }
        ∃ t, exec (.surveyAnswer (.ord q) (.order i g)) s = .next t ∧ t.wall.pos[q].unmarked = OrdPos.unmarked (
          match i with
          | none =>
            if was then { y with state := .empty, record := none, idRead := none }
            else { y with state := .expected, record := some clean }
          | some j =>
            if j ≠ some x.tote then { y with state := .occupied, record := none, idRead := j }
            else if was then
              { y with
                state := .active
                record := some (
                  if disturbanceOf g (x.baseline.getD 0) s.prof.profile.ta = none then clean else x) }
            else
              match g with
              | .grams w => { y with state := .active, record := some { clean with baseline := some w } }
              | .overload => { y with state := .arrived, record := some clean })) ∧
      (∀ (p : Fin 4) (a : SurveyAnswer), inSurvey (.src p) s = true → validAnswer a = true →
        ((∃ i g, a = .order i g) ∨ s.src[p].depth = 0 ∧ ∃ f l, a = .source f (some l)) →
        ∃ t, exec (.surveyAnswer (.src p) a) s = .next t ∧ t.src[p].state = .faulted ∧ t.src[p].cause = some .kind ∧
          t.src[p].surveyT = none) ∧
      (∀ (q : Fin 12) (f l : Option (Option Nat)), inSurvey (.ord q) s = true → validAnswer (.source f l) = true →
        ∃ t, exec (.surveyAnswer (.ord q) (.source f l)) s = .next t ∧ t.wall.pos[q] = { s.wall.pos[q] with
          state := .faulted, cause := some .kind, surveyT := none }) ∧
      (∀ (pos : Pos) (x : Execution), s.link.held = some x → x.job.waitsFor pos = true →
        let answered := fun (b : ReplyBody) (t : State) => t.link.held = none ∧
          OutEntry.reply { tag := x.req.tag, kind := replyKind x.req.kind, body := b } ∈ t.link.out
        (surveyTimer pos s = some 0 → ∃ t, exec (.surveyTimerExpiry pos) s = .next t ∧ answered (.reject .survey) t) ∧
        (∀ c, inSurvey pos s = true → s.bench.surveying = false → ∃ t, exec (.faultReport pos c) s = .next t ∧
          answered (.reject .survey) t ∧
          (∀ p, pos = .src p → t.src[p].state = .faulted ∧ t.src[p].cause = some .survey ∧ t.src[p].surveyT = none) ∧
          ∀ q, pos = .ord q → t.wall.pos[q].state = .faulted ∧ t.wall.pos[q].cause = some .survey ∧
            t.wall.pos[q].surveyT = none) ∧
        (∀ a c, inSurvey pos s = true → validAnswer a = true → judgeAnswer pos a s = .failed c → c = .kind ∧
          ∃ t, exec (.surveyAnswer pos a) s = .next t ∧ answered (.reject .kind) t) ∧
        ∀ q i g, pos = .ord q → inSurvey pos s = true → validAnswer (.order i g) = true →
          ∃ t, exec (.surveyAnswer pos (.order i g)) s = .next t ∧ answered (.ok (.orderState t.wall.pos[q].state)) t) ∧
      (∀ p : Fin 4, s.src[p].surveyT = some 0 → ∃ t, exec (.surveyTimerExpiry (.src p)) s = .next t ∧
        t.src[p].state = .faulted ∧ t.src[p].cause = some .survey ∧ t.src[p].surveyT = none) ∧
      ∀ q : Fin 12, s.wall.pos[q].surveyT = some 0 → ∃ t, exec (.surveyTimerExpiry (.ord q)) s = .next t ∧
        t.wall.pos[q] = { s.wall.pos[q] with state := .faulted, cause := some .survey, surveyT := none }) ∧
  (∀ v : State,
    let ended := (∀ p : Fin 4, v.src[p].surveyT = none) ∧ ∀ q : Fin 12, v.wall.pos[q].surveyT = none
    (v.bench.surveying = true → ended → finishStartup v = notify (.surveyed .starting
      ([SrcState.closed, .opn, .closing, .faulted].map fun st =>
        (st, ([0, 1, 2, 3] : List (Fin 4)).countP fun p => v.src[p].state == st))
      ([OrdState.closed, .faulted, .empty, .expected, .arrived, .active, .leaving, .settling, .occupied].map fun st =>
        (st, ([0, 1, 2, 3, 4, 5, 6, 7, 8, 9, 10, 11] : List (Fin 12)).countP fun q => v.wall.pos[q].state == st)))
      { v with bench := { v.bench with surveying := false } }) ∧
    (v.bench.surveying = false ∨ ¬ ended → finishStartup v = v)) ∧
  ∀ s : State, s.inputs.reset = false →
    let unsurveyed := fun l : FieldLine =>
      let rest := l.orders.filter fun o => o.order != .survey
      match l.orders with
      | [] => l
      | o :: _ => { l with
          orders := rest
          ackT := if o.order = .survey then (if rest.isEmpty then none else some 5) else l.ackT }
    let emptied := fun l : FieldLine => { l with orders := [], ackT := none }
    let replied := fun (pos : Pos) (b : ReplyBody) (v : State) => match v.link.held with
      | none => v
      | some x => if x.job.waitsFor pos then answer x.req b { v with link := { v.link with held := none } } else v
    (∀ p : Fin 4, inSurvey (.src p) s = true →
      let x := s.src[p]
      let put := fun (y : SrcPos) (v : State) => { v with src := v.src.set p y }
      let failed := fun (c : Cause) (b : ReplyBody) =>
        let v := put { x with state := .faulted, cause := some c, face := {}, lane := {}, surveyT := none }
          { s with lines := s.lines.set (lineOf (.src p)) (emptied s.lines[lineOf (.src p)]) }
        finishStartup (replied (.src p) b (if x.state = .faulted then v
          else notify (.position (.src p) (.source .faulted) (some c)) v))
      (x.surveyT = some 0 → exec (.surveyTimerExpiry (.src p)) s = .next (failed .survey (.reject .survey))) ∧
      (s.lines[lineOf (.src p)].orders ≠ [] → s.lines[lineOf (.src p)].ackT = some 0 →
        exec (.ackTimerExpiry (.src p)) s = .next (failed .survey (.reject .survey))) ∧
      (∀ c, s.bench.surveying = false →
        exec (.faultReport (.src p) c) s = .next (failed .survey (.reject .survey))) ∧
      (∀ a, validAnswer a = true → ((∃ i g, a = .order i g) ∨ x.depth = 0 ∧ ∃ f l, a = .source f (some l)) →
        exec (.surveyAnswer (.src p) a) s = .next (failed .kind (.reject .kind))) ∧
      ∀ f l : Option (Option Nat), validAnswer (.source f l) = true → (x.depth ≠ 0 ∨ l = none) →
        let time := some (s.prof.profile.leaveTimeout * 10)
        let opened : SrcPos := { x with state := .opn, cause := none, face := {}, lane := {}, surveyT := none }
        let face : Face := match f with
          | none => if l.isSome then { state := .settling } else {}
          | some id => { state := .leaving, idRead := id, leaveT := time }
        let v0 := notify (.position (.src p) (.source .opn) none) (put opened
          { s with lines := s.lines.set (lineOf (.src p)) (unsurveyed s.lines[lineOf (.src p)]) })
        let v1 := match f with
          | none => v0
          | some id => notify (.release id .unknown (some (p, .face)) none [])
              (handOrder (.src p) (.gate .faceExit) (put { opened with face := face } v0))
        let v2 := match l with
          | none => v1
          | some id => notify (.release id .unknown (some (p, .lane)) none []) (handOrder (.src p) (.gate .laneExit)
              (put { opened with face := face, lane := { state := .leaving, idRead := id, leaveT := time } } v1))
        let v3 := if s.bench.mode = .drained ∧ (f.isSome ∨ l.isSome) then
            notify (.benchMode .draining .drained) { v2 with bench := { v2.bench with mode := .draining } }
          else v2
        exec (.surveyAnswer (.src p) (.source f l)) s =
          .next (finishStartup (attempt (arbitrate (replied (.src p) (.ok (.sourceState .opn)) v3))))) ∧
    ∀ q : Fin 12, inSurvey (.ord q) s = true →
      let x := s.wall.pos[q]
      let put := fun (y : OrdPos) (v : State) =>
        notify (.position (.ord q) (.order y.state) y.cause) { v with wall := { v.wall with pos := v.wall.pos.set q y } }
      let failed := fun (c : Cause) (b : ReplyBody) =>
        let y : OrdPos := { x with state := .faulted, cause := some c, surveyT := none }
        let v : State := { s with lines := s.lines.set (lineOf (.ord q)) (emptied s.lines[lineOf (.ord q)]) }
        finishStartup (replied (.ord q) b (if x.state = .faulted then
          { v with wall := { v.wall with pos := v.wall.pos.set q y } } else put y v))
      (x.surveyT = some 0 → exec (.surveyTimerExpiry (.ord q)) s = .next (failed .survey (.reject .survey))) ∧
      (s.lines[lineOf (.ord q)].orders ≠ [] → s.lines[lineOf (.ord q)].ackT = some 0 →
        exec (.ackTimerExpiry (.ord q)) s = .next (failed .survey (.reject .survey))) ∧
      (∀ c, s.bench.surveying = false →
        exec (.faultReport (.ord q) c) s = .next (failed .survey (.reject .survey))) ∧
      (∀ f l, validAnswer (.source f l) = true →
        exec (.surveyAnswer (.ord q) (.source f l)) s = .next (failed .kind (.reject .kind))) ∧
      ∀ (i : Option (Option Nat)) (g : Gross), validAnswer (.order i g) = true →
        let y : OrdPos := { x with latest := some g, former := none, cause := none, surveyT := none }
        let u : State := { s with lines := s.lines.set (lineOf (.ord q)) (unsurveyed s.lines[lineOf (.ord q)]) }
        let out := exec (.surveyAnswer (.ord q) (.order i g)) s
        let ends := fun (st : OrdState) (v : State) =>
          out = .next (finishStartup (replied (.ord q) (.ok (.orderState st)) v))
        let enters := fun (st : OrdState) (v : State) =>
          out = .next (finishStartup (recordEntered (replied (.ord q) (.ok (.orderState st)) v)))
        (x.record = none → match i with
          | none => ends .empty (put { y with state := .empty } u)
          | some id => ends .occupied (put { y with state := .occupied, idRead := id } u)) ∧
        ∀ r, x.record = some r →
          let tell := fun e : WallEvent => notify (.wall q (some (r.ref, r.tote)) e)
          let base := r.baseline.getD 0
          let clean : Rec := { r with cond := .clean }
          let was := x.former = some .active
          (i = none → was → ends .empty (tell (.released r.comps true none)
            (put { y with state := .empty, record := none, idRead := none } u))) ∧
          (i = none → ¬ was → enters .expected (tell (.added .expected)
            (put { y with state := .expected, record := some clean } u))) ∧
          (∀ j, i = some j → j ≠ some r.tote → ends .occupied (tell (.released r.comps true none)
            (put { y with state := .occupied, record := none, idRead := j } u))) ∧
          (i = some (some r.tote) → was → disturbanceOf g base s.prof.profile.ta = none →
            enters .active (tell (.clean g base) (put { y with state := .active, record := some clean } u))) ∧
          (i = some (some r.tote) → was → disturbanceOf g base s.prof.profile.ta ≠ none →
            enters .active (put { y with state := .active } u)) ∧
          (∀ w, i = some (some r.tote) → ¬ was → g = .grams w → enters .active (tell (.active w)
            (put { y with state := .active, record := some { clean with baseline := some w } } u))) ∧
          (i = some (some r.tote) → ¬ was → g = .overload →
            enters .arrived (put { y with state := .arrived, record := some clean } u))

/-- ACK of the outstanding order takes it off the line's list and sends the next order, if there is one; any other ACK
changes nothing (R158). The expiry of the acknowledgement timer empties the list: nothing more for a dark LIGHT of the
start-up or at a FAULTED position; outside a survey the position otherwise becomes FAULTED with cause LINE (R158), in a
survey with cause SURVEY (R160).
An expiry that finds its timer otherwise changes nothing (the model's choice, log entry 12).
An order handed to a line (R157, R158): one for a FAULTED position is discarded, but for SURVEY. Otherwise it goes to
the end of the list with the next sequence, which runs from 255 to 0; an order that finds the list empty is sent at once
and starts the acknowledgement timer. Before that the waiting orders it makes obsolete go: for a LIGHT those for the
same display, for a LIGHT for ALL every LIGHT, for a GATE those of its kind, for SURVEY every LIGHT; the outstanding
order stays, and the waiting ones keep their order. Every other line and the rest of the state are unchanged. That the
sequence is given at the hand-over is the model's reading (log entry 14). -/
def Obligations.AcksAndLineFailures : Prop :=
  (∀ (s : State) (pos : Pos), s.inputs.reset = false →
      let l := s.lines[lineOf pos]
      (∀ n, (∀ o rest, l.orders = o :: rest → o.seq ≠ n) → exec (.ack pos n) s = .next s) ∧
      (∀ o rest, l.orders = o :: rest → exec (.ack pos o.seq) s = .next { s with
        lines := s.lines.set (lineOf pos) { l with
          orders := rest, ackT := if rest.isEmpty then none else some 5 } }) ∧
      (l.ackT ≠ some 0 ∨ l.orders = [] → exec (.ackTimerExpiry pos) s = .next s) ∧
      ∀ o rest, l.orders = o :: rest → l.ackT = some 0 →
        let u : State := { s with lines := s.lines.set (lineOf pos) { l with orders := [], ackT := none } }
        (inSurvey pos s = false → o.startDark = true ∨ isFaulted pos s = true → exec (.ackTimerExpiry pos) s = .next u) ∧
        (inSurvey pos s = false → o.startDark = false → isFaulted pos s = false → ∃ t,
          exec (.ackTimerExpiry pos) s = .next t ∧
          (∀ p, pos = .src p → t.src[p].state = .faulted ∧ t.src[p].cause = some .line) ∧
          (∀ q, pos = .ord q → t.wall.pos[q].state = .faulted ∧ t.wall.pos[q].cause = some .line)) ∧
        (inSurvey pos s = true → ∃ t, exec (.ackTimerExpiry pos) s = .next t ∧
          (∀ p, pos = .src p → t.src[p].state = .faulted ∧ t.src[p].cause = some .survey) ∧
          (∀ q, pos = .ord q → t.wall.pos[q].state = .faulted ∧ t.wall.pos[q].cause = some .survey))) ∧
  ((∀ (pos : Pos) (o : Order) (s : State),
      (isFaulted pos s = true → o ≠ .survey → handOrder pos o s = s) ∧
      (isFaulted pos s = false ∨ o = .survey → handOrder pos o s = { s with
        lines := s.lines.set (lineOf pos) (FieldLine.hand o false s.lines[lineOf pos]) })) ∧
    (∀ (o : Order) (dark : Bool) (l : FieldLine),
      let l' := FieldLine.hand o dark l
      let new : FieldOrder := { seq := l.nextSeq, order := o, startDark := dark }
      let goes := fun w : Order => match o with
        | .light .all _ => ∃ d v, w = .light d v
        | .light d _ => ∃ v, w = .light d v
        | .gate g => w = .gate g
        | .survey => ∃ d v, w = .light d v
      (l.orders = [] → l'.orders = [new] ∧ l'.ackT = some 5) ∧
      (∀ x waiting, l.orders = x :: waiting → l'.ackT = l.ackT ∧ ∃ kept : List FieldOrder,
        l'.orders = x :: (kept ++ [new]) ∧ kept.Sublist waiting ∧ (∀ w ∈ kept, ¬ goes w.order) ∧
        (∀ w ∈ waiting, ¬ goes w.order → w ∈ kept) ∧
        (waiting.filter fun w => decide (w ∈ kept)) = kept) ∧
      (l.nextSeq < 255 → l'.nextSeq = l.nextSeq + 1) ∧ (l.nextSeq = 255 → l'.nextSeq = 0)) ∧
    ∀ pos pos' : Pos, lineOf pos = lineOf pos' → pos = pos')
end

