-- ==== Sys2Proof/Laws/State.lean ====
section
/-!
SUPPORT. The small lemmas of the state: for each update one lemma a field, true by unfolding it once, so that no later
proof unfolds a record update.
-/
namespace Sys2Proof.Machine

@[simp] theorem modSrc_inputs (p : Fin 4) (f : SrcPos → SrcPos) (s : State) : (modSrc p f s).inputs = s.inputs := rfl
@[simp] theorem modSrc_link (p : Fin 4) (f : SrcPos → SrcPos) (s : State) : (modSrc p f s).link = s.link := rfl
@[simp] theorem modSrc_offers (p : Fin 4) (f : SrcPos → SrcPos) (s : State) : (modSrc p f s).offers = s.offers := rfl
@[simp] theorem modSrc_arb (p : Fin 4) (f : SrcPos → SrcPos) (s : State) : (modSrc p f s).arb = s.arb := rfl
@[simp] theorem modSrc_src (p : Fin 4) (f : SrcPos → SrcPos) (s : State) : (modSrc p f s).src = s.src.set p (f s.src[p]) := rfl
@[simp] theorem modSrc_wall (p : Fin 4) (f : SrcPos → SrcPos) (s : State) : (modSrc p f s).wall = s.wall := rfl
@[simp] theorem modSrc_put (p : Fin 4) (f : SrcPos → SrcPos) (s : State) : (modSrc p f s).put = s.put := rfl
@[simp] theorem modSrc_picker (p : Fin 4) (f : SrcPos → SrcPos) (s : State) : (modSrc p f s).picker = s.picker := rfl
@[simp] theorem modSrc_bench (p : Fin 4) (f : SrcPos → SrcPos) (s : State) : (modSrc p f s).bench = s.bench := rfl
@[simp] theorem modSrc_prof (p : Fin 4) (f : SrcPos → SrcPos) (s : State) : (modSrc p f s).prof = s.prof := rfl
@[simp] theorem modSrc_lines (p : Fin 4) (f : SrcPos → SrcPos) (s : State) : (modSrc p f s).lines = s.lines := rfl
@[simp] theorem modSrc_pending (p : Fin 4) (f : SrcPos → SrcPos) (s : State) : (modSrc p f s).pending = s.pending := rfl

@[simp] theorem modOrd_inputs (q : Fin 12) (f : OrdPos → OrdPos) (s : State) : (modOrd q f s).inputs = s.inputs := rfl
@[simp] theorem modOrd_link (q : Fin 12) (f : OrdPos → OrdPos) (s : State) : (modOrd q f s).link = s.link := rfl
@[simp] theorem modOrd_offers (q : Fin 12) (f : OrdPos → OrdPos) (s : State) : (modOrd q f s).offers = s.offers := rfl
@[simp] theorem modOrd_arb (q : Fin 12) (f : OrdPos → OrdPos) (s : State) : (modOrd q f s).arb = s.arb := rfl
@[simp] theorem modOrd_src (q : Fin 12) (f : OrdPos → OrdPos) (s : State) : (modOrd q f s).src = s.src := rfl
@[simp] theorem modOrd_wall (q : Fin 12) (f : OrdPos → OrdPos) (s : State) : (modOrd q f s).wall = { s.wall with pos := s.wall.pos.set q (f s.wall.pos[q]) } := rfl
@[simp] theorem modOrd_put (q : Fin 12) (f : OrdPos → OrdPos) (s : State) : (modOrd q f s).put = s.put := rfl
@[simp] theorem modOrd_picker (q : Fin 12) (f : OrdPos → OrdPos) (s : State) : (modOrd q f s).picker = s.picker := rfl
@[simp] theorem modOrd_bench (q : Fin 12) (f : OrdPos → OrdPos) (s : State) : (modOrd q f s).bench = s.bench := rfl
@[simp] theorem modOrd_prof (q : Fin 12) (f : OrdPos → OrdPos) (s : State) : (modOrd q f s).prof = s.prof := rfl
@[simp] theorem modOrd_lines (q : Fin 12) (f : OrdPos → OrdPos) (s : State) : (modOrd q f s).lines = s.lines := rfl
@[simp] theorem modOrd_pending (q : Fin 12) (f : OrdPos → OrdPos) (s : State) : (modOrd q f s).pending = s.pending := rfl

@[simp] theorem modRec_inputs (q : Fin 12) (f : Rec → Rec) (s : State) : (modRec q f s).inputs = s.inputs := rfl
@[simp] theorem modRec_link (q : Fin 12) (f : Rec → Rec) (s : State) : (modRec q f s).link = s.link := rfl
@[simp] theorem modRec_offers (q : Fin 12) (f : Rec → Rec) (s : State) : (modRec q f s).offers = s.offers := rfl
@[simp] theorem modRec_arb (q : Fin 12) (f : Rec → Rec) (s : State) : (modRec q f s).arb = s.arb := rfl
@[simp] theorem modRec_src (q : Fin 12) (f : Rec → Rec) (s : State) : (modRec q f s).src = s.src := rfl
@[simp] theorem modRec_wall (q : Fin 12) (f : Rec → Rec) (s : State) : (modRec q f s).wall = { s.wall with pos := s.wall.pos.set q { s.wall.pos[q] with record := s.wall.pos[q].record.map f } } := rfl
@[simp] theorem modRec_put (q : Fin 12) (f : Rec → Rec) (s : State) : (modRec q f s).put = s.put := rfl
@[simp] theorem modRec_picker (q : Fin 12) (f : Rec → Rec) (s : State) : (modRec q f s).picker = s.picker := rfl
@[simp] theorem modRec_bench (q : Fin 12) (f : Rec → Rec) (s : State) : (modRec q f s).bench = s.bench := rfl
@[simp] theorem modRec_prof (q : Fin 12) (f : Rec → Rec) (s : State) : (modRec q f s).prof = s.prof := rfl
@[simp] theorem modRec_lines (q : Fin 12) (f : Rec → Rec) (s : State) : (modRec q f s).lines = s.lines := rfl
@[simp] theorem modRec_pending (q : Fin 12) (f : Rec → Rec) (s : State) : (modRec q f s).pending = s.pending := rfl

@[simp] theorem modLine_inputs (i : Fin 16) (f : FieldLine → FieldLine) (s : State) : (modLine i f s).inputs = s.inputs := rfl
@[simp] theorem modLine_link (i : Fin 16) (f : FieldLine → FieldLine) (s : State) : (modLine i f s).link = s.link := rfl
@[simp] theorem modLine_offers (i : Fin 16) (f : FieldLine → FieldLine) (s : State) : (modLine i f s).offers = s.offers := rfl
@[simp] theorem modLine_arb (i : Fin 16) (f : FieldLine → FieldLine) (s : State) : (modLine i f s).arb = s.arb := rfl
@[simp] theorem modLine_src (i : Fin 16) (f : FieldLine → FieldLine) (s : State) : (modLine i f s).src = s.src := rfl
@[simp] theorem modLine_wall (i : Fin 16) (f : FieldLine → FieldLine) (s : State) : (modLine i f s).wall = s.wall := rfl
@[simp] theorem modLine_put (i : Fin 16) (f : FieldLine → FieldLine) (s : State) : (modLine i f s).put = s.put := rfl
@[simp] theorem modLine_picker (i : Fin 16) (f : FieldLine → FieldLine) (s : State) : (modLine i f s).picker = s.picker := rfl
@[simp] theorem modLine_bench (i : Fin 16) (f : FieldLine → FieldLine) (s : State) : (modLine i f s).bench = s.bench := rfl
@[simp] theorem modLine_prof (i : Fin 16) (f : FieldLine → FieldLine) (s : State) : (modLine i f s).prof = s.prof := rfl
@[simp] theorem modLine_lines (i : Fin 16) (f : FieldLine → FieldLine) (s : State) : (modLine i f s).lines = s.lines.set i (f s.lines[i]) := rfl
@[simp] theorem modLine_pending (i : Fin 16) (f : FieldLine → FieldLine) (s : State) : (modLine i f s).pending = s.pending := rfl

@[simp] theorem modOffer_inputs (t : Nat) (f : Offer → Offer) (s : State) : (modOffer t f s).inputs = s.inputs := rfl
@[simp] theorem modOffer_link (t : Nat) (f : Offer → Offer) (s : State) : (modOffer t f s).link = s.link := rfl
@[simp] theorem modOffer_offers (t : Nat) (f : Offer → Offer) (s : State) : (modOffer t f s).offers = s.offers.map fun o => if o.tote = t then f o else o := rfl
@[simp] theorem modOffer_arb (t : Nat) (f : Offer → Offer) (s : State) : (modOffer t f s).arb = s.arb := rfl
@[simp] theorem modOffer_src (t : Nat) (f : Offer → Offer) (s : State) : (modOffer t f s).src = s.src := rfl
@[simp] theorem modOffer_wall (t : Nat) (f : Offer → Offer) (s : State) : (modOffer t f s).wall = s.wall := rfl
@[simp] theorem modOffer_put (t : Nat) (f : Offer → Offer) (s : State) : (modOffer t f s).put = s.put := rfl
@[simp] theorem modOffer_picker (t : Nat) (f : Offer → Offer) (s : State) : (modOffer t f s).picker = s.picker := rfl
@[simp] theorem modOffer_bench (t : Nat) (f : Offer → Offer) (s : State) : (modOffer t f s).bench = s.bench := rfl
@[simp] theorem modOffer_prof (t : Nat) (f : Offer → Offer) (s : State) : (modOffer t f s).prof = s.prof := rfl
@[simp] theorem modOffer_lines (t : Nat) (f : Offer → Offer) (s : State) : (modOffer t f s).lines = s.lines := rfl
@[simp] theorem modOffer_pending (t : Nat) (f : Offer → Offer) (s : State) : (modOffer t f s).pending = s.pending := rfl

@[simp] theorem pushNotice_inputs (b : NoticeBody) (s : State) : (pushNotice b s).inputs = s.inputs := rfl
@[simp] theorem pushNotice_link (b : NoticeBody) (s : State) : (pushNotice b s).link = { s.link with out := s.link.out ++ [.notice { clock := s.bench.clock, body := b }] } := rfl
@[simp] theorem pushNotice_offers (b : NoticeBody) (s : State) : (pushNotice b s).offers = s.offers := rfl
@[simp] theorem pushNotice_arb (b : NoticeBody) (s : State) : (pushNotice b s).arb = s.arb := rfl
@[simp] theorem pushNotice_src (b : NoticeBody) (s : State) : (pushNotice b s).src = s.src := rfl
@[simp] theorem pushNotice_wall (b : NoticeBody) (s : State) : (pushNotice b s).wall = s.wall := rfl
@[simp] theorem pushNotice_put (b : NoticeBody) (s : State) : (pushNotice b s).put = s.put := rfl
@[simp] theorem pushNotice_picker (b : NoticeBody) (s : State) : (pushNotice b s).picker = s.picker := rfl
@[simp] theorem pushNotice_bench (b : NoticeBody) (s : State) : (pushNotice b s).bench = s.bench := rfl
@[simp] theorem pushNotice_prof (b : NoticeBody) (s : State) : (pushNotice b s).prof = s.prof := rfl
@[simp] theorem pushNotice_lines (b : NoticeBody) (s : State) : (pushNotice b s).lines = s.lines := rfl
@[simp] theorem pushNotice_pending (b : NoticeBody) (s : State) : (pushNotice b s).pending = s.pending := rfl

@[simp] theorem setLost_inputs (s : State) : (setLost s).inputs = s.inputs := rfl
@[simp] theorem setLost_link (s : State) : (setLost s).link = { s.link with lost := true } := rfl
@[simp] theorem setLost_offers (s : State) : (setLost s).offers = s.offers := rfl
@[simp] theorem setLost_arb (s : State) : (setLost s).arb = s.arb := rfl
@[simp] theorem setLost_src (s : State) : (setLost s).src = s.src := rfl
@[simp] theorem setLost_wall (s : State) : (setLost s).wall = s.wall := rfl
@[simp] theorem setLost_put (s : State) : (setLost s).put = s.put := rfl
@[simp] theorem setLost_picker (s : State) : (setLost s).picker = s.picker := rfl
@[simp] theorem setLost_bench (s : State) : (setLost s).bench = s.bench := rfl
@[simp] theorem setLost_prof (s : State) : (setLost s).prof = s.prof := rfl
@[simp] theorem setLost_lines (s : State) : (setLost s).lines = s.lines := rfl
@[simp] theorem setLost_pending (s : State) : (setLost s).pending = s.pending := rfl

@[simp] theorem answer_inputs (r : Request) (b : ReplyBody) (s : State) : (answer r b s).inputs = s.inputs := rfl
@[simp] theorem answer_link (r : Request) (b : ReplyBody) (s : State) : (answer r b s).link = { s.link with out := s.link.out ++ [.reply { tag := r.tag, kind := replyKind r.kind, body := b }] } := rfl
@[simp] theorem answer_offers (r : Request) (b : ReplyBody) (s : State) : (answer r b s).offers = s.offers := rfl
@[simp] theorem answer_arb (r : Request) (b : ReplyBody) (s : State) : (answer r b s).arb = s.arb := rfl
@[simp] theorem answer_src (r : Request) (b : ReplyBody) (s : State) : (answer r b s).src = s.src := rfl
@[simp] theorem answer_wall (r : Request) (b : ReplyBody) (s : State) : (answer r b s).wall = s.wall := rfl
@[simp] theorem answer_put (r : Request) (b : ReplyBody) (s : State) : (answer r b s).put = s.put := rfl
@[simp] theorem answer_picker (r : Request) (b : ReplyBody) (s : State) : (answer r b s).picker = s.picker := rfl
@[simp] theorem answer_bench (r : Request) (b : ReplyBody) (s : State) : (answer r b s).bench = s.bench := rfl
@[simp] theorem answer_prof (r : Request) (b : ReplyBody) (s : State) : (answer r b s).prof = s.prof := rfl
@[simp] theorem answer_lines (r : Request) (b : ReplyBody) (s : State) : (answer r b s).lines = s.lines := rfl
@[simp] theorem answer_pending (r : Request) (b : ReplyBody) (s : State) : (answer r b s).pending = s.pending := rfl

@[simp] theorem popRequest_inputs (s : State) : (popRequest s).inputs = s.inputs := rfl
@[simp] theorem popRequest_link (s : State) : (popRequest s).link = { s.link with inbox := s.link.inbox.tail } := rfl
@[simp] theorem popRequest_offers (s : State) : (popRequest s).offers = s.offers := rfl
@[simp] theorem popRequest_arb (s : State) : (popRequest s).arb = s.arb := rfl
@[simp] theorem popRequest_src (s : State) : (popRequest s).src = s.src := rfl
@[simp] theorem popRequest_wall (s : State) : (popRequest s).wall = s.wall := rfl
@[simp] theorem popRequest_put (s : State) : (popRequest s).put = s.put := rfl
@[simp] theorem popRequest_picker (s : State) : (popRequest s).picker = s.picker := rfl
@[simp] theorem popRequest_bench (s : State) : (popRequest s).bench = s.bench := rfl
@[simp] theorem popRequest_prof (s : State) : (popRequest s).prof = s.prof := rfl
@[simp] theorem popRequest_lines (s : State) : (popRequest s).lines = s.lines := rfl
@[simp] theorem popRequest_pending (s : State) : (popRequest s).pending = s.pending := rfl

@[simp] theorem dropPartial_inputs (s : State) : (dropPartial s).inputs = s.inputs := rfl
@[simp] theorem dropPartial_link (s : State) : (dropPartial s).link = { s.link with rx := [] } := rfl
@[simp] theorem dropPartial_offers (s : State) : (dropPartial s).offers = s.offers := rfl
@[simp] theorem dropPartial_arb (s : State) : (dropPartial s).arb = s.arb := rfl
@[simp] theorem dropPartial_src (s : State) : (dropPartial s).src = s.src := rfl
@[simp] theorem dropPartial_wall (s : State) : (dropPartial s).wall = s.wall := rfl
@[simp] theorem dropPartial_put (s : State) : (dropPartial s).put = s.put := rfl
@[simp] theorem dropPartial_picker (s : State) : (dropPartial s).picker = s.picker := rfl
@[simp] theorem dropPartial_bench (s : State) : (dropPartial s).bench = s.bench := rfl
@[simp] theorem dropPartial_prof (s : State) : (dropPartial s).prof = s.prof := rfl
@[simp] theorem dropPartial_lines (s : State) : (dropPartial s).lines = s.lines := rfl
@[simp] theorem dropPartial_pending (s : State) : (dropPartial s).pending = s.pending := rfl

@[simp] theorem holdFor_inputs (r : Request) (j : HeldJob) (s : State) : (holdFor r j s).inputs = s.inputs := rfl
@[simp] theorem holdFor_link (r : Request) (j : HeldJob) (s : State) : (holdFor r j s).link = { s.link with held := some { req := r, job := j } } := rfl
@[simp] theorem holdFor_offers (r : Request) (j : HeldJob) (s : State) : (holdFor r j s).offers = s.offers := rfl
@[simp] theorem holdFor_arb (r : Request) (j : HeldJob) (s : State) : (holdFor r j s).arb = s.arb := rfl
@[simp] theorem holdFor_src (r : Request) (j : HeldJob) (s : State) : (holdFor r j s).src = s.src := rfl
@[simp] theorem holdFor_wall (r : Request) (j : HeldJob) (s : State) : (holdFor r j s).wall = s.wall := rfl
@[simp] theorem holdFor_put (r : Request) (j : HeldJob) (s : State) : (holdFor r j s).put = s.put := rfl
@[simp] theorem holdFor_picker (r : Request) (j : HeldJob) (s : State) : (holdFor r j s).picker = s.picker := rfl
@[simp] theorem holdFor_bench (r : Request) (j : HeldJob) (s : State) : (holdFor r j s).bench = s.bench := rfl
@[simp] theorem holdFor_prof (r : Request) (j : HeldJob) (s : State) : (holdFor r j s).prof = s.prof := rfl
@[simp] theorem holdFor_lines (r : Request) (j : HeldJob) (s : State) : (holdFor r j s).lines = s.lines := rfl
@[simp] theorem holdFor_pending (r : Request) (j : HeldJob) (s : State) : (holdFor r j s).pending = s.pending := rfl

@[simp] theorem stopIdle_inputs (s : State) : (stopIdle s).inputs = s.inputs := rfl
@[simp] theorem stopIdle_link (s : State) : (stopIdle s).link = s.link := rfl
@[simp] theorem stopIdle_offers (s : State) : (stopIdle s).offers = s.offers := rfl
@[simp] theorem stopIdle_arb (s : State) : (stopIdle s).arb = s.arb := rfl
@[simp] theorem stopIdle_src (s : State) : (stopIdle s).src = s.src := rfl
@[simp] theorem stopIdle_wall (s : State) : (stopIdle s).wall = s.wall := rfl
@[simp] theorem stopIdle_put (s : State) : (stopIdle s).put = s.put := rfl
@[simp] theorem stopIdle_picker (s : State) : (stopIdle s).picker = { s.picker with idleT := none } := rfl
@[simp] theorem stopIdle_bench (s : State) : (stopIdle s).bench = s.bench := rfl
@[simp] theorem stopIdle_prof (s : State) : (stopIdle s).prof = s.prof := rfl
@[simp] theorem stopIdle_lines (s : State) : (stopIdle s).lines = s.lines := rfl
@[simp] theorem stopIdle_pending (s : State) : (stopIdle s).pending = s.pending := rfl

@[simp] theorem deleteCycle_inputs (s : State) : (deleteCycle s).inputs = s.inputs := rfl
@[simp] theorem deleteCycle_link (s : State) : (deleteCycle s).link = s.link := rfl
@[simp] theorem deleteCycle_offers (s : State) : (deleteCycle s).offers = s.offers := rfl
@[simp] theorem deleteCycle_arb (s : State) : (deleteCycle s).arb = s.arb := rfl
@[simp] theorem deleteCycle_src (s : State) : (deleteCycle s).src = s.src := rfl
@[simp] theorem deleteCycle_wall (s : State) : (deleteCycle s).wall = s.wall := rfl
@[simp] theorem deleteCycle_put (s : State) : (deleteCycle s).put = { s.put with cycle := none } := rfl
@[simp] theorem deleteCycle_picker (s : State) : (deleteCycle s).picker = s.picker := rfl
@[simp] theorem deleteCycle_bench (s : State) : (deleteCycle s).bench = s.bench := rfl
@[simp] theorem deleteCycle_prof (s : State) : (deleteCycle s).prof = s.prof := rfl
@[simp] theorem deleteCycle_lines (s : State) : (deleteCycle s).lines = s.lines := rfl
@[simp] theorem deleteCycle_pending (s : State) : (deleteCycle s).pending = s.pending := rfl

@[simp] theorem setLadder_inputs (l : List ReqClass) (s : State) : (setLadder l s).inputs = s.inputs := rfl
@[simp] theorem setLadder_link (l : List ReqClass) (s : State) : (setLadder l s).link = s.link := rfl
@[simp] theorem setLadder_offers (l : List ReqClass) (s : State) : (setLadder l s).offers = s.offers := rfl
@[simp] theorem setLadder_arb (l : List ReqClass) (s : State) : (setLadder l s).arb = { s.arb with ladder := l } := rfl
@[simp] theorem setLadder_src (l : List ReqClass) (s : State) : (setLadder l s).src = s.src := rfl
@[simp] theorem setLadder_wall (l : List ReqClass) (s : State) : (setLadder l s).wall = s.wall := rfl
@[simp] theorem setLadder_put (l : List ReqClass) (s : State) : (setLadder l s).put = s.put := rfl
@[simp] theorem setLadder_picker (l : List ReqClass) (s : State) : (setLadder l s).picker = s.picker := rfl
@[simp] theorem setLadder_bench (l : List ReqClass) (s : State) : (setLadder l s).bench = s.bench := rfl
@[simp] theorem setLadder_prof (l : List ReqClass) (s : State) : (setLadder l s).prof = s.prof := rfl
@[simp] theorem setLadder_lines (l : List ReqClass) (s : State) : (setLadder l s).lines = s.lines := rfl
@[simp] theorem setLadder_pending (l : List ReqClass) (s : State) : (setLadder l s).pending = s.pending := rfl

@[simp] theorem setProfile_inputs (p : Profile) (s : State) : (setProfile p s).inputs = s.inputs := rfl
@[simp] theorem setProfile_link (p : Profile) (s : State) : (setProfile p s).link = s.link := rfl
@[simp] theorem setProfile_offers (p : Profile) (s : State) : (setProfile p s).offers = s.offers := rfl
@[simp] theorem setProfile_arb (p : Profile) (s : State) : (setProfile p s).arb = s.arb := rfl
@[simp] theorem setProfile_src (p : Profile) (s : State) : (setProfile p s).src = s.src := rfl
@[simp] theorem setProfile_wall (p : Profile) (s : State) : (setProfile p s).wall = s.wall := rfl
@[simp] theorem setProfile_put (p : Profile) (s : State) : (setProfile p s).put = s.put := rfl
@[simp] theorem setProfile_picker (p : Profile) (s : State) : (setProfile p s).picker = s.picker := rfl
@[simp] theorem setProfile_bench (p : Profile) (s : State) : (setProfile p s).bench = s.bench := rfl
@[simp] theorem setProfile_prof (p : Profile) (s : State) : (setProfile p s).prof = { s.prof with profile := p } := rfl
@[simp] theorem setProfile_lines (p : Profile) (s : State) : (setProfile p s).lines = s.lines := rfl
@[simp] theorem setProfile_pending (p : Profile) (s : State) : (setProfile p s).pending = s.pending := rfl

@[simp] theorem setHold_inputs (b : Bool) (s : State) : (setHold b s).inputs = { s.inputs with hold := b } := rfl
@[simp] theorem setHold_link (b : Bool) (s : State) : (setHold b s).link = s.link := rfl
@[simp] theorem setHold_offers (b : Bool) (s : State) : (setHold b s).offers = s.offers := rfl
@[simp] theorem setHold_arb (b : Bool) (s : State) : (setHold b s).arb = s.arb := rfl
@[simp] theorem setHold_src (b : Bool) (s : State) : (setHold b s).src = s.src := rfl
@[simp] theorem setHold_wall (b : Bool) (s : State) : (setHold b s).wall = s.wall := rfl
@[simp] theorem setHold_put (b : Bool) (s : State) : (setHold b s).put = s.put := rfl
@[simp] theorem setHold_picker (b : Bool) (s : State) : (setHold b s).picker = s.picker := rfl
@[simp] theorem setHold_bench (b : Bool) (s : State) : (setHold b s).bench = s.bench := rfl
@[simp] theorem setHold_prof (b : Bool) (s : State) : (setHold b s).prof = s.prof := rfl
@[simp] theorem setHold_lines (b : Bool) (s : State) : (setHold b s).lines = s.lines := rfl
@[simp] theorem setHold_pending (b : Bool) (s : State) : (setHold b s).pending = s.pending := rfl

@[simp] theorem setKey_inputs (b : Bool) (s : State) : (setKey b s).inputs = { s.inputs with key := b } := rfl
@[simp] theorem setKey_link (b : Bool) (s : State) : (setKey b s).link = s.link := rfl
@[simp] theorem setKey_offers (b : Bool) (s : State) : (setKey b s).offers = s.offers := rfl
@[simp] theorem setKey_arb (b : Bool) (s : State) : (setKey b s).arb = s.arb := rfl
@[simp] theorem setKey_src (b : Bool) (s : State) : (setKey b s).src = s.src := rfl
@[simp] theorem setKey_wall (b : Bool) (s : State) : (setKey b s).wall = s.wall := rfl
@[simp] theorem setKey_put (b : Bool) (s : State) : (setKey b s).put = s.put := rfl
@[simp] theorem setKey_picker (b : Bool) (s : State) : (setKey b s).picker = s.picker := rfl
@[simp] theorem setKey_bench (b : Bool) (s : State) : (setKey b s).bench = s.bench := rfl
@[simp] theorem setKey_prof (b : Bool) (s : State) : (setKey b s).prof = s.prof := rfl
@[simp] theorem setKey_lines (b : Bool) (s : State) : (setKey b s).lines = s.lines := rfl
@[simp] theorem setKey_pending (b : Bool) (s : State) : (setKey b s).pending = s.pending := rfl

@[simp] theorem setIdleT_inputs (t : Option Nat) (s : State) : (setIdleT t s).inputs = s.inputs := rfl
@[simp] theorem setIdleT_link (t : Option Nat) (s : State) : (setIdleT t s).link = s.link := rfl
@[simp] theorem setIdleT_offers (t : Option Nat) (s : State) : (setIdleT t s).offers = s.offers := rfl
@[simp] theorem setIdleT_arb (t : Option Nat) (s : State) : (setIdleT t s).arb = s.arb := rfl
@[simp] theorem setIdleT_src (t : Option Nat) (s : State) : (setIdleT t s).src = s.src := rfl
@[simp] theorem setIdleT_wall (t : Option Nat) (s : State) : (setIdleT t s).wall = s.wall := rfl
@[simp] theorem setIdleT_put (t : Option Nat) (s : State) : (setIdleT t s).put = s.put := rfl
@[simp] theorem setIdleT_picker (t : Option Nat) (s : State) : (setIdleT t s).picker = { s.picker with idleT := t } := rfl
@[simp] theorem setIdleT_bench (t : Option Nat) (s : State) : (setIdleT t s).bench = s.bench := rfl
@[simp] theorem setIdleT_prof (t : Option Nat) (s : State) : (setIdleT t s).prof = s.prof := rfl
@[simp] theorem setIdleT_lines (t : Option Nat) (s : State) : (setIdleT t s).lines = s.lines := rfl
@[simp] theorem setIdleT_pending (t : Option Nat) (s : State) : (setIdleT t s).pending = s.pending := rfl

@[simp] theorem putCond_inputs (c : PickerCond) (s : State) : (putCond c s).inputs = s.inputs := rfl
@[simp] theorem putCond_link (c : PickerCond) (s : State) : (putCond c s).link = s.link := rfl
@[simp] theorem putCond_offers (c : PickerCond) (s : State) : (putCond c s).offers = s.offers := rfl
@[simp] theorem putCond_arb (c : PickerCond) (s : State) : (putCond c s).arb = s.arb := rfl
@[simp] theorem putCond_src (c : PickerCond) (s : State) : (putCond c s).src = s.src := rfl
@[simp] theorem putCond_wall (c : PickerCond) (s : State) : (putCond c s).wall = s.wall := rfl
@[simp] theorem putCond_put (c : PickerCond) (s : State) : (putCond c s).put = s.put := rfl
@[simp] theorem putCond_picker (c : PickerCond) (s : State) : (putCond c s).picker = { s.picker with cond := c } := rfl
@[simp] theorem putCond_bench (c : PickerCond) (s : State) : (putCond c s).bench = s.bench := rfl
@[simp] theorem putCond_prof (c : PickerCond) (s : State) : (putCond c s).prof = s.prof := rfl
@[simp] theorem putCond_lines (c : PickerCond) (s : State) : (putCond c s).lines = s.lines := rfl
@[simp] theorem putCond_pending (c : PickerCond) (s : State) : (putCond c s).pending = s.pending := rfl

@[simp] theorem putMode_inputs (m : BenchMode) (s : State) : (putMode m s).inputs = s.inputs := rfl
@[simp] theorem putMode_link (m : BenchMode) (s : State) : (putMode m s).link = s.link := rfl
@[simp] theorem putMode_offers (m : BenchMode) (s : State) : (putMode m s).offers = s.offers := rfl
@[simp] theorem putMode_arb (m : BenchMode) (s : State) : (putMode m s).arb = s.arb := rfl
@[simp] theorem putMode_src (m : BenchMode) (s : State) : (putMode m s).src = s.src := rfl
@[simp] theorem putMode_wall (m : BenchMode) (s : State) : (putMode m s).wall = s.wall := rfl
@[simp] theorem putMode_put (m : BenchMode) (s : State) : (putMode m s).put = s.put := rfl
@[simp] theorem putMode_picker (m : BenchMode) (s : State) : (putMode m s).picker = s.picker := rfl
@[simp] theorem putMode_bench (m : BenchMode) (s : State) : (putMode m s).bench = { s.bench with mode := m } := rfl
@[simp] theorem putMode_prof (m : BenchMode) (s : State) : (putMode m s).prof = s.prof := rfl
@[simp] theorem putMode_lines (m : BenchMode) (s : State) : (putMode m s).lines = s.lines := rfl
@[simp] theorem putMode_pending (m : BenchMode) (s : State) : (putMode m s).pending = s.pending := rfl

@[simp] theorem putCycle_inputs (c : Cycle) (s : State) : (putCycle c s).inputs = s.inputs := rfl
@[simp] theorem putCycle_link (c : Cycle) (s : State) : (putCycle c s).link = s.link := rfl
@[simp] theorem putCycle_offers (c : Cycle) (s : State) : (putCycle c s).offers = s.offers := rfl
@[simp] theorem putCycle_arb (c : Cycle) (s : State) : (putCycle c s).arb = s.arb := rfl
@[simp] theorem putCycle_src (c : Cycle) (s : State) : (putCycle c s).src = s.src := rfl
@[simp] theorem putCycle_wall (c : Cycle) (s : State) : (putCycle c s).wall = s.wall := rfl
@[simp] theorem putCycle_put (c : Cycle) (s : State) : (putCycle c s).put = { s.put with cycle := some c } := rfl
@[simp] theorem putCycle_picker (c : Cycle) (s : State) : (putCycle c s).picker = s.picker := rfl
@[simp] theorem putCycle_bench (c : Cycle) (s : State) : (putCycle c s).bench = s.bench := rfl
@[simp] theorem putCycle_prof (c : Cycle) (s : State) : (putCycle c s).prof = s.prof := rfl
@[simp] theorem putCycle_lines (c : Cycle) (s : State) : (putCycle c s).lines = s.lines := rfl
@[simp] theorem putCycle_pending (c : Cycle) (s : State) : (putCycle c s).pending = s.pending := rfl

@[simp] theorem setGraceT_inputs (t : Option Nat) (s : State) : (setGraceT t s).inputs = s.inputs := rfl
@[simp] theorem setGraceT_link (t : Option Nat) (s : State) : (setGraceT t s).link = s.link := rfl
@[simp] theorem setGraceT_offers (t : Option Nat) (s : State) : (setGraceT t s).offers = s.offers := rfl
@[simp] theorem setGraceT_arb (t : Option Nat) (s : State) : (setGraceT t s).arb = s.arb := rfl
@[simp] theorem setGraceT_src (t : Option Nat) (s : State) : (setGraceT t s).src = s.src := rfl
@[simp] theorem setGraceT_wall (t : Option Nat) (s : State) : (setGraceT t s).wall = s.wall := rfl
@[simp] theorem setGraceT_put (t : Option Nat) (s : State) : (setGraceT t s).put = { s.put with graceT := t } := rfl
@[simp] theorem setGraceT_picker (t : Option Nat) (s : State) : (setGraceT t s).picker = s.picker := rfl
@[simp] theorem setGraceT_bench (t : Option Nat) (s : State) : (setGraceT t s).bench = s.bench := rfl
@[simp] theorem setGraceT_prof (t : Option Nat) (s : State) : (setGraceT t s).prof = s.prof := rfl
@[simp] theorem setGraceT_lines (t : Option Nat) (s : State) : (setGraceT t s).lines = s.lines := rfl
@[simp] theorem setGraceT_pending (t : Option Nat) (s : State) : (setGraceT t s).pending = s.pending := rfl

@[simp] theorem serve_inputs (t : Nat) (s : State) : (serve t s).inputs = s.inputs := rfl
@[simp] theorem serve_link (t : Nat) (s : State) : (serve t s).link = s.link := rfl
@[simp] theorem serve_offers (t : Nat) (s : State) : (serve t s).offers = s.offers := rfl
@[simp] theorem serve_arb (t : Nat) (s : State) : (serve t s).arb = s.arb := rfl
@[simp] theorem serve_src (t : Nat) (s : State) : (serve t s).src = s.src := rfl
@[simp] theorem serve_wall (t : Nat) (s : State) : (serve t s).wall = s.wall := rfl
@[simp] theorem serve_put (t : Nat) (s : State) : (serve t s).put = { s.put with lastServed := some t } := rfl
@[simp] theorem serve_picker (t : Nat) (s : State) : (serve t s).picker = s.picker := rfl
@[simp] theorem serve_bench (t : Nat) (s : State) : (serve t s).bench = s.bench := rfl
@[simp] theorem serve_prof (t : Nat) (s : State) : (serve t s).prof = s.prof := rfl
@[simp] theorem serve_lines (t : Nat) (s : State) : (serve t s).lines = s.lines := rfl
@[simp] theorem serve_pending (t : Nat) (s : State) : (serve t s).pending = s.pending := rfl

@[simp] theorem eraseOffer_inputs (t : Nat) (s : State) : (eraseOffer t s).inputs = s.inputs := rfl
@[simp] theorem eraseOffer_link (t : Nat) (s : State) : (eraseOffer t s).link = s.link := rfl
@[simp] theorem eraseOffer_offers (t : Nat) (s : State) : (eraseOffer t s).offers = s.offers.filter fun o => o.tote != t := rfl
@[simp] theorem eraseOffer_arb (t : Nat) (s : State) : (eraseOffer t s).arb = s.arb := rfl
@[simp] theorem eraseOffer_src (t : Nat) (s : State) : (eraseOffer t s).src = s.src := rfl
@[simp] theorem eraseOffer_wall (t : Nat) (s : State) : (eraseOffer t s).wall = s.wall := rfl
@[simp] theorem eraseOffer_put (t : Nat) (s : State) : (eraseOffer t s).put = s.put := rfl
@[simp] theorem eraseOffer_picker (t : Nat) (s : State) : (eraseOffer t s).picker = s.picker := rfl
@[simp] theorem eraseOffer_bench (t : Nat) (s : State) : (eraseOffer t s).bench = s.bench := rfl
@[simp] theorem eraseOffer_prof (t : Nat) (s : State) : (eraseOffer t s).prof = s.prof := rfl
@[simp] theorem eraseOffer_lines (t : Nat) (s : State) : (eraseOffer t s).lines = s.lines := rfl
@[simp] theorem eraseOffer_pending (t : Nat) (s : State) : (eraseOffer t s).pending = s.pending := rfl

@[simp] theorem appendOffer_inputs (o : Offer) (s : State) : (appendOffer o s).inputs = s.inputs := rfl
@[simp] theorem appendOffer_link (o : Offer) (s : State) : (appendOffer o s).link = s.link := rfl
@[simp] theorem appendOffer_offers (o : Offer) (s : State) : (appendOffer o s).offers = s.offers ++ [o] := rfl
@[simp] theorem appendOffer_arb (o : Offer) (s : State) : (appendOffer o s).arb = s.arb := rfl
@[simp] theorem appendOffer_src (o : Offer) (s : State) : (appendOffer o s).src = s.src := rfl
@[simp] theorem appendOffer_wall (o : Offer) (s : State) : (appendOffer o s).wall = s.wall := rfl
@[simp] theorem appendOffer_put (o : Offer) (s : State) : (appendOffer o s).put = s.put := rfl
@[simp] theorem appendOffer_picker (o : Offer) (s : State) : (appendOffer o s).picker = s.picker := rfl
@[simp] theorem appendOffer_bench (o : Offer) (s : State) : (appendOffer o s).bench = s.bench := rfl
@[simp] theorem appendOffer_prof (o : Offer) (s : State) : (appendOffer o s).prof = s.prof := rfl
@[simp] theorem appendOffer_lines (o : Offer) (s : State) : (appendOffer o s).lines = s.lines := rfl
@[simp] theorem appendOffer_pending (o : Offer) (s : State) : (appendOffer o s).pending = s.pending := rfl

@[simp] theorem setArb_inputs (a : Arbiter) (s : State) : (setArb a s).inputs = s.inputs := rfl
@[simp] theorem setArb_link (a : Arbiter) (s : State) : (setArb a s).link = s.link := rfl
@[simp] theorem setArb_offers (a : Arbiter) (s : State) : (setArb a s).offers = s.offers := rfl
@[simp] theorem setArb_arb (a : Arbiter) (s : State) : (setArb a s).arb = a := rfl
@[simp] theorem setArb_src (a : Arbiter) (s : State) : (setArb a s).src = s.src := rfl
@[simp] theorem setArb_wall (a : Arbiter) (s : State) : (setArb a s).wall = s.wall := rfl
@[simp] theorem setArb_put (a : Arbiter) (s : State) : (setArb a s).put = s.put := rfl
@[simp] theorem setArb_picker (a : Arbiter) (s : State) : (setArb a s).picker = s.picker := rfl
@[simp] theorem setArb_bench (a : Arbiter) (s : State) : (setArb a s).bench = s.bench := rfl
@[simp] theorem setArb_prof (a : Arbiter) (s : State) : (setArb a s).prof = s.prof := rfl
@[simp] theorem setArb_lines (a : Arbiter) (s : State) : (setArb a s).lines = s.lines := rfl
@[simp] theorem setArb_pending (a : Arbiter) (s : State) : (setArb a s).pending = s.pending := rfl

@[simp] theorem setProf_inputs (x : ProfileStore) (s : State) : (setProf x s).inputs = s.inputs := rfl
@[simp] theorem setProf_link (x : ProfileStore) (s : State) : (setProf x s).link = s.link := rfl
@[simp] theorem setProf_offers (x : ProfileStore) (s : State) : (setProf x s).offers = s.offers := rfl
@[simp] theorem setProf_arb (x : ProfileStore) (s : State) : (setProf x s).arb = s.arb := rfl
@[simp] theorem setProf_src (x : ProfileStore) (s : State) : (setProf x s).src = s.src := rfl
@[simp] theorem setProf_wall (x : ProfileStore) (s : State) : (setProf x s).wall = s.wall := rfl
@[simp] theorem setProf_put (x : ProfileStore) (s : State) : (setProf x s).put = s.put := rfl
@[simp] theorem setProf_picker (x : ProfileStore) (s : State) : (setProf x s).picker = s.picker := rfl
@[simp] theorem setProf_bench (x : ProfileStore) (s : State) : (setProf x s).bench = s.bench := rfl
@[simp] theorem setProf_prof (x : ProfileStore) (s : State) : (setProf x s).prof = x := rfl
@[simp] theorem setProf_lines (x : ProfileStore) (s : State) : (setProf x s).lines = s.lines := rfl
@[simp] theorem setProf_pending (x : ProfileStore) (s : State) : (setProf x s).pending = s.pending := rfl

@[simp] theorem setCounter_inputs (n : Nat) (s : State) : (setCounter n s).inputs = s.inputs := rfl
@[simp] theorem setCounter_link (n : Nat) (s : State) : (setCounter n s).link = s.link := rfl
@[simp] theorem setCounter_offers (n : Nat) (s : State) : (setCounter n s).offers = s.offers := rfl
@[simp] theorem setCounter_arb (n : Nat) (s : State) : (setCounter n s).arb = s.arb := rfl
@[simp] theorem setCounter_src (n : Nat) (s : State) : (setCounter n s).src = s.src := rfl
@[simp] theorem setCounter_wall (n : Nat) (s : State) : (setCounter n s).wall = { s.wall with counter := n } := rfl
@[simp] theorem setCounter_put (n : Nat) (s : State) : (setCounter n s).put = s.put := rfl
@[simp] theorem setCounter_picker (n : Nat) (s : State) : (setCounter n s).picker = s.picker := rfl
@[simp] theorem setCounter_bench (n : Nat) (s : State) : (setCounter n s).bench = s.bench := rfl
@[simp] theorem setCounter_prof (n : Nat) (s : State) : (setCounter n s).prof = s.prof := rfl
@[simp] theorem setCounter_lines (n : Nat) (s : State) : (setCounter n s).lines = s.lines := rfl
@[simp] theorem setCounter_pending (n : Nat) (s : State) : (setCounter n s).pending = s.pending := rfl

@[simp] theorem endHeld_inputs (s : State) : (endHeld s).inputs = s.inputs := rfl
@[simp] theorem endHeld_link (s : State) : (endHeld s).link = { s.link with held := none } := rfl
@[simp] theorem endHeld_offers (s : State) : (endHeld s).offers = s.offers := rfl
@[simp] theorem endHeld_arb (s : State) : (endHeld s).arb = s.arb := rfl
@[simp] theorem endHeld_src (s : State) : (endHeld s).src = s.src := rfl
@[simp] theorem endHeld_wall (s : State) : (endHeld s).wall = s.wall := rfl
@[simp] theorem endHeld_put (s : State) : (endHeld s).put = s.put := rfl
@[simp] theorem endHeld_picker (s : State) : (endHeld s).picker = s.picker := rfl
@[simp] theorem endHeld_bench (s : State) : (endHeld s).bench = s.bench := rfl
@[simp] theorem endHeld_prof (s : State) : (endHeld s).prof = s.prof := rfl
@[simp] theorem endHeld_lines (s : State) : (endHeld s).lines = s.lines := rfl
@[simp] theorem endHeld_pending (s : State) : (endHeld s).pending = s.pending := rfl

@[simp] theorem endSurveying_inputs (s : State) : (endSurveying s).inputs = s.inputs := rfl
@[simp] theorem endSurveying_link (s : State) : (endSurveying s).link = s.link := rfl
@[simp] theorem endSurveying_offers (s : State) : (endSurveying s).offers = s.offers := rfl
@[simp] theorem endSurveying_arb (s : State) : (endSurveying s).arb = s.arb := rfl
@[simp] theorem endSurveying_src (s : State) : (endSurveying s).src = s.src := rfl
@[simp] theorem endSurveying_wall (s : State) : (endSurveying s).wall = s.wall := rfl
@[simp] theorem endSurveying_put (s : State) : (endSurveying s).put = s.put := rfl
@[simp] theorem endSurveying_picker (s : State) : (endSurveying s).picker = s.picker := rfl
@[simp] theorem endSurveying_bench (s : State) : (endSurveying s).bench = { s.bench with surveying := false } := rfl
@[simp] theorem endSurveying_prof (s : State) : (endSurveying s).prof = s.prof := rfl
@[simp] theorem endSurveying_lines (s : State) : (endSurveying s).lines = s.lines := rfl
@[simp] theorem endSurveying_pending (s : State) : (endSurveying s).pending = s.pending := rfl

@[simp] theorem clearLost_inputs (s : State) : (clearLost s).inputs = s.inputs := rfl
@[simp] theorem clearLost_link (s : State) : (clearLost s).link = { s.link with lost := false } := rfl
@[simp] theorem clearLost_offers (s : State) : (clearLost s).offers = s.offers := rfl
@[simp] theorem clearLost_arb (s : State) : (clearLost s).arb = s.arb := rfl
@[simp] theorem clearLost_src (s : State) : (clearLost s).src = s.src := rfl
@[simp] theorem clearLost_wall (s : State) : (clearLost s).wall = s.wall := rfl
@[simp] theorem clearLost_put (s : State) : (clearLost s).put = s.put := rfl
@[simp] theorem clearLost_picker (s : State) : (clearLost s).picker = s.picker := rfl
@[simp] theorem clearLost_bench (s : State) : (clearLost s).bench = s.bench := rfl
@[simp] theorem clearLost_prof (s : State) : (clearLost s).prof = s.prof := rfl
@[simp] theorem clearLost_lines (s : State) : (clearLost s).lines = s.lines := rfl
@[simp] theorem clearLost_pending (s : State) : (clearLost s).pending = s.pending := rfl

@[simp] theorem appendInbox_inputs (r : Request) (s : State) : (appendInbox r s).inputs = s.inputs := rfl
@[simp] theorem appendInbox_link (r : Request) (s : State) : (appendInbox r s).link = { s.link with inbox := s.link.inbox ++ [r] } := rfl
@[simp] theorem appendInbox_offers (r : Request) (s : State) : (appendInbox r s).offers = s.offers := rfl
@[simp] theorem appendInbox_arb (r : Request) (s : State) : (appendInbox r s).arb = s.arb := rfl
@[simp] theorem appendInbox_src (r : Request) (s : State) : (appendInbox r s).src = s.src := rfl
@[simp] theorem appendInbox_wall (r : Request) (s : State) : (appendInbox r s).wall = s.wall := rfl
@[simp] theorem appendInbox_put (r : Request) (s : State) : (appendInbox r s).put = s.put := rfl
@[simp] theorem appendInbox_picker (r : Request) (s : State) : (appendInbox r s).picker = s.picker := rfl
@[simp] theorem appendInbox_bench (r : Request) (s : State) : (appendInbox r s).bench = s.bench := rfl
@[simp] theorem appendInbox_prof (r : Request) (s : State) : (appendInbox r s).prof = s.prof := rfl
@[simp] theorem appendInbox_lines (r : Request) (s : State) : (appendInbox r s).lines = s.lines := rfl
@[simp] theorem appendInbox_pending (r : Request) (s : State) : (appendInbox r s).pending = s.pending := rfl

@[simp] theorem setRx_inputs (bs : List Byte) (s : State) : (setRx bs s).inputs = s.inputs := rfl
@[simp] theorem setRx_link (bs : List Byte) (s : State) : (setRx bs s).link = { s.link with rx := bs } := rfl
@[simp] theorem setRx_offers (bs : List Byte) (s : State) : (setRx bs s).offers = s.offers := rfl
@[simp] theorem setRx_arb (bs : List Byte) (s : State) : (setRx bs s).arb = s.arb := rfl
@[simp] theorem setRx_src (bs : List Byte) (s : State) : (setRx bs s).src = s.src := rfl
@[simp] theorem setRx_wall (bs : List Byte) (s : State) : (setRx bs s).wall = s.wall := rfl
@[simp] theorem setRx_put (bs : List Byte) (s : State) : (setRx bs s).put = s.put := rfl
@[simp] theorem setRx_picker (bs : List Byte) (s : State) : (setRx bs s).picker = s.picker := rfl
@[simp] theorem setRx_bench (bs : List Byte) (s : State) : (setRx bs s).bench = s.bench := rfl
@[simp] theorem setRx_prof (bs : List Byte) (s : State) : (setRx bs s).prof = s.prof := rfl
@[simp] theorem setRx_lines (bs : List Byte) (s : State) : (setRx bs s).lines = s.lines := rfl
@[simp] theorem setRx_pending (bs : List Byte) (s : State) : (setRx bs s).pending = s.pending := rfl

@[simp] theorem setOut_inputs (out : List OutEntry) (s : State) : (setOut out s).inputs = s.inputs := rfl
@[simp] theorem setOut_link (out : List OutEntry) (s : State) : (setOut out s).link = { s.link with out := out } := rfl
@[simp] theorem setOut_offers (out : List OutEntry) (s : State) : (setOut out s).offers = s.offers := rfl
@[simp] theorem setOut_arb (out : List OutEntry) (s : State) : (setOut out s).arb = s.arb := rfl
@[simp] theorem setOut_src (out : List OutEntry) (s : State) : (setOut out s).src = s.src := rfl
@[simp] theorem setOut_wall (out : List OutEntry) (s : State) : (setOut out s).wall = s.wall := rfl
@[simp] theorem setOut_put (out : List OutEntry) (s : State) : (setOut out s).put = s.put := rfl
@[simp] theorem setOut_picker (out : List OutEntry) (s : State) : (setOut out s).picker = s.picker := rfl
@[simp] theorem setOut_bench (out : List OutEntry) (s : State) : (setOut out s).bench = s.bench := rfl
@[simp] theorem setOut_prof (out : List OutEntry) (s : State) : (setOut out s).prof = s.prof := rfl
@[simp] theorem setOut_lines (out : List OutEntry) (s : State) : (setOut out s).lines = s.lines := rfl
@[simp] theorem setOut_pending (out : List OutEntry) (s : State) : (setOut out s).pending = s.pending := rfl

/-! ## Reading one position or line after it has changed -/

@[simp] theorem modSrc_self (p : Fin 4) (f : SrcPos → SrcPos) (s : State) : (modSrc p f s).src[p] = f s.src[p] := by
  simp [modSrc]

theorem modSrc_other {p q : Fin 4} (h : p ≠ q) (f : SrcPos → SrcPos) (s : State) :
    (modSrc p f s).src[q] = s.src[q] := by
  have : p.val ≠ q.val := fun e => h (Fin.ext e)
  simp [modSrc, this]

theorem modSrc_getElem (p q : Fin 4) (f : SrcPos → SrcPos) (s : State) :
    (modSrc p f s).src[q] = if p = q then f s.src[q] else s.src[q] := by
  split
  · next h => subst h; exact modSrc_self p f s
  · next h => exact modSrc_other h f s

@[simp] theorem modOrd_self (q : Fin 12) (f : OrdPos → OrdPos) (s : State) :
    (modOrd q f s).wall.pos[q] = f s.wall.pos[q] := by
  simp [modOrd]

theorem modOrd_getElem (q q' : Fin 12) (f : OrdPos → OrdPos) (s : State) :
    (modOrd q f s).wall.pos[q'] = if q = q' then f s.wall.pos[q'] else s.wall.pos[q'] := by
  by_cases h : q = q'
  · subst h; simp [modOrd]
  · have : q.val ≠ q'.val := fun e => h (Fin.ext e)
    simp [modOrd, this, h]

theorem modLine_getElem (i j : Fin 16) (f : FieldLine → FieldLine) (s : State) :
    (modLine i f s).lines[j] = if i = j then f s.lines[j] else s.lines[j] := by
  by_cases h : i = j
  · subst h; simp [modLine]
  · have : i.val ≠ j.val := fun e => h (Fin.ext e)
    simp [modLine, this, h]

/-- Two states are equal when every field is. -/
theorem State.eq_of_fields {s t : State} (h1 : s.inputs = t.inputs) (h2 : s.link = t.link) (h3 : s.offers = t.offers)
    (h4 : s.arb = t.arb) (h5 : s.src = t.src) (h6 : s.wall = t.wall) (h7 : s.put = t.put) (h8 : s.picker = t.picker)
    (h9 : s.bench = t.bench) (h10 : s.prof = t.prof) (h11 : s.lines = t.lines) (h12 : s.pending = t.pending) : s = t := by
  cases s; cases t; simp_all

end Sys2Proof.Machine
end

