-- ==== Sys2Proof/Laws/Quiet.lean ====
section
/-!
SUPPORT. What no internal operation of the part touches: the inputs, the volatile profile, the receiver, the inbox, the
request in execution, the bench clock and the command queue. The outbound queue only grows, by notices, and never past
its capacity; the offer list never gains a record. Every operation below a request is `Quiet`.
-/
namespace Sys2Proof.Machine

/-- What an internal operation leaves as it was. -/
structure Quiet (s t : State) : Prop where
  inputs : t.inputs = s.inputs
  pending : t.pending = s.pending
  prof : t.prof = s.prof
  clock : t.bench.clock = s.bench.clock
  rx : t.link.rx = s.link.rx
  inbox : t.link.inbox = s.link.inbox
  held : t.link.held = s.link.held
  out : ∃ ns : List Notice, t.link.out = s.link.out ++ ns.map OutEntry.notice
  room : noticeCount s ≤ Config.noticeCapacity → noticeCount t ≤ Config.noticeCapacity
  totes : (t.offers.map fun o => o.tote).Sublist (s.offers.map fun o => o.tote)

theorem Quiet.refl (s : State) : Quiet s s :=
  ⟨rfl, rfl, rfl, rfl, rfl, rfl, rfl, ⟨[], by simp⟩, id, List.Sublist.refl _⟩

theorem Quiet.trans {s t u : State} (h : Quiet s t) (k : Quiet t u) : Quiet s u where
  inputs := k.inputs.trans h.inputs
  pending := k.pending.trans h.pending
  prof := k.prof.trans h.prof
  clock := k.clock.trans h.clock
  rx := k.rx.trans h.rx
  inbox := k.inbox.trans h.inbox
  held := k.held.trans h.held
  out := by
    obtain ⟨a, ha⟩ := h.out
    obtain ⟨b, hb⟩ := k.out
    exact ⟨a ++ b, by rw [hb, ha, List.map_append, List.append_assoc]⟩
  room := fun x => k.room (h.room x)
  totes := k.totes.trans h.totes

/-- An update that leaves the link, the offers' ids and the quiet fields alone. -/
theorem Quiet.of_eq {s t : State} (h1 : t.inputs = s.inputs) (h2 : t.pending = s.pending) (h3 : t.prof = s.prof)
    (h4 : t.bench.clock = s.bench.clock) (h5 : t.link = s.link)
    (h6 : (t.offers.map fun o => o.tote).Sublist (s.offers.map fun o => o.tote)) : Quiet s t where
  inputs := h1
  pending := h2
  prof := h3
  clock := h4
  rx := by rw [h5]
  inbox := by rw [h5]
  held := by rw [h5]
  out := ⟨[], by simp [h5]⟩
  room := by simp [noticeCount, h5]
  totes := h6

theorem Quiet.foldl {α : Type} {f : State → α → State} (h : ∀ s a, Quiet s (f s a)) (l : List α) (s : State) :
    Quiet s (l.foldl f s) := by
  induction l generalizing s with
  | nil => exact Quiet.refl s
  | cons a l ih => exact (h s a).trans (ih _)

/-! ## The plain updates -/

theorem modSrc_quiet (p : Fin 4) (f : SrcPos → SrcPos) (s : State) : Quiet s (modSrc p f s) :=
  Quiet.of_eq rfl rfl rfl rfl rfl (List.Sublist.refl _)

theorem modOrd_quiet (q : Fin 12) (f : OrdPos → OrdPos) (s : State) : Quiet s (modOrd q f s) :=
  Quiet.of_eq rfl rfl rfl rfl rfl (List.Sublist.refl _)

theorem modRec_quiet (q : Fin 12) (f : Rec → Rec) (s : State) : Quiet s (modRec q f s) := modOrd_quiet q _ s

theorem modLine_quiet (i : Fin 16) (f : FieldLine → FieldLine) (s : State) : Quiet s (modLine i f s) :=
  Quiet.of_eq rfl rfl rfl rfl rfl (List.Sublist.refl _)

theorem modOffer_quiet (t : Nat) (f : Offer → Offer) (h : ∀ o, (f o).tote = o.tote) (s : State) :
    Quiet s (modOffer t f s) := by
  refine Quiet.of_eq rfl rfl rfl rfl rfl ?_
  have : ((modOffer t f s).offers.map fun o => o.tote) = s.offers.map fun o => o.tote := by
    simp only [modOffer_offers, List.map_map]
    refine List.map_congr_left fun o _ => ?_
    simp only [Function.comp]
    split
    · exact h o
    · rfl
  rw [this]

theorem setIdleT_quiet (t : Option Nat) (s : State) : Quiet s (setIdleT t s) :=
  Quiet.of_eq rfl rfl rfl rfl rfl (List.Sublist.refl _)

theorem putCond_quiet (c : PickerCond) (s : State) : Quiet s (putCond c s) :=
  Quiet.of_eq rfl rfl rfl rfl rfl (List.Sublist.refl _)

theorem putMode_quiet (m : BenchMode) (s : State) : Quiet s (putMode m s) :=
  Quiet.of_eq rfl rfl rfl rfl rfl (List.Sublist.refl _)

theorem putCycle_quiet (c : Cycle) (s : State) : Quiet s (putCycle c s) :=
  Quiet.of_eq rfl rfl rfl rfl rfl (List.Sublist.refl _)

theorem deleteCycle_quiet (s : State) : Quiet s (deleteCycle s) :=
  Quiet.of_eq rfl rfl rfl rfl rfl (List.Sublist.refl _)

theorem setGraceT_quiet (t : Option Nat) (s : State) : Quiet s (setGraceT t s) :=
  Quiet.of_eq rfl rfl rfl rfl rfl (List.Sublist.refl _)

theorem serve_quiet (t : Nat) (s : State) : Quiet s (serve t s) :=
  Quiet.of_eq rfl rfl rfl rfl rfl (List.Sublist.refl _)

theorem setArb_quiet (a : Arbiter) (s : State) : Quiet s (setArb a s) :=
  Quiet.of_eq rfl rfl rfl rfl rfl (List.Sublist.refl _)

theorem endSurveying_quiet (s : State) : Quiet s (endSurveying s) :=
  Quiet.of_eq rfl rfl rfl rfl rfl (List.Sublist.refl _)

theorem eraseOffer_quiet (t : Nat) (s : State) : Quiet s (eraseOffer t s) :=
  Quiet.of_eq rfl rfl rfl rfl rfl (List.filter_sublist.map _)

theorem clearServed_quiet (t : Nat) (s : State) : Quiet s (clearServed t s) := by
  unfold clearServed
  split
  · exact Quiet.of_eq rfl rfl rfl rfl rfl (List.Sublist.refl _)
  · exact Quiet.refl s

theorem dropOffer_quiet (t : Nat) (s : State) : Quiet s (dropOffer t s) :=
  (eraseOffer_quiet ..).trans (clearServed_quiet ..)

/-! ## Orders and notices -/

theorem handOrder_quiet (pos : Pos) (o : Order) (s : State) : Quiet s (handOrder pos o s) := by
  unfold handOrder
  split
  · exact Quiet.refl s
  · exact modLine_quiet _ _ s

theorem clearLine_quiet (pos : Pos) (s : State) : Quiet s (clearLine pos s) := modLine_quiet _ _ s

/-- The three outcomes of handing over a notice (R167, R168): nothing, the notice appended, the lost flag set. -/
theorem notify_cases (b : NoticeBody) (s : State) :
    notify b s = s ∨ (notify b s = pushNotice b s ∧ noticeCount s < Config.noticeCapacity) ∨ notify b s = setLost s := by
  unfold notify
  split
  · exact .inl rfl
  · split
    · next h => exact .inr (.inl ⟨rfl, Nat.lt_of_lt_of_le h (by decide)⟩)
    · exact .inr (.inr rfl)
  · split
    · next h => exact .inr (.inl ⟨rfl, h⟩)
    · exact .inr (.inr rfl)

theorem noticeCount_pushNotice (b : NoticeBody) (s : State) : noticeCount (pushNotice b s) = noticeCount s + 1 := by
  simp [noticeCount, OutEntry.isNotice]

theorem notify_quiet (b : NoticeBody) (s : State) : Quiet s (notify b s) := by
  rcases notify_cases b s with h | ⟨h, k⟩ | h
  · rw [h]; exact Quiet.refl s
  · rw [h]
    refine ⟨rfl, rfl, rfl, rfl, rfl, rfl, rfl, ⟨[⟨s.bench.clock, b⟩], rfl⟩, fun _ => ?_, List.Sublist.refl _⟩
    rw [noticeCount_pushNotice]; exact k
  · rw [h]
    exact ⟨rfl, rfl, rfl, rfl, rfl, rfl, rfl, ⟨[], by simp⟩, id, List.Sublist.refl _⟩

/-- A notice changes nothing but the link interface. -/
theorem notify_frame (b : NoticeBody) (s : State) :
    (notify b s).inputs = s.inputs ∧ (notify b s).offers = s.offers ∧ (notify b s).arb = s.arb ∧
      (notify b s).src = s.src ∧ (notify b s).wall = s.wall ∧ (notify b s).put = s.put ∧
      (notify b s).picker = s.picker ∧ (notify b s).bench = s.bench ∧ (notify b s).prof = s.prof ∧
      (notify b s).lines = s.lines ∧ (notify b s).pending = s.pending := by
  rcases notify_cases b s with h | ⟨h, -⟩ | h <;> rw [h] <;> simp

@[simp] theorem notify_inputs (b : NoticeBody) (s : State) : (notify b s).inputs = s.inputs := (notify_frame b s).1
@[simp] theorem notify_offers (b : NoticeBody) (s : State) : (notify b s).offers = s.offers := (notify_frame b s).2.1
@[simp] theorem notify_arb (b : NoticeBody) (s : State) : (notify b s).arb = s.arb := (notify_frame b s).2.2.1
@[simp] theorem notify_src (b : NoticeBody) (s : State) : (notify b s).src = s.src := (notify_frame b s).2.2.2.1
@[simp] theorem notify_wall (b : NoticeBody) (s : State) : (notify b s).wall = s.wall := (notify_frame b s).2.2.2.2.1
@[simp] theorem notify_put (b : NoticeBody) (s : State) : (notify b s).put = s.put :=
  (notify_frame b s).2.2.2.2.2.1
@[simp] theorem notify_picker (b : NoticeBody) (s : State) : (notify b s).picker = s.picker :=
  (notify_frame b s).2.2.2.2.2.2.1
@[simp] theorem notify_bench (b : NoticeBody) (s : State) : (notify b s).bench = s.bench :=
  (notify_frame b s).2.2.2.2.2.2.2.1
@[simp] theorem notify_prof (b : NoticeBody) (s : State) : (notify b s).prof = s.prof :=
  (notify_frame b s).2.2.2.2.2.2.2.2.1
@[simp] theorem notify_lines (b : NoticeBody) (s : State) : (notify b s).lines = s.lines :=
  (notify_frame b s).2.2.2.2.2.2.2.2.2.1
@[simp] theorem notify_pending (b : NoticeBody) (s : State) : (notify b s).pending = s.pending :=
  (notify_frame b s).2.2.2.2.2.2.2.2.2.2

theorem notifySrc_quiet (p : Fin 4) (s : State) : Quiet s (notifySrc p s) := notify_quiet _ s
theorem notifyOrd_quiet (q : Fin 12) (s : State) : Quiet s (notifyOrd q s) := notify_quiet _ s
theorem notifyWall_quiet (q : Fin 12) (e : WallEvent) (s : State) : Quiet s (notifyWall q e s) := notify_quiet _ s
theorem notifyRelease_quiet (o : Offer) (r : Reason) (pl : Option (Fin 4 × Slot)) (s : State) :
    Quiet s (notifyRelease o r pl s) := notify_quiet _ s

/-! ## Positions, mode, allocation -/

theorem closeSrc_quiet (p : Fin 4) (s : State) : Quiet s (closeSrc p s) :=
  (modSrc_quiet ..).trans (notifySrc_quiet ..)

theorem closeOrd_quiet (q : Fin 12) (s : State) : Quiet s (closeOrd q s) :=
  (modOrd_quiet ..).trans (notifyOrd_quiet ..)

theorem setMode_quiet (m : BenchMode) (s : State) : Quiet s (setMode m s) :=
  (putMode_quiet ..).trans (notify_quiet ..)

theorem judgeDrain_quiet (s : State) : Quiet s (judgeDrain s) := by
  unfold judgeDrain
  split
  · exact setMode_quiet _ s
  · exact Quiet.refl s

theorem slotSettled_quiet (p : Fin 4) (s : State) : Quiet s (slotSettled p s) := by
  unfold slotSettled
  refine Quiet.trans ?_ (judgeDrain_quiet _)
  split
  · exact (modSrc_quiet ..).trans (closeSrc_quiet ..)
  · exact modSrc_quiet ..

theorem markFull_quiet (t : Temp) (s : State) (q : Fin 12) : Quiet s (markFull t s q) := by
  unfold markFull
  split
  · exact Quiet.refl s
  · split
    · exact Quiet.refl s
    · exact (notifyWall_quiet ..).trans (modRec_quiet ..)

theorem allocate_quiet (t : Temp) (l : OLine) (s : State) : Quiet s (allocate t l s).2 := by
  unfold allocate
  split
  · exact Quiet.refl s
  · exact Quiet.foldl (markFull_quiet t) _ s

theorem firstServeable_quiet (t : Temp) (i : Nat) (ls : List OLine) (s : State) :
    Quiet s (firstServeable t i ls s).2 := by
  induction ls generalizing i s with
  | nil => exact Quiet.refl s
  | cons l ls ih =>
    unfold firstServeable
    split
    · have h := allocate_quiet t l s
      split
      · next e => rw [e] at h; exact h
      · next e => rw [e] at h; exact h.trans (ih ..)
    · exact ih ..

theorem stopOrphan_quiet (p : Fin 4) (s : State) : Quiet s (stopOrphan p s) := modSrc_quiet ..
theorem startOrphan_quiet (p : Fin 4) (s : State) : Quiet s (startOrphan p s) := modSrc_quiet ..

theorem judgeOrphan_quiet (p : Fin 4) (s : State) : Quiet s (judgeOrphan p s) := by
  unfold judgeOrphan
  split
  · split
    · exact stopOrphan_quiet p s
    · next o _ =>
      split
      · have h := firstServeable_quiet o.temp 0 o.lines s
        split
        · next e => rw [e] at h; exact h.trans (stopOrphan_quiet ..)
        · next e => rw [e] at h; exact h.trans (startOrphan_quiet ..)
      · exact stopOrphan_quiet p s
  · exact stopOrphan_quiet p s

theorem judgeOrphans_quiet (s : State) : Quiet s (judgeOrphans s) :=
  Quiet.foldl (fun s p => judgeOrphan_quiet p s) _ s

/-! ## Releases, the idle timer, remove lights -/

theorem releaseSlot_quiet (p : Fin 4) (sl : Slot) (t : Nat) (r : Reason) (s : State) :
    Quiet s (releaseSlot p sl t r s) := by
  unfold releaseSlot
  split
  · have h : Quiet s (clearServed t (modOffer t (fun o => { o with state := .leaving, reason := some r })
        (handOrder (.src p) (.gate (exitGate sl))
          (modSrc p (SrcPos.leaving sl (some t) none (s.prof.profile.leaveTimeout * 10)) s)))) :=
      Quiet.trans (Quiet.trans (Quiet.trans (modSrc_quiet ..) (handOrder_quiet ..))
        (modOffer_quiet t _ (by intro o; rfl) _))
        (clearServed_quiet ..)
    dsimp only
    split
    · exact h
    · exact h.trans (notifyRelease_quiet ..)
  · exact Quiet.refl s

theorem releaseUnknown_quiet (p : Fin 4) (sl : Slot) (id : Option Nat) (s : State) :
    Quiet s (releaseUnknown p sl id s) := by
  unfold releaseUnknown
  exact Quiet.trans (Quiet.trans (modSrc_quiet ..) (handOrder_quiet ..)) (notify_quiet ..)

theorem askRelease_quiet (t : Nat) (h : HeldRelease) (s : State) : Quiet s (askRelease t h s) := by
  unfold askRelease
  split
  · exact Quiet.refl s
  · split
    · split
      · exact Quiet.refl s
      · exact releaseSlot_quiet ..
    · exact modSrc_quiet ..
    · exact Quiet.refl s
  · split
    · exact releaseSlot_quiet ..
    · exact Quiet.refl s

theorem judgeFace_quiet (p : Fin 4) (s : State) : Quiet s (judgeFace p s) := by
  unfold judgeFace
  split
  · split
    · exact Quiet.refl s
    · split
      · exact judgeOrphan_quiet ..
      · exact releaseSlot_quiet ..
  · exact Quiet.refl s

theorem startIdle_quiet (s : State) : Quiet s (startIdle s) := by
  unfold startIdle
  split
  · exact setIdleT_quiet ..
  · exact Quiet.refl s

theorem stopIdle_quiet (s : State) : Quiet s (stopIdle s) := setIdleT_quiet ..

theorem setPicker_quiet (c : PickerCond) (k : PickerCause) (s : State) : Quiet s (setPicker c k s) :=
  (putCond_quiet ..).trans (notify_quiet ..)

theorem lightOff_quiet (q : Fin 12) (s : State) : Quiet s (lightOff q s) := by
  unfold lightOff
  split
  · exact (modOrd_quiet ..).trans (handOrder_quiet ..)
  · exact Quiet.refl s

theorem lightOn_quiet (q : Fin 12) (s : State) : Quiet s (lightOn q s) := by
  unfold lightOn
  split
  · exact Quiet.refl s
  · exact (modOrd_quiet ..).trans (handOrder_quiet ..)

theorem disturb_quiet (q : Fin 12) (d : Disturbance) (g : Gross) (s : State) : Quiet s (disturb q d g s) := by
  unfold disturb
  split
  · exact Quiet.refl s
  · exact (modRec_quiet ..).trans ((notifyWall_quiet ..).trans (judgeOrphans_quiet _))

/-! ## Arbitration -/

theorem grant_quiet (p : Fin 4) (sl : Slot) (o : Offer) (c : ReqClass) (s : State) : Quiet s (grant p sl o c s) := by
  unfold grant
  dsimp only
  have h : ∀ b, Quiet s (notify b (modOffer o.tote (fun x => x.granted p sl s.prof.profile)
      (modSrc p (SrcPos.called sl o.tote (s.prof.profile.callTimeout * 10)) s))) := fun b =>
    Quiet.trans (Quiet.trans (modSrc_quiet ..) (modOffer_quiet o.tote _ (by intro o; rfl) _)) (notify_quiet ..)
  exact (h _).trans (setArb_quiet ..)

theorem considerSlot_quiet (s : State) (x : Fin 4 × Slot) : Quiet s (considerSlot s x) := by
  unfold considerSlot
  split
  · split
    · exact Quiet.refl s
    · exact grant_quiet ..
  · exact Quiet.refl s

theorem dropExposed_quiet (s : State) (o : Offer) : Quiet s (dropExposed s o) :=
  (dropOffer_quiet ..).trans (notifyRelease_quiet ..)

theorem arbitrate_quiet (s : State) : Quiet s (arbitrate s) := by
  unfold arbitrate
  split
  · exact (Quiet.foldl dropExposed_quiet _ s).trans (Quiet.foldl considerSlot_quiet _ _)
  · exact Quiet.refl s

/-! ## Put cycles -/

theorem showCycle_quiet (c : Cycle) (s : State) : Quiet s (showCycle c s) :=
  (handOrder_quiet ..).trans (handOrder_quiet ..)

theorem darkCycle_quiet (c : Cycle) (f : Option Pos) (s : State) : Quiet s (darkCycle c f s) := by
  unfold darkCycle
  split <;> split
  · exact Quiet.refl s
  · exact handOrder_quiet ..
  · exact handOrder_quiet ..
  · exact (handOrder_quiet ..).trans (handOrder_quiet ..)

theorem updateCycle_quiet (old new : Cycle) (s : State) : Quiet s (updateCycle old new s) := by
  unfold updateCycle
  have h : Quiet s (putCycle new s) := putCycle_quiet ..
  dsimp only
  split
  · exact h
  · split <;> split
    · exact h
    · exact h.trans (handOrder_quiet ..)
    · exact h.trans (handOrder_quiet ..)
    · exact h.trans ((handOrder_quiet ..).trans (handOrder_quiet ..))

theorem candidateAt_quiet (p : Fin 4) (s : State) : Quiet s (candidateAt p s).2 := by
  unfold candidateAt
  split
  · split
    · exact Quiet.refl s
    · next o _ =>
      split
      · exact Quiet.refl s
      · have h := firstServeable_quiet o.temp 0 o.lines s
        split
        · next e => rw [e] at h; exact h
        · next e => rw [e] at h; split <;> exact h
  · exact Quiet.refl s

theorem candidates_quiet (ps : List (Fin 4)) (s : State) : Quiet s (candidates ps s).2 := by
  induction ps generalizing s with
  | nil => exact Quiet.refl s
  | cons p ps ih => exact (candidateAt_quiet p s).trans (ih _)

theorem startCycle_quiet (k : Candidate) (s : State) : Quiet s (startCycle k s) :=
  (putCycle_quiet ..).trans ((serve_quiet ..).trans ((stopOrphan_quiet ..).trans
    ((showCycle_quiet ..).trans (startIdle_quiet _))))

theorem attempt_quiet (s : State) : Quiet s (attempt s) := by
  unfold attempt
  split
  · have h := candidates_quiet srcIndices s
    split
    next e =>
      rw [e] at h
      split
      · exact h
      · exact h.trans (startCycle_quiet ..)
  · exact Quiet.refl s

theorem wallChanged_quiet (s : State) : Quiet s (wallChanged s) := (judgeOrphans_quiet s).trans (attempt_quiet _)

theorem recordEntered_quiet (s : State) : Quiet s (recordEntered s) := (arbitrate_quiet s).trans (wallChanged_quiet _)

theorem charge_quiet (c : Cycle) (k : Nat) (b : Option Nat) (s : State) : Quiet s (charge c k b s) := by
  unfold charge
  split
  · exact Quiet.refl s
  · exact (modRec_quiet ..).trans (judgeOrphans_quiet _)

theorem settleTarget_quiet (q : Fin 12) (s : State) : Quiet s (settleTarget q s) := by
  unfold settleTarget
  split
  · split
    · exact Quiet.refl s
    · exact disturb_quiet ..
  · exact Quiet.refl s

theorem settlePress_quiet (q : Fin 12) (s : State) : Quiet s (settlePress q s) := by
  unfold settlePress
  split
  · exact Quiet.refl s
  · exact modRec_quiet ..
  · exact disturb_quiet ..

theorem writeLine_quiet (c : Cycle) (f : OLine → OLine) (s : State) : Quiet s (writeLine c f s) := by
  unfold writeLine
  exact modOffer_quiet _ _ (by intro o; rfl) _

theorem notifyLine_quiet (c : Cycle) (s : State) : Quiet s (notifyLine c s) := by
  unfold notifyLine
  split
  · exact Quiet.refl s
  · split
    · exact Quiet.refl s
    · exact notify_quiet ..

theorem endGrace_quiet (c : Cycle) (b : Bool) (s : State) : Quiet s (endGrace c b s) := by
  unfold endGrace
  split
  · dsimp only
    split
    · exact setGraceT_quiet ..
    · exact (setGraceT_quiet ..).trans (askRelease_quiet ..)
  · exact Quiet.refl s

theorem handOver_quiet (c : Cycle) (b : Bool) (s : State) : Quiet s (handOver c b s) := by
  unfold handOver
  refine Quiet.trans ?_ (stopIdle_quiet _)
  split
  · exact endGrace_quiet ..
  · exact (endGrace_quiet ..).trans (judgeFace_quiet ..)

theorem endCycle_quiet (c : Cycle) (b : Bool) (s : State) : Quiet s (endCycle c b s) := by
  unfold endCycle
  have h : Quiet s (notifyLine c (writeLine c (fun l => l.closed b) s)) :=
    (writeLine_quiet ..).trans (notifyLine_quiet ..)
  have settle : ∀ u, Quiet u (match c.mode with
      | .press => settlePress c.tgt u
      | .weigh => if b then settleTarget c.tgt u else u) := by
    intro u
    split
    · exact settlePress_quiet ..
    · split
      · exact settleTarget_quiet ..
      · exact Quiet.refl u
  refine Quiet.trans ?_ ((deleteCycle_quiet _).trans ((handOver_quiet ..).trans (attempt_quiet _)))
  refine Quiet.trans ?_ (settle _)
  split
  · exact h
  · exact h.trans (darkCycle_quiet ..)

theorem cancelCycle_quiet (c : Cycle) (f : Option Pos) (s : State) : Quiet s (cancelCycle c f s) := by
  unfold cancelCycle
  dsimp only
  refine Quiet.trans ?_ (handOver_quiet ..)
  have h1 : Quiet s (writeLine c id s) := writeLine_quiet ..
  have h2 : ∀ u, Quiet u (if f = some (.ord c.tgt) then u else settleTarget c.tgt u) := by
    intro u; split
    · exact Quiet.refl u
    · exact settleTarget_quiet ..
  have h3 : ∀ u, Quiet u (if u.picker.cond = .held then u else darkCycle c f u) := by
    intro u; split
    · exact Quiet.refl u
    · exact darkCycle_quiet ..
  have h4 : ∀ u, Quiet u (if f = some (.src c.src) then clearServed c.offer u else u) := by
    intro u; split
    · exact clearServed_quiet ..
    · exact Quiet.refl u
  exact h1.trans ((h2 _).trans ((h3 _).trans ((deleteCycle_quiet _).trans (h4 _))))

theorem activity_quiet (pos : Pos) (r : ActivityReport) (s : State) : Quiet s (activity pos r s) := by
  unfold activity
  split
  · exact startIdle_quiet s
  · exact Quiet.refl s
  · exact (setPicker_quiet ..).trans ((startIdle_quiet _).trans ((arbitrate_quiet _).trans (attempt_quiet _)))

end Sys2Proof.Machine
end

