-- ==== Sys2Proof/Laws/Closed.lean ====
section
/-!
SUPPORT. Each operation of the part is a chain of plain updates, each made under a guard. A relation between states that
holds of every plain update under its guard, and chains, holds of every operation: `ClosedNote`, `ClosedMarks`,
`ClosedArb` and `Closed` name the plain updates, and the theorems carry a relation from them to the operations. An
invariant of the machine is proved by checking it on the plain updates alone.
-/
namespace Sys2Proof.Machine

/-- Notices and full marks. -/
structure ClosedNote (R : State → State → Prop) : Prop where
  refl : ∀ s, R s s
  trans : ∀ {s t u}, R s t → R t u → R s u
  notice : ∀ b s, R s (pushNotice b s)
  lost : ∀ s, R s (setLost s)
  full : ∀ q t s, R s (modRec q (fun r => { r with full := r.full.set t true }) s)

/-- And the orphan timers. -/
structure ClosedMarks (R : State → State → Prop) : Prop extends ClosedNote R where
  orphanOff : ∀ p s, R s (modSrc p (SrcPos.setOrphan none) s)
  orphanOn : ∀ p t s, s.src[p].face.state = .present → R s (modSrc p (SrcPos.setOrphan (some t)) s)

/-- The updates of an arbitration. -/
structure ClosedArb (R : State → State → Prop) : Prop where
  refl : ∀ s, R s s
  trans : ∀ {s t u}, R s t → R t u → R s u
  notice : ∀ b s, R s (pushNotice b s)
  lost : ∀ s, R s (setLost s)
  drop : ∀ x s, R s (dropOffer x s)
  grantSlot : ∀ p sl o s t, callable p sl s = true → o ∈ s.offers → eligible p o s = true →
    R s (modOffer o.tote (fun x => x.granted p sl s.prof.profile) (modSrc p (SrcPos.called sl o.tote t) s))
  arb : ∀ b c t s, R s (setArb (s.arb.afterGrant b c t) s)

variable {R : State → State → Prop}

theorem ClosedNote.notify (C : ClosedNote R) (b : NoticeBody) (s : State) : R s (notify b s) := by
  rcases notify_cases b s with h | ⟨h, -⟩ | h <;> rw [h]
  · exact C.refl s
  · exact C.notice b s
  · exact C.lost s

theorem ClosedArb.notify (C : ClosedArb R) (b : NoticeBody) (s : State) : R s (notify b s) := by
  rcases notify_cases b s with h | ⟨h, -⟩ | h <;> rw [h]
  · exact C.refl s
  · exact C.notice b s
  · exact C.lost s

theorem ClosedNote.foldl (C : ClosedNote R) {α : Type} {f : State → α → State} (h : ∀ s a, R s (f s a)) (l : List α)
    (s : State) : R s (l.foldl f s) := by
  induction l generalizing s with
  | nil => exact C.refl s
  | cons a l ih => exact C.trans (h s a) (ih _)

/-! ## Allocation and the orphan judgement -/

theorem ClosedNote.markFull (C : ClosedNote R) (t : Temp) (s : State) (q : Fin 12) : R s (markFull t s q) := by
  unfold Machine.markFull
  split
  · exact C.refl s
  · split
    · exact C.refl s
    · exact C.trans (C.notify ..) (C.full ..)

theorem ClosedNote.allocate (C : ClosedNote R) (t : Temp) (l : OLine) (s : State) : R s (allocate t l s).2 := by
  unfold Machine.allocate
  split
  · exact C.refl s
  · exact C.foldl (C.markFull t) _ s

theorem ClosedNote.firstServeable (C : ClosedNote R) (t : Temp) (i : Nat) (ls : List OLine) (s : State) :
    R s (firstServeable t i ls s).2 := by
  induction ls generalizing i s with
  | nil => exact C.refl s
  | cons l ls ih =>
    unfold Machine.firstServeable
    split
    · have h := C.allocate t l s
      split
      · next e => rw [e] at h; exact h
      · next e => rw [e] at h; exact C.trans h (ih ..)
    · exact ih ..

theorem ClosedNote.candidateAt (C : ClosedNote R) (p : Fin 4) (s : State) : R s (candidateAt p s).2 := by
  unfold Machine.candidateAt
  split
  · split
    · exact C.refl s
    · next o _ =>
      split
      · exact C.refl s
      · have h := C.firstServeable o.temp 0 o.lines s
        split
        · next e => rw [e] at h; exact h
        · next e => rw [e] at h; split <;> exact h
  · exact C.refl s

theorem ClosedNote.candidates (C : ClosedNote R) (ps : List (Fin 4)) (s : State) : R s (candidates ps s).2 := by
  induction ps generalizing s with
  | nil => exact C.refl s
  | cons p ps ih => exact C.trans (C.candidateAt p s) (ih _)

/-- Notices and full marks leave everything but the link and the records' marks. -/
theorem noteFrame : ClosedNote fun s t =>
    t.inputs = s.inputs ∧ t.offers = s.offers ∧ t.arb = s.arb ∧ t.src = s.src ∧ t.put = s.put ∧ t.picker = s.picker ∧
      t.bench = s.bench ∧ t.prof = s.prof ∧ t.lines = s.lines ∧ t.pending = s.pending ∧
      t.wall.counter = s.wall.counter ∧ ∀ q : Fin 12, t.wall.pos[q].unmarked = s.wall.pos[q].unmarked where
  refl s := by simp
  trans h k := by
    obtain ⟨a1, a2, a3, a4, a5, a6, a7, a8, a9, a10, a11, a12⟩ := h
    obtain ⟨b1, b2, b3, b4, b5, b6, b7, b8, b9, b10, b11, b12⟩ := k
    exact ⟨b1.trans a1, b2.trans a2, b3.trans a3, b4.trans a4, b5.trans a5, b6.trans a6, b7.trans a7, b8.trans a8,
      b9.trans a9, b10.trans a10, b11.trans a11, fun q => (b12 q).trans (a12 q)⟩
  notice b s := by simp
  lost s := by simp
  full q t s := by
    refine ⟨rfl, rfl, rfl, rfl, rfl, rfl, rfl, rfl, rfl, rfl, rfl, fun q' => ?_⟩
    unfold modRec
    rw [modOrd_getElem]
    split
    · simp [OrdPos.unmarked, Option.map_map, Function.comp_def]
    · rfl

theorem firstServeable_src (t : Temp) (i : Nat) (ls : List OLine) (s : State) :
    (firstServeable t i ls s).2.src = s.src := (noteFrame.firstServeable t i ls s).2.2.2.1

theorem ClosedMarks.judgeOrphan (C : ClosedMarks R) (p : Fin 4) (s : State) : R s (judgeOrphan p s) := by
  unfold Machine.judgeOrphan
  split
  · next hp =>
    split
    · exact C.orphanOff p s
    · next o _ =>
      split
      · have h := C.toClosedNote.firstServeable o.temp 0 o.lines s
        have e := firstServeable_src o.temp 0 o.lines s
        split
        · next k => rw [k] at h; exact C.trans h (C.orphanOff ..)
        · next k =>
          rw [k] at h e
          exact C.trans h (C.orphanOn _ _ _ (by rw [show _ = s.src from e]; exact hp.1))
      · exact C.orphanOff p s
  · exact C.orphanOff p s

theorem ClosedMarks.judgeOrphans (C : ClosedMarks R) (s : State) : R s (judgeOrphans s) :=
  C.toClosedNote.foldl (fun s p => C.judgeOrphan p s) _ s

/-! ## Arbitration -/

theorem mem_of_chooseOffer {p : Fin 4} {s : State} {o : Offer} {c : ReqClass} (h : chooseOffer p s = some (o, c)) :
    o ∈ s.offers ∧ eligible p o s = true ∧ reqClass o s = c := by
  unfold chooseOffer at h
  obtain ⟨c', -, h⟩ := List.exists_of_findSome?_eq_some h
  have key : ∀ x : Offer, x ∈ (s.offers.filter fun o => eligible p o s).filter (fun o => reqClass o s == c') →
      x ∈ s.offers ∧ eligible p x s = true ∧ reqClass x s = c' := by
    intro x hx
    simp only [List.mem_filter, beq_iff_eq] at hx
    exact ⟨hx.1.1, hx.1.2, hx.2⟩
  dsimp only at h
  split at h
  · simp only [Option.map_eq_some_iff, Prod.mk.injEq] at h
    obtain ⟨x, hx, rfl, rfl⟩ := h
    exact key x (List.mem_of_find?_eq_some hx)
  · simp only [Option.map_eq_some_iff, Prod.mk.injEq] at h
    obtain ⟨x, hx, rfl, rfl⟩ := h
    exact key x (List.mem_of_mem_head? hx)

theorem ClosedArb.grant (C : ClosedArb R) {p : Fin 4} {sl : Slot} {o : Offer} {s : State}
    (hc : callable p sl s = true) (ho : o ∈ s.offers) (he : eligible p o s = true) (c : ReqClass) :
    R s (grant p sl o c s) := by
  unfold Machine.grant
  dsimp only
  refine C.trans ?_ (C.arb ..)
  refine C.trans ?_ (C.notify _ _)
  exact C.grantSlot p sl o s _ hc ho he

theorem ClosedArb.considerSlot (C : ClosedArb R) (s : State) (x : Fin 4 × Slot) : R s (considerSlot s x) := by
  unfold Machine.considerSlot
  split
  · next hc =>
    split
    · exact C.refl s
    · next o c e =>
      obtain ⟨ho, he, -⟩ := mem_of_chooseOffer e
      exact C.grant hc ho he c
  · exact C.refl s

theorem ClosedArb.dropExposed (C : ClosedArb R) (s : State) (o : Offer) : R s (dropExposed s o) := by
  unfold Machine.dropExposed notifyRelease
  exact C.trans (C.drop ..) (C.notify ..)

theorem ClosedArb.foldl (C : ClosedArb R) {α : Type} {f : State → α → State} (h : ∀ s a, R s (f s a)) (l : List α)
    (s : State) : R s (l.foldl f s) := by
  induction l generalizing s with
  | nil => exact C.refl s
  | cons a l ih => exact C.trans (h s a) (ih _)

theorem ClosedArb.arbitrate (C : ClosedArb R) (s : State) : R s (arbitrate s) := by
  unfold Machine.arbitrate
  split
  · exact C.trans (C.foldl C.dropExposed _ s) (C.foldl C.considerSlot _ _)
  · exact C.refl s

/-! ## Every operation below a put cycle -/

/-- The updates below a put cycle. -/
structure Closed (R : State → State → Prop) : Prop extends ClosedMarks R where
  keep : ∀ t f s, (∀ o, (f o).fixed = o.fixed ∧ (f o).lines = o.lines) → R s (modOffer t f s)
  write : ∀ c f s, (∀ l, (f l).fixed = l.fixed ∧ (f l).done = l.done ∧ (f l).puts = l.puts) → R s (writeLine c f s)
  drop : ∀ x s, R s (dropOffer x s)
  served : ∀ x s, R s (clearServed x s)
  hand : ∀ pos o s, R s (handOrder pos o s)
  clear : ∀ pos s, R s (clearLine pos s)
  blank : ∀ p st c s, (c.isSome = true ↔ st = .faulted) → (st = .closed ∨ st = .faulted) →
    R s (modSrc p (fun x => x.blank st c) s)
  sync : ∀ p d s, R s (modSrc p (fun x => x.synced d) s)
  leave : ∀ p sl t time s, s.src[p].releasable sl = true → R s (modSrc p (SrcPos.leaving sl (some t) none time) s)
  holdRelease : ∀ p h s, s.src[p].face.state = .advancing → R s (modSrc p (SrcPos.holdRelease h) s)
  called : ∀ p sl t time s, callable p sl s = true → R s (modSrc p (SrcPos.called sl t time) s)
  arb : ∀ b c t s, R s (setArb (s.arb.afterGrant b c t) s)
  drained : ∀ s, s.bench.mode = .draining → (∀ p : Fin 4, s.src[p].bothEmpty = true) → R s (putMode .drained s)
  record : ∀ q f s, R s (modRec q f s)
  shut : ∀ q s, R s (modOrd q OrdPos.shutDown s)
  light : ∀ q b s, (b = true → s.wall.pos[q].state = .active) → R s (modOrd q (OrdPos.setLight b) s)
  failed : ∀ q c s, R s (modOrd q (fun x => x.faulted c) s)

end Sys2Proof.Machine
end

