-- ==== Sys2Proof/Laws/ClosedOps.lean ====
section
/-!
SUPPORT. A relation closed under the plain updates holds of the shared operations, the arbitration and the put cycles.
-/
namespace Sys2Proof.Machine

variable {R : State → State → Prop}

/-! ## The shared operations -/

theorem Closed.notify (C : Closed R) (b : NoticeBody) (s : State) : R s (notify b s) := C.toClosedNote.notify b s

theorem Closed.foldl (C : Closed R) {α : Type} {f : State → α → State} (h : ∀ s a, R s (f s a)) (l : List α)
    (s : State) : R s (l.foldl f s) := C.toClosedNote.foldl h l s

theorem Closed.judgeOrphans (C : Closed R) (s : State) : R s (judgeOrphans s) := C.toClosedMarks.judgeOrphans s

theorem Closed.closeSrc (C : Closed R) (p : Fin 4) (s : State) : R s (closeSrc p s) :=
  C.trans (C.blank p .closed none s (by simp) (by simp)) (C.notify ..)

theorem Closed.closeOrd (C : Closed R) (q : Fin 12) (s : State) : R s (closeOrd q s) :=
  C.trans (C.shut q s) (C.notify ..)

theorem all_bothEmpty {s : State} : (srcIndices.all fun p => s.src[p].bothEmpty) = true ↔
    ∀ p : Fin 4, s.src[p].bothEmpty = true := by
  rw [List.all_eq_true]
  exact ⟨fun h p => h p (by fin_cases p <;> decide), fun h p _ => h p⟩

theorem Closed.judgeDrain (C : Closed R) (s : State) : R s (judgeDrain s) := by
  unfold Machine.judgeDrain
  split
  · next h => exact C.trans (C.drained s h.1 (all_bothEmpty.mp h.2)) (C.notify ..)
  · exact C.refl s

theorem Closed.slotSettled (C : Closed R) (p : Fin 4) (s : State) : R s (slotSettled p s) := by
  unfold Machine.slotSettled
  refine C.trans ?_ (C.judgeDrain _)
  split
  · exact C.trans (C.sync ..) (C.closeSrc ..)
  · exact C.sync ..

theorem Closed.releaseSlot (C : Closed R) (p : Fin 4) (sl : Slot) (t : Nat) (r : Reason) (s : State) :
    R s (releaseSlot p sl t r s) := by
  unfold Machine.releaseSlot
  split
  · next g =>
    have h : R s (clearServed t (modOffer t (fun o => { o with state := .leaving, reason := some r })
        (handOrder (Pos.src p) (.gate (exitGate sl))
          (modSrc p (SrcPos.leaving sl (some t) none (s.prof.profile.leaveTimeout * 10)) s)))) :=
      C.trans (C.trans (C.trans (C.leave p sl t _ s g) (C.hand ..)) (C.keep t _ _ (by intro o; exact ⟨rfl, rfl⟩)))
        (C.served ..)
    dsimp only
    split
    · exact h
    · exact C.trans h (C.notify ..)
  · exact C.refl s

theorem Closed.askRelease (C : Closed R) (t : Nat) (h : HeldRelease) (s : State) : R s (askRelease t h s) := by
  unfold Machine.askRelease
  split
  · exact C.refl s
  · split
    · split
      · exact C.refl s
      · exact C.releaseSlot ..
    · next g => exact C.holdRelease _ _ _ g
    · exact C.refl s
  · split
    · exact C.releaseSlot ..
    · exact C.refl s

theorem Closed.judgeFace (C : Closed R) (p : Fin 4) (s : State) : R s (judgeFace p s) := by
  unfold Machine.judgeFace
  split
  · split
    · exact C.refl s
    · split
      · exact C.toClosedMarks.judgeOrphan ..
      · exact C.releaseSlot ..
  · exact C.refl s

theorem Closed.lightOff (C : Closed R) (q : Fin 12) (s : State) : R s (lightOff q s) := by
  unfold Machine.lightOff
  split
  · exact C.trans (C.light q false s (by simp)) (C.hand ..)
  · exact C.refl s

theorem Closed.lightOn (C : Closed R) {q : Fin 12} {s : State} (h : s.wall.pos[q].state = .active) :
    R s (lightOn q s) := by
  unfold Machine.lightOn
  split
  · exact C.refl s
  · exact C.trans (C.light q true s (fun _ => h)) (C.hand ..)

theorem Closed.disturb (C : Closed R) (q : Fin 12) (d : Disturbance) (g : Gross) (s : State) :
    R s (disturb q d g s) := by
  unfold Machine.disturb
  split
  · exact C.refl s
  · exact C.trans (C.record q _ s) (C.trans (C.notify ..) (C.judgeOrphans _))

/-! ## Arbitration -/

theorem Closed.toArb (C : Closed R) : ClosedArb R where
  refl := C.refl
  trans := C.trans
  notice := C.notice
  lost := C.lost
  drop := C.drop
  grantSlot p sl o s t hc _ _ := by
    refine C.trans (C.called p sl o.tote t s hc) (C.keep _ _ _ ?_)
    intro x
    refine ⟨?_, rfl⟩
    cases h : x.exposure <;> simp [Offer.fixed, Offer.granted, h, Exposure.charged, Exposure.judged]
  arb := C.arb

theorem Closed.arbitrate (C : Closed R) (s : State) : R s (arbitrate s) := C.toArb.arbitrate s

/-! ## Put cycles -/

theorem Closed.showCycle (C : Closed R) (c : Cycle) (s : State) : R s (showCycle c s) :=
  C.trans (C.hand ..) (C.hand ..)

theorem Closed.darkCycle (C : Closed R) (c : Cycle) (f : Option Pos) (s : State) : R s (darkCycle c f s) := by
  unfold Machine.darkCycle
  split <;> split
  · exact C.refl s
  · exact C.hand ..
  · exact C.hand ..
  · exact C.trans (C.hand ..) (C.hand ..)

theorem Closed.charge (C : Closed R) (c : Cycle) (k : Nat) (b : Option Nat) (s : State) : R s (charge c k b s) := by
  unfold Machine.charge
  split
  · exact C.refl s
  · exact C.trans (C.record ..) (C.judgeOrphans _)

theorem Closed.settleTarget (C : Closed R) (q : Fin 12) (s : State) : R s (settleTarget q s) := by
  unfold Machine.settleTarget
  split
  · split
    · exact C.refl s
    · exact C.disturb ..
  · exact C.refl s

theorem Closed.settlePress (C : Closed R) (q : Fin 12) (s : State) : R s (settlePress q s) := by
  unfold Machine.settlePress
  split
  · exact C.refl s
  · exact C.record ..
  · exact C.disturb ..

theorem Closed.notifyLine (C : Closed R) (c : Cycle) (s : State) : R s (notifyLine c s) := by
  unfold Machine.notifyLine
  split
  · exact C.refl s
  · split
    · exact C.refl s
    · exact C.notify ..

/-- The updates of the cycle record, the idle timer and the put grace timer. -/
structure ClosedCycle (R : State → State → Prop) : Prop extends Closed R where
  start : ∀ c t s, s.put.cycle = none → c.grace = false → R s (serve t (putCycle c s))
  change : ∀ c s, s.put.cycle.isSome = true → ((s.put.cycle.any fun c => c.grace) = true → c.grace = true) →
    R s (putCycle c s)
  ended : ∀ c b s t, ((s.put.cycle.any fun c => c.grace) = true → c.grace = true) →
    (t = deleteCycle s ∨ ∃ x, t = clearServed x (deleteCycle s)) → R s (handOver c b t)
  idleOn : ∀ s, R s (startIdle s)
  idleOff : ∀ s, R s (stopIdle s)
  cond : ∀ c s, (s.picker.idleT = none ∨ c = .active) → R s (putCond c s)
  grace : ∀ c t s, s.put.cycle = some c → R s (setGraceT (some t) (putCycle { c with grace := true } s))

/-- What the operations below a put cycle leave alone: the cycle record, the put grace timer and the picker. -/
def Still (s t : State) : Prop :=
  t.put.cycle = s.put.cycle ∧ t.put.graceT = s.put.graceT ∧ t.picker = s.picker

theorem clearServed_still (x : Nat) (s : State) : Still s (clearServed x s) := by
  unfold clearServed
  split <;> exact ⟨rfl, rfl, rfl⟩

theorem handOrder_still (pos : Pos) (o : Order) (s : State) : Still s (handOrder pos o s) := by
  unfold handOrder
  split <;> exact ⟨rfl, rfl, rfl⟩

theorem stillClosed : Closed Still where
  refl s := ⟨rfl, rfl, rfl⟩
  trans h k := ⟨k.1.trans h.1, k.2.1.trans h.2.1, k.2.2.trans h.2.2⟩
  notice b s := ⟨rfl, rfl, rfl⟩
  lost s := ⟨rfl, rfl, rfl⟩
  full q t s := ⟨rfl, rfl, rfl⟩
  orphanOff p s := ⟨rfl, rfl, rfl⟩
  orphanOn p t s _ := ⟨rfl, rfl, rfl⟩
  keep t f s _ := ⟨rfl, rfl, rfl⟩
  write c f s _ := ⟨rfl, rfl, rfl⟩
  drop x s := by
    obtain ⟨a, b, c⟩ := clearServed_still x (eraseOffer x s)
    exact ⟨a, b, c⟩
  served x s := clearServed_still x s
  hand pos o s := handOrder_still pos o s
  clear pos s := ⟨rfl, rfl, rfl⟩
  blank p st c s _ _ := ⟨rfl, rfl, rfl⟩
  sync p d s := ⟨rfl, rfl, rfl⟩
  leave p sl t time s _ := ⟨rfl, rfl, rfl⟩
  holdRelease p h s _ := ⟨rfl, rfl, rfl⟩
  called p sl t time s _ := ⟨rfl, rfl, rfl⟩
  arb b c t s := ⟨rfl, rfl, rfl⟩
  drained s _ _ := ⟨rfl, rfl, rfl⟩
  record q f s := ⟨rfl, rfl, rfl⟩
  shut q s := ⟨rfl, rfl, rfl⟩
  light q b s _ := ⟨rfl, rfl, rfl⟩
  failed q c s := ⟨rfl, rfl, rfl⟩

theorem ClosedCycle.updateCycle (C : ClosedCycle R) (old new : Cycle) (s : State) (h : s.put.cycle.isSome = true)
    (g : (s.put.cycle.any fun c => c.grace) = true → new.grace = true) : R s (updateCycle old new s) := by
  unfold Machine.updateCycle
  have k : R s (putCycle new s) := C.change new s h g
  dsimp only
  split
  · exact k
  · split <;> split
    · exact k
    · exact C.trans k (C.hand ..)
    · exact C.trans k (C.hand ..)
    · exact C.trans k (C.trans (C.hand ..) (C.hand ..))

theorem ClosedCycle.startCycle (C : ClosedCycle R) (k : Candidate) (s : State) (h : s.put.cycle = none) :
    R s (startCycle k s) := by
  unfold Machine.startCycle
  dsimp only
  refine C.trans ?_ (C.idleOn _)
  refine C.trans ?_ (C.showCycle ..)
  refine C.trans ?_ (C.orphanOff ..)
  exact C.start _ _ _ h rfl

theorem mayBegin_cycle {s : State} (h : mayBegin s = true) : s.put.cycle = none := by
  simp only [mayBegin, Bool.and_eq_true, Option.isNone_iff_eq_none] at h
  exact h.1.1

theorem ClosedCycle.attempt (C : ClosedCycle R) (s : State) : R s (attempt s) := by
  unfold Machine.attempt
  split
  · next m =>
    have h := C.toClosedNote.candidates srcIndices s
    have p := (noteFrame.candidates srcIndices s).2.2.2.2.1
    split
    next e =>
      rw [e] at h p
      split
      · exact h
      · refine C.trans h (C.startCycle _ _ ?_)
        rw [show _ = s.put from p]
        exact mayBegin_cycle m
  · exact C.refl s

theorem ClosedCycle.wallChanged (C : ClosedCycle R) (s : State) : R s (wallChanged s) :=
  C.trans (C.judgeOrphans s) (C.attempt _)

theorem ClosedCycle.recordEntered (C : ClosedCycle R) (s : State) : R s (recordEntered s) :=
  C.trans (C.arbitrate s) (C.wallChanged _)

/-- The end of a cycle whose record carries the grace of the lit one. -/
theorem ClosedCycle.endCycle (C : ClosedCycle R) (c : Cycle) (b : Bool) (s : State)
    (g : (s.put.cycle.any fun c => c.grace) = true → c.grace = true) : R s (endCycle c b s) := by
  unfold Machine.endCycle
  refine C.trans ?_ (C.attempt _)
  have any : ∀ {R : State → State → Prop}, Closed R →
      R s (notifyLine c (writeLine c (fun l => l.closed b) s)) := fun D =>
    D.trans (D.write c (fun l => l.closed b) s (fun l => ⟨rfl, rfl, rfl⟩)) (D.notifyLine ..)
  have dark : ∀ {R : State → State → Prop}, Closed R → ∀ u, R u (if u.picker.cond = .held then u else darkCycle c none u) := by
    intro R D u
    split
    · exact D.refl u
    · exact D.darkCycle ..
  have settle : ∀ {R : State → State → Prop}, Closed R → ∀ u, R u (match c.mode with
      | .press => settlePress c.tgt u
      | .weigh => if b then settleTarget c.tgt u else u) := by
    intro R D u
    split
    · exact D.settlePress ..
    · split
      · exact D.settleTarget ..
      · exact D.refl u
  have st := stillClosed.trans (stillClosed.trans (any stillClosed) (dark stillClosed _)) (settle stillClosed _)
  refine C.trans (C.trans (C.trans (any C.toClosed) (dark C.toClosed _)) (settle C.toClosed _)) ?_
  refine C.ended c false _ _ ?_ (.inl rfl)
  rw [st.1]
  exact g

/-- The cancellation of a cycle whose record carries the grace of the lit one. -/
theorem ClosedCycle.cancelCycle (C : ClosedCycle R) (c : Cycle) (f : Option Pos) (s : State)
    (g : (s.put.cycle.any fun c => c.grace) = true → c.grace = true) : R s (cancelCycle c f s) := by
  unfold Machine.cancelCycle
  dsimp only
  have line : ∀ {R : State → State → Prop}, Closed R → R s (writeLine c id s) := fun D =>
    D.write c id s (fun l => ⟨rfl, rfl, rfl⟩)
  have settle : ∀ {R : State → State → Prop}, Closed R → ∀ u,
      R u (if f = some (.ord c.tgt) then u else settleTarget c.tgt u) := by
    intro R D u
    split
    · exact D.refl u
    · exact D.settleTarget ..
  have dark : ∀ {R : State → State → Prop}, Closed R → ∀ u,
      R u (if u.picker.cond = .held then u else darkCycle c f u) := by
    intro R D u
    split
    · exact D.refl u
    · exact D.darkCycle ..
  have st := stillClosed.trans (stillClosed.trans (line stillClosed) (settle stillClosed _)) (dark stillClosed _)
  refine C.trans (C.trans (C.trans (line C.toClosed) (settle C.toClosed _)) (dark C.toClosed _)) ?_
  refine C.ended c _ _ _ (by rw [st.1]; exact g) ?_
  split
  · exact .inr ⟨_, rfl⟩
  · exact .inl rfl

theorem ClosedCycle.activity (C : ClosedCycle R) (pos : Pos) (r : ActivityReport) (s : State) :
    R s (activity pos r s) := by
  unfold Machine.activity
  split
  · exact C.idleOn s
  · exact C.refl s
  · exact C.trans (C.trans (C.cond _ s (.inr rfl)) (C.notify ..))
      (C.trans (C.idleOn _) (C.trans (C.arbitrate _) (C.attempt _)))

/-! ## Faults -/

theorem Closed.faultRemove (C : Closed R) (p : Fin 4) (sl : Slot) (n : Option Nat) (s : State) :
    R s (faultRemove p sl n s) := by
  unfold Machine.faultRemove
  split
  · exact C.refl s
  · split
    · exact C.refl s
    · exact C.trans (C.drop ..) (C.notify ..)

theorem Closed.dropToFault (C : Closed R) (p : Fin 4) (c : Cause) (s : State) : R s (dropToFault p c s) :=
  C.trans (C.blank p .faulted (some c) s (by simp) (by simp)) (C.trans (C.clear ..) (C.notify ..))

theorem Closed.removeOffersAt (C : Closed R) (p : Fin 4) (s : State) : R s (removeOffersAt p s) :=
  C.trans (C.faultRemove ..) (C.faultRemove ..)

theorem ClosedCycle.cancelFor (C : ClosedCycle R) (pos : Pos) (b : Bool) (s : State) : R s (cancelFor pos b s) := by
  unfold Machine.cancelFor
  split
  · exact C.refl s
  · next k e =>
    split
    · exact C.cancelCycle k _ s (by rw [e]; simp)
    · exact C.refl s

theorem ClosedCycle.faultSrc (C : ClosedCycle R) (p : Fin 4) (c : Cause) (s : State) : R s (faultSrc p c s) := by
  unfold Machine.faultSrc
  split
  · exact C.refl s
  · exact C.dropToFault ..
  · have h : R s (Machine.judgeDrain (modSrc p (fun x => x.synced s.prof.profile.laneDepth[p])
        (Machine.dropToFault p c (Machine.removeOffersAt p (Machine.cancelFor (Pos.src p) (isLitSource p s) s))))) :=
      C.trans (C.trans (C.cancelFor (Pos.src p) (isLitSource p s) s) (C.removeOffersAt p _))
        (C.trans (C.dropToFault p c _) (C.trans (C.sync p _ _) (C.judgeDrain _)))
    dsimp only
    split
    · exact C.trans h (C.attempt _)
    · exact h

theorem ClosedCycle.faultOrd (C : ClosedCycle R) (q : Fin 12) (c : Cause) (s : State) : R s (faultOrd q c s) := by
  unfold Machine.faultOrd
  split
  · exact C.refl s
  · have h := C.trans (C.cancelFor (Pos.ord q) (isTarget q s) s)
      (C.trans (C.failed q c _) (C.trans (C.clear (Pos.ord q) _) (C.notify (.position (Pos.ord q) (.order
        (clearLine (Pos.ord q) (modOrd q (fun x => x.faulted c) (Machine.cancelFor (Pos.ord q) (isTarget q s) s))).wall.pos[q].state)
        (clearLine (Pos.ord q) (modOrd q (fun x => x.faulted c)
          (Machine.cancelFor (Pos.ord q) (isTarget q s) s))).wall.pos[q].cause) _)))
    dsimp only
    split
    · exact h
    · exact C.trans h (C.wallChanged _)

theorem ClosedCycle.faultAt (C : ClosedCycle R) (pos : Pos) (c : Cause) (s : State) : R s (faultAt pos c s) := by
  cases pos
  · exact C.faultSrc ..
  · exact C.faultOrd ..

end Sys2Proof.Machine
end

