-- ==== Sys2Proof/Laws/ClosedStep.lean ====
section
/-!
SUPPORT. A relation closed under the plain updates holds of every command and of every step.
-/
namespace Sys2Proof.Machine

/-- The plain updates of the commands, each under the guard it is made under, but for the append of an OFFER. -/
structure ClosedStep (R : State → State → Prop) : Prop extends ClosedCycle R where
  same : ∀ s t, t.src = s.src → t.wall.pos = s.wall.pos → t.lines = s.lines → t.bench.mode = s.bench.mode →
    t.put = s.put → t.picker = s.picker → t.offers = s.offers → t.arb = s.arb → t.prof = s.prof → R s t
  startup : ∀ b s, R s (startUp b s)
  ticked : ∀ s, R s (tick s)
  presented : ∀ p t s, s.src[p].face.awaits t = true → R s (modSrc p (SrcPos.presented t) s)
  staged : ∀ p t s, s.src[p].lane.state = .called → R s (modSrc p (SrcPos.staged t) s)
  followed : ∀ p s, s.src[p].face.state = .called → R s (modSrc p SrcPos.followed s)
  settling : ∀ p t s, s.src[p].face.state = .leaving → R s (modSrc p (SrcPos.settling t) s)
  laneGone : ∀ p s, s.src[p].lane.state = .leaving → R s (modSrc p SrcPos.laneGone s)
  lapsed : ∀ p sl s, s.src[p].callTimer sl = some 0 → R s (modSrc p (SrcPos.emptied sl) s)
  faceFree : ∀ p s, s.src[p].face.settleT = some 0 → s.src[p].lane.state = .empty →
    R s (modSrc p (SrcPos.emptied .face) s)
  advanced : ∀ p t s, s.src[p].face.settleT = some 0 → s.src[p].lane.state = .staged →
    R s (modSrc p (SrcPos.advanced t) s)
  transferred : ∀ p s, s.src[p].face.settleT = some 0 → s.src[p].lane.state = .called →
    R s (modSrc p SrcPos.transferred s)
  stopGuard : ∀ p s, R s (modSrc p SrcPos.stopGuard s)
  closing : ∀ p s, s.src[p].state = .opn → R s (modSrc p (SrcPos.putState .closing) s)
  reopening : ∀ p s, s.src[p].state = .closing → R s (modSrc p (SrcPos.putState .opn) s)
  diverted : ∀ p sl s, R s (modSrc p (SrcPos.diverted sl) s)
  surveySrc : ∀ p t s, (s.src[p].state = .closed ∨ s.src[p].state = .faulted) →
    R s (modSrc p (SrcPos.setSurvey t) s)
  surveyOrd : ∀ q t s, (s.wall.pos[q].state = .closed ∨ s.wall.pos[q].state = .faulted) →
    R s (modOrd q (OrdPos.setSurvey t) s)
  surveyed : ∀ pos e s, inSurvey pos s = true → (∀ p f l, pos = .src p → e = .source f l → s.src[p].depth = 0 → l = none) →
    R s (reopenDrain pos (applySurvey pos e (stopSurvey pos s)))
  sent : ∀ pos o rest s, s.lines[lineOf pos].orders = o :: rest → R s (modLine (lineOf pos) (FieldLine.sendNext rest) s)
  emptied : ∀ q s, (s.wall.pos[q].settleT = some 0 ∨ s.wall.pos[q].state = .expected) →
    R s (modOrd q OrdPos.emptied s)
  arrived : ∀ q s, s.wall.pos[q].state = .expected → R s (modOrd q (OrdPos.putState .arrived) s)
  active : ∀ q s, s.wall.pos[q].state = .arrived → R s (modOrd q (OrdPos.putState .active) s)
  departed : ∀ q t s, s.wall.pos[q].state = .leaving → R s (modOrd q (OrdPos.departed t) s)
  weighed : ∀ q g s, R s (modOrd q (OrdPos.weighed g) s)
  leaveOrd : ∀ q t s, (s.wall.pos[q].state = .arrived ∨ s.wall.pos[q].state = .active ∨ s.wall.pos[q].state = .occupied) →
    R s (modOrd q (OrdPos.leave t) s)
  registered : ∀ q r pr cs s, (s.wall.pos[q].state = .empty ∨ s.wall.pos[q].state = .occupied) →
    R s (modOrd q (fun _ => registered s.wall.pos[q] r pr cs) s)
  mode : ∀ m s, m ≠ .drained → R s (putMode m s)
  warnings : ∀ s, R s (judgeAllWarnings s)
  setting : ∀ (f : ProfileField) v p c s, s.prof.storing = false → f.store v s.prof.profile = some (p, c) →
    R s (setProfile p s)
  ladder : ∀ s, R s (setLadder s.prof.profile.ladder s)
  storing : ∀ s, R s (setProf s.prof.stored s)
  shift : ∀ s, R s (setProf { s.prof with shift := true, effLock := effectiveLock s.prof.storedLock true } s)
  completed : ∀ o s, s.prof.storing = true → R s (setProf (s.prof.completed o) s)

variable {R : State → State → Prop}

/-! ## Link and surveys -/

theorem ClosedStep.answer (C : ClosedStep R) (r : Request) (b : ReplyBody) (s : State) : R s (answer r b s) :=
  C.same _ _ rfl rfl rfl rfl rfl rfl rfl rfl rfl

theorem ClosedStep.holdFor (C : ClosedStep R) (r : Request) (j : HeldJob) (s : State) : R s (holdFor r j s) :=
  C.same _ _ rfl rfl rfl rfl rfl rfl rfl rfl rfl

theorem ClosedStep.setOut (C : ClosedStep R) (o : List OutEntry) (s : State) : R s (setOut o s) :=
  C.same _ _ rfl rfl rfl rfl rfl rfl rfl rfl rfl

theorem ClosedStep.setRx (C : ClosedStep R) (o : List Byte) (s : State) : R s (setRx o s) :=
  C.same _ _ rfl rfl rfl rfl rfl rfl rfl rfl rfl

theorem ClosedStep.popRequest (C : ClosedStep R) (s : State) : R s (popRequest s) :=
  C.same _ _ rfl rfl rfl rfl rfl rfl rfl rfl rfl

theorem ClosedStep.takeRequest (C : ClosedStep R) (r : Request) (s : State) : R s (takeRequest r s) := by
  unfold Machine.takeRequest
  split
  · exact C.same _ _ rfl rfl rfl rfl rfl rfl rfl rfl rfl
  · split
    · exact C.answer ..
    · exact C.refl s

theorem ClosedStep.receiveByte (C : ClosedStep R) (s : State) (b : Byte) : R s (receiveByte s b) := by
  unfold Machine.receiveByte
  dsimp only
  split
  · exact C.setRx ..
  · exact C.trans (C.setRx ..) (C.takeRequest ..)

theorem ClosedStep.frameSent (C : ClosedStep R) (s : State) : R s (frameSent s) := by
  unfold Machine.frameSent
  split
  · exact C.refl s
  · split
    · split
      · exact C.trans (C.setOut ..) (C.arbitrate _)
      · exact C.setOut ..
    · split
      · exact C.trans (C.setOut ..) (C.startup ..)
      · exact C.setOut ..

theorem ClosedStep.runRequest (C : ClosedStep R) {α : Type} (row : Instr) (read : State → List Byte → Option α)
    (owner : Request → α → State → State) (h : ∀ r a s, R s (owner r a s)) (s : State) :
    R s (runRequest row read owner s) := by
  unfold Machine.runRequest
  split
  · exact C.refl s
  · dsimp only
    split
    · exact C.trans (C.popRequest s) (C.answer ..)
    · split
      · exact C.trans (C.popRequest s) (C.answer ..)
      · exact C.trans (C.popRequest s) (h ..)

theorem ClosedStep.beginSurveySrc (C : ClosedStep R) (p : Fin 4) (s : State)
    (h : s.src[p].state = .closed ∨ s.src[p].state = .faulted) : R s (beginSurvey (.src p) s) :=
  C.trans (C.surveySrc _ _ _ h) (C.hand ..)

theorem ClosedStep.beginSurveyOrd (C : ClosedStep R) (q : Fin 12) (s : State)
    (h : s.wall.pos[q].state = .closed ∨ s.wall.pos[q].state = .faulted) : R s (beginSurvey (.ord q) s) :=
  C.trans (C.surveyOrd _ _ _ h) (C.hand ..)

theorem ClosedStep.answerHeld (C : ClosedStep R) (pos : Pos) (e : SurveyEnd) (s : State) : R s (answerHeld pos e s) := by
  unfold Machine.answerHeld
  split
  · exact C.refl s
  · split
    · exact C.same _ _ rfl rfl rfl rfl rfl rfl rfl rfl rfl
    · exact C.refl s

theorem ClosedStep.afterSurvey (C : ClosedStep R) (pos : Pos) (s : State) : R s (afterSurvey pos s) := by
  unfold Machine.afterSurvey
  split
  · split
    · exact C.trans (C.arbitrate s) (C.attempt _)
    · exact C.refl s
  · split
    · exact C.recordEntered s
    · exact C.refl s

theorem ClosedStep.finishStartup (C : ClosedStep R) (s : State) : R s (finishStartup s) := by
  unfold Machine.finishStartup
  split
  · exact C.trans (C.same _ (endSurveying s) rfl rfl rfl rfl rfl rfl rfl rfl rfl) (C.notify ..)
  · exact C.refl s

theorem ClosedStep.endSurvey (C : ClosedStep R) (pos : Pos) (e : SurveyEnd) (s : State) (h : inSurvey pos s = true)
    (k : ∀ p f l, pos = .src p → e = .source f l → s.src[p].depth = 0 → l = none) : R s (endSurvey pos e s) :=
  C.trans (C.surveyed pos e s h k) (C.trans (C.answerHeld ..) (C.trans (C.afterSurvey ..) (C.finishStartup _)))

theorem ClosedStep.takeAck (C : ClosedStep R) (pos : Pos) (n : Nat) (s : State) : R s (takeAck pos n s) := by
  unfold Machine.takeAck
  split
  · exact C.refl s
  · next o rest e =>
    split
    · exact C.sent pos o rest s e
    · exact C.refl s

theorem ClosedStep.lineFailed (C : ClosedStep R) (pos : Pos) (s : State) : R s (lineFailed pos s) := by
  unfold Machine.lineFailed
  split
  · split
    · next h => exact C.trans (C.clear ..) (C.endSurvey _ _ _ (by cases pos <;> exact h) (by simp))
    · split
      · exact C.clear ..
      · exact C.trans (C.clear ..) (C.faultAt ..)
  · exact C.refl s

theorem ClosedStep.surveyExpired (C : ClosedStep R) (pos : Pos) (s : State) : R s (surveyExpired pos s) := by
  unfold Machine.surveyExpired
  split
  · next h =>
    refine C.endSurvey _ _ _ ?_ (by simp)
    cases pos
    · exact congrArg Option.isSome h
    · exact congrArg Option.isSome h
  · exact C.refl s

theorem ClosedStep.takeAnswer (C : ClosedStep R) (pos : Pos) (a : SurveyAnswer) (s : State) : R s (takeAnswer pos a s) := by
  unfold Machine.takeAnswer
  split
  · next h =>
    rw [Bool.and_eq_true] at h
    refine C.endSurvey _ _ _ h.1 ?_
    rintro p f l rfl e d
    cases a with
    | source f' l' =>
      simp only [judgeAnswer, d, true_and] at e
      split at e
      · cases e
      · next n =>
        cases e
        simpa using n
    | order => cases e
  · exact C.refl s

theorem ClosedStep.takeFault (C : ClosedStep R) (pos : Pos) (c : ModCause) (s : State) : R s (takeFault pos c s) := by
  unfold Machine.takeFault
  split
  · next h =>
    split
    · exact C.refl s
    · exact C.endSurvey _ _ _ h (by simp)
  · split
    · exact C.refl s
    · exact C.faultAt ..

/-! ## Source positions -/

theorem Closed.sendOut (C : Closed R) (p : Fin 4) (sl : Slot) (id : Option Nat) (r : Reason) (s : State) :
    R s (sendOut p sl id r s) := C.trans (C.hand ..) (C.notify ..)

theorem Closed.faceChecks (C : Closed R) (p : Fin 4) (x : Nat) (h : Option HeldRelease) (s : State) :
    R s (faceChecks p x h s) := by
  unfold Machine.faceChecks
  split
  · exact C.releaseSlot ..
  · exact C.judgeFace ..

theorem ClosedStep.takeArrival (C : ClosedStep R) (p : Fin 4) (sl : Slot) (id : Option Nat) (s : State) :
    R s (takeArrival p sl id s) := by
  unfold Machine.takeArrival
  split
  · exact C.sendOut ..
  · dsimp only
    split
    · split
      · next h =>
        unfold Machine.faceArrival
        dsimp only
        exact C.trans (C.trans (C.presented _ _ _ h) (C.keep _ _ _ (by intro o; exact ⟨rfl, rfl⟩)))
          (C.trans (C.faceChecks ..) (C.trans (C.arbitrate _) (C.attempt _)))
      · split
        · exact C.refl s
        · exact C.sendOut ..
    · split
      · next h => exact C.trans (C.staged _ _ _ h.1) (C.keep _ _ _ (by intro o; exact ⟨rfl, rfl⟩))
      · split
        · next h =>
          exact C.trans (C.followed _ _ h.1) (C.trans (C.hand ..) (C.keep _ _ _ (by intro o; exact ⟨rfl, rfl⟩)))
        · split
          · exact C.refl s
          · exact C.sendOut ..

theorem Closed.offerDeparts (C : Closed R) (n : Option Nat) (s : State) : R s (offerDeparts n s) := by
  unfold Machine.offerDeparts
  split
  · exact C.refl s
  · split
    · exact C.refl s
    · split
      · exact C.keep _ _ _ (by intro o; exact ⟨rfl, rfl⟩)
      · exact C.drop ..

theorem ClosedStep.takeDeparture (C : ClosedStep R) (p : Fin 4) (sl : Slot) (s : State) : R s (takeDeparture p sl s) := by
  unfold Machine.takeDeparture
  dsimp only
  split
  · split
    · next h =>
      have k := C.trans (C.settling p s.prof.profile.settleGuard s h) (C.offerDeparts s.src[p].face.offer _)
      split
      · exact C.trans k (C.arbitrate _)
      · exact k
    · exact C.refl s
  · split
    · next h =>
      exact C.trans (C.laneGone p s h) (C.trans (C.offerDeparts ..) (C.trans (C.slotSettled ..) (C.arbitrate _)))
    · exact C.refl s

theorem Closed.offerLapses (C : Closed R) (t : Nat) (p : Fin 4) (sl : Slot) (s : State) : R s (offerLapses t p sl s) := by
  unfold Machine.offerLapses
  split
  · exact C.refl s
  · dsimp only
    refine C.trans ?_ (C.notify ..)
    split
    · exact C.drop ..
    · exact C.keep _ _ _ (by intro o; exact ⟨rfl, rfl⟩)

theorem ClosedStep.callExpired (C : ClosedStep R) (p : Fin 4) (sl : Slot) (s : State) : R s (callExpired p sl s) := by
  unfold Machine.callExpired
  split
  · next h =>
    unfold Machine.takeLapse
    split
    · exact C.refl s
    · exact C.trans (C.lapsed p sl s h) (C.trans (C.offerLapses ..) (C.trans (C.slotSettled ..) (C.arbitrate _)))
  · exact C.refl s

theorem ClosedStep.leaveExpired (C : ClosedStep R) (p : Fin 4) (sl : Slot) (s : State) : R s (leaveExpired p sl s) := by
  unfold Machine.leaveExpired
  split
  · exact C.faultSrc ..
  · exact C.refl s

theorem ClosedStep.settleExpired (C : ClosedStep R) (p : Fin 4) (s : State) : R s (settleExpired p s) := by
  unfold Machine.settleExpired
  dsimp only
  split
  · next h =>
    split
    · next e =>
      refine C.trans ?_ (C.trans (C.slotSettled ..) (C.arbitrate _))
      unfold Machine.advance
      have k := C.trans (C.advanced p (s.prof.profile.callTimeout * 10) s h e) (C.hand (Pos.src p) (.gate .advance) _)
      dsimp only
      split
      · exact k
      · exact C.trans k (C.keep _ _ _ (by intro o; exact ⟨rfl, rfl⟩))
    · next e =>
      refine C.trans ?_ (C.trans (C.slotSettled ..) (C.arbitrate _))
      unfold Machine.transferCall
      have k := C.transferred p s h e
      dsimp only
      refine C.trans ?_ (C.callExpired ..)
      split
      · exact k
      · exact C.trans k (C.keep _ _ _ (by intro o; exact ⟨rfl, rfl⟩))
    · exact C.stopGuard ..
    · next e => exact C.trans (C.faceFree p s h e) (C.trans (C.slotSettled ..) (C.arbitrate _))
  · exact C.refl s

theorem ClosedStep.orphanExpired (C : ClosedStep R) (p : Fin 4) (s : State) : R s (orphanExpired p s) := by
  unfold Machine.orphanExpired
  split
  · split
    · exact C.refl s
    · exact C.releaseSlot ..
  · exact C.refl s

theorem fixed_judged (o : Offer) (m : Nat) :
    ({ o with exposure := o.exposure.map fun e => e.judged m } : Offer).fixed = o.fixed := by
  cases h : o.exposure <;> simp [Offer.fixed, h, Exposure.judged]

theorem ClosedStep.judgeWarning (C : ClosedStep R) (t : Nat) (s : State) : R s (judgeWarning t s) :=
  C.keep _ _ _ (by intro o; exact ⟨fixed_judged .., rfl⟩)

theorem ClosedCycle.graceExpired (C : ClosedCycle R) (s : State) : R s (graceExpired s) := by
  unfold Machine.graceExpired
  split
  · exact C.refl s
  · next c e =>
    split
    · exact C.trans (C.cancelCycle c none s (by rw [e]; simp)) (C.attempt _)
    · exact C.refl s

theorem ClosedStep.exposureExpired (C : ClosedStep R) (t : Nat) (s : State) : R s (exposureExpired t s) := by
  unfold Machine.exposureExpired
  split
  · exact C.refl s
  · split
    · split
      · next c _ e =>
        split
        · unfold Machine.startGrace
          split
          · exact C.refl s
          · exact C.trans (C.grace _ _ s (by assumption)) (C.graceExpired _)
        · exact C.askRelease ..
      · exact C.askRelease ..
      · exact C.askRelease ..
      · exact C.refl s
    · exact C.refl s

theorem ClosedCycle.setPickerIdle (C : ClosedCycle R) (c : PickerCond) (k : PickerCause) (s : State) :
    R s (setPicker c k (stopIdle s)) :=
  C.trans (C.idleOff s) (C.trans (C.cond c _ (.inl rfl)) (C.notify ..))

theorem ClosedStep.idleExpired (C : ClosedStep R) (s : State) : R s (idleExpired s) := by
  unfold Machine.idleExpired
  split
  · refine C.trans (C.setPickerIdle .idle .idleExpiry s) ?_
    unfold Machine.idleRescue
    refine C.foldl ?_ _ _
    intro s x
    unfold Machine.rescueSlot
    split
    · exact C.refl s
    · split
      · exact C.askRelease ..
      · exact C.refl s
  · exact C.refl s

/-! ## The logic inputs -/

theorem Closed.darkenAll (C : Closed R) (s : State) : R s (darkenAll s) := by
  unfold Machine.darkenAll
  dsimp only
  refine C.trans ?_ (C.foldl (fun s q => C.lightOff q s) _ _)
  split
  · exact C.refl s
  · exact C.darkCycle ..

theorem Closed.restoreAll (C : Closed R) (s : State) : R s (restoreAll s) := by
  have light : ∀ s q, R s (restoreLight s q) := by
    intro s q
    unfold Machine.restoreLight
    split
    · next h => exact C.lightOn h.1
    · exact C.refl s
  unfold Machine.restoreAll
  dsimp only
  refine C.trans ?_ (C.foldl light _ _)
  split
  · exact C.refl s
  · exact C.showCycle ..

theorem ClosedStep.holdGoesOn (C : ClosedStep R) (s : State) : R s (holdGoesOn s) := by
  unfold Machine.holdGoesOn
  split
  · exact C.refl s
  · exact C.trans (C.setPickerIdle ..) (C.darkenAll _)

theorem ClosedStep.holdGoesOff (C : ClosedStep R) (s : State) : R s (holdGoesOff s) := by
  unfold Machine.holdGoesOff
  split
  · exact C.trans (C.trans (C.cond _ s (.inr rfl)) (C.notify ..))
      (C.trans (C.idleOn _) (C.trans (C.restoreAll _) (C.trans (C.arbitrate _) (C.attempt _))))
  · exact C.refl s

/-! ## Order positions and keys -/

theorem Closed.notifyWall (C : Closed R) (q : Fin 12) (e : WallEvent) (s : State) : R s (notifyWall q e s) :=
  C.notify ..

theorem ClosedStep.emptyOrd (C : ClosedStep R) (q : Fin 12) (s : State)
    (h : s.wall.pos[q].settleT = some 0 ∨ s.wall.pos[q].state = .expected) : R s (emptyOrd q s) := by
  unfold Machine.emptyOrd
  dsimp only
  split
  · exact C.trans (C.emptied _ _ h) (C.closeOrd ..)
  · exact C.emptied _ _ h

theorem ClosedStep.takeOrderArrival (C : ClosedStep R) (q : Fin 12) (id : Option Nat) (s : State) :
    R s (takeOrderArrival q id s) := by
  unfold Machine.takeOrderArrival
  have w : R s (Machine.notifyWall q (.wrongTote id) s) := C.notify ..
  have x : R s (Machine.notifyWall q (.wrongTote id) (exitOrd q s)) := C.trans (C.hand ..) (C.notify ..)
  dsimp only
  split
  · next h =>
    split
    · exact C.trans (C.arrived q s h) (C.trans (C.notify ..) (C.recordEntered _))
    · exact x
  · exact x
  · exact x
  · split
    · exact C.refl s
    · exact w
  · split
    · exact C.refl s
    · exact w
  · split
    · exact C.refl s
    · exact w
  · exact w
  · exact C.hand ..
  · exact C.refl s

theorem ClosedStep.takeOrderDeparture (C : ClosedStep R) (q : Fin 12) (s : State) : R s (takeOrderDeparture q s) := by
  unfold Machine.takeOrderDeparture
  split
  · next h => exact C.departed _ _ _ h
  · exact C.refl s

theorem ClosedStep.orderLeaveExpired (C : ClosedStep R) (q : Fin 12) (s : State) : R s (orderLeaveExpired q s) := by
  unfold Machine.orderLeaveExpired
  split
  · exact C.faultOrd ..
  · exact C.refl s

theorem ClosedStep.orderSettleExpired (C : ClosedStep R) (q : Fin 12) (s : State) : R s (orderSettleExpired q s) := by
  unfold Machine.orderSettleExpired
  split
  · next h => exact C.emptyOrd q s (.inl h)
  · exact C.refl s

theorem Closed.cleanRecord (C : Closed R) (q : Fin 12) (s : State) : R s (cleanRecord q s) :=
  C.trans (C.record ..) (C.lightOff ..)

theorem Closed.disturbByReport (C : Closed R) {q : Fin 12} {s : State} (h : s.wall.pos[q].state = .active)
    (d : Disturbance) (g : Gross) (b : Nat) : R s (disturbByReport q d g b s) := by
  unfold Machine.disturbByReport
  dsimp only
  have k : ∀ f, R s (Machine.notifyWall q (.disturbed d g b s.put.cycle.isSome) (modRec q f s)) :=
    fun f => C.trans (C.record q f s) (C.notify ..)
  split
  · refine C.trans (k _) (C.lightOn ?_)
    have e := (noteFrame.notify (.wall q ((modRec q (fun r => { r with
      cond := .disturbed d, misput := r.misput || s.put.cycle.isSome }) s).wall.pos[q].record.map fun r => (r.ref, r.tote))
        (.disturbed d g b s.put.cycle.isSome)) (modRec q (fun r => { r with
      cond := .disturbed d, misput := r.misput || s.put.cycle.isSome }) s)).2.2.2.2.2.2.2.2.2.2.2 q
    have e' := congrArg OrdPos.state e
    simp only [OrdPos.unmarked] at e'
    rw [Machine.notifyWall, e', modRec, modOrd_self]
    exact h
  · exact k _

theorem ClosedStep.judgeCondition (C : ClosedStep R) {q : Fin 12} {s : State} (h : s.wall.pos[q].state = .active)
    (g : Gross) : R s (judgeCondition q g s) := by
  unfold Machine.judgeCondition
  split
  · exact C.refl s
  · dsimp only
    split
    · exact C.refl s
    · split
      · exact C.trans (C.notify ..) (C.trans (C.cleanRecord ..) (C.wallChanged _))
      · exact C.trans (C.disturbByReport h ..) (C.wallChanged _)

theorem ClosedStep.actOnVerdict (C : ClosedStep R) (c : Cycle) (v : Verdict) (g : Gross) (s u : State)
    (e : u.put.cycle = some c) (k : R s u) : R s (actOnVerdict c v g u) := by
  refine C.trans k ?_
  unfold Machine.actOnVerdict
  have ch : ∀ (c' : Cycle) n b w, (charge c' n b w).put.cycle = w.put.cycle := fun c' n b w =>
    (stillClosed.charge c' n b w).1
  dsimp only
  split
  · refine C.trans (C.change _ u (by rw [e]; rfl) (by rw [e]; exact id)) (C.trans (C.charge ..) (C.endCycle _ _ _ ?_))
    rw [ch]
    exact id
  · refine C.trans (C.charge ..) (C.updateCycle _ _ _ ?_ ?_)
    · rw [ch, e]; rfl
    · rw [ch, e]; exact id
  · exact C.updateCycle _ _ _ (by rw [e]; rfl) (by rw [e]; exact id)

theorem ClosedStep.takeActiveStable (C : ClosedStep R) {q : Fin 12} {s : State} (h : s.wall.pos[q].state = .active)
    (g : Gross) : R s (takeActiveStable q g s) := by
  unfold Machine.takeActiveStable
  split
  · exact C.judgeCondition h g
  · next c e =>
    split
    · split
      · unfold Machine.weighTarget
        split
        · exact C.actOnVerdict _ _ _ s s e (C.refl s)
        · exact C.refl s
      · exact C.refl s
    · exact C.judgeCondition h g

theorem ClosedStep.activateRecord (C : ClosedStep R) {q : Fin 12} {s : State} (h : s.wall.pos[q].state = .arrived)
    (g : Gross) : R s (activateRecord q g s) := by
  unfold Machine.activateRecord
  split
  · exact C.notify ..
  · exact C.trans (C.active q s h) (C.trans (C.record ..) (C.trans (C.notify ..) (C.recordEntered _)))

theorem ClosedStep.takeStable (C : ClosedStep R) (q : Fin 12) (g : Gross) (s : State) : R s (takeStable q g s) := by
  unfold Machine.takeStable
  have k : R s (match s.wall.pos[q].state with
    | .arrived => Machine.activateRecord q g (if s.wall.pos[q].state = .closed then s else modOrd q (OrdPos.weighed g) s)
    | .active => Machine.takeActiveStable q g (if s.wall.pos[q].state = .closed then s else modOrd q (OrdPos.weighed g) s)
    | _ => if s.wall.pos[q].state = .closed then s else modOrd q (OrdPos.weighed g) s) := by
    have w : R s (if s.wall.pos[q].state = .closed then s else modOrd q (OrdPos.weighed g) s) := by
      split
      · exact C.refl s
      · exact C.weighed ..
    have st : (if s.wall.pos[q].state = .closed then s else modOrd q (OrdPos.weighed g) s).wall.pos[q].state =
        s.wall.pos[q].state := by
      split
      · rfl
      · rw [modOrd_self]; rfl
    split
    · next h => exact C.trans w (C.activateRecord (st.trans h) g)
    · next h => exact C.trans w (C.takeActiveStable (st.trans h) g)
    · exact w
  dsimp only
  split
  · exact C.trans k (C.activity ..)
  · exact k

theorem ClosedStep.takeShort (C : ClosedStep R) (p : Fin 4) (s : State) : R s (takeShort p s) := by
  unfold Machine.takeShort
  split
  · exact C.refl s
  · next c e =>
    split
    · exact C.endCycle c true s (by rw [e]; exact id)
    · exact C.refl s

theorem ClosedStep.takeButton (C : ClosedStep R) (q : Fin 12) (j : Nat) (s : State) : R s (takeButton q j s) := by
  unfold Machine.takeButton
  have ch : ∀ (c' : Cycle) n b w, (charge c' n b w).put.cycle = w.put.cycle := fun c' n b w =>
    (stillClosed.charge c' n b w).1
  split
  · exact C.refl s
  · next c e =>
    split
    · dsimp only
      split
      · exact C.trans (C.charge ..) (C.updateCycle _ _ _ (by rw [ch, e]; rfl) (by rw [ch, e]; exact id))
      · refine C.trans (C.charge ..) (C.trans (C.change _ _ (by rw [ch, e]; rfl) (by rw [ch, e]; exact id))
          (C.endCycle _ _ _ ?_))
        exact id
    · exact C.refl s

/-! ## Requests -/

theorem ClosedStep.ownOffer (C : ClosedStep R) (ha : ∀ o bs s, judgeOffer s bs = .ok o → R s (appendOffer o s))
    (r : Request) (bs : List Byte) (s : State) : R s (ownOffer r bs s) := by
  unfold Machine.ownOffer
  split
  · exact C.answer ..
  · next h => exact C.trans (ha _ _ _ h) (C.trans (C.answer ..) (C.arbitrate _))

theorem ClosedStep.ownRecall (C : ClosedStep R) (r : Request) (t : Nat) (s : State) : R s (ownRecall r t s) := by
  unfold Machine.ownRecall
  split
  · exact C.answer ..
  · split
    · exact C.trans (C.drop ..) (C.answer ..)
    · unfold Machine.divertCall
      exact C.trans (C.diverted ..) (C.trans (C.drop ..) (C.trans (C.slotSettled ..)
        (C.trans (C.answer ..) (C.arbitrate _))))
    · exact C.trans (C.releaseSlot ..) (C.answer ..)
    · split
      · exact C.answer ..
      · exact C.trans (C.releaseSlot ..) (C.answer ..)
    · exact C.answer ..
    · exact C.answer ..

theorem judgeWallAdd_state {f : WallAddFields} {s : State} {q : Fin 12} (h : judgeWallAdd f s = .ok q) :
    s.wall.pos[q].state = .empty ∨ s.wall.pos[q].state = .occupied := by
  unfold judgeWallAdd at h
  split at h
  · cases h
  · dsimp only at h
    split at h
    · cases h
    split at h
    · cases h
    split at h
    · cases h
    split at h
    · cases h
    split at h
    · cases h
    split at h
    · cases h
    split at h
    · cases h
    · cases h
      by_contra n
      simp_all

theorem ClosedStep.ownWallAdd (C : ClosedStep R) (r : Request) (f : WallAddFields) (s : State) :
    R s (ownWallAdd r f s) := by
  unfold Machine.ownWallAdd
  split
  · exact C.answer ..
  · next q h =>
    dsimp only
    refine C.trans ?_ (C.recordEntered _)
    refine C.trans ?_ (C.answer ..)
    refine C.trans ?_ (C.notify ..)
    refine C.trans (C.same s (setCounter (nextRegistration s.wall.counter) s) rfl rfl rfl rfl rfl rfl rfl rfl rfl) ?_
    exact C.registered q _ _ _ (setCounter (nextRegistration s.wall.counter) s) (judgeWallAdd_state h)

theorem ClosedStep.ownWallUrge (C : ClosedStep R) (r : Request) (a : Nat × Byte) (s : State) :
    R s (ownWallUrge r a s) := by
  unfold Machine.ownWallUrge
  dsimp only
  split
  · exact C.answer ..
  · have k : ∀ u, R s (Machine.answer r (.ok (.urged ((allRecords s).countP fun x => x.ref == a.1))) (setUrgent a.1 u s)) :=
      fun u => C.trans (C.foldl (fun s q => C.record q _ s) _ s) (C.answer ..)
    split
    · exact C.trans (k _) (C.arbitrate _)
    · exact k _

theorem ClosedStep.ownWallWindow (C : ClosedStep R) (r : Request) (a : Nat × Nat × WindowField) (s : State) :
    R s (ownWallWindow r a s) := by
  unfold Machine.ownWallWindow
  split
  · split
    · exact C.answer ..
    · split
      · exact C.answer ..
      · split
        · exact C.answer ..
        · split
          · exact C.answer ..
          · exact C.trans (C.record ..) (C.trans (C.answer ..) (C.wallChanged _))
  · exact C.answer ..

theorem ClosedStep.ownWallShut (C : ClosedStep R) (r : Request) (a : Nat × Nat) (s : State) :
    R s (ownWallShut r a s) := by
  unfold Machine.ownWallShut
  split
  · exact C.answer ..
  · split
    · exact C.answer ..
    · split
      · exact C.answer ..
      · split
        · exact C.answer ..
        · split
          · exact C.answer ..
          · split
            · exact C.answer ..
            · exact C.trans (C.record ..) (C.trans (C.answer ..) (C.wallChanged _))

theorem ClosedStep.ownWallRebase (C : ClosedStep R) (r : Request) (n : Nat) (s : State) : R s (ownWallRebase r n s) := by
  unfold Machine.ownWallRebase
  split
  · exact C.answer ..
  · split
    · exact C.answer ..
    · split
      · exact C.answer ..
      · split
        · dsimp only
          split
          · exact C.trans (C.record ..) (C.trans (C.notify ..) (C.trans (C.cleanRecord ..)
              (C.trans (C.answer ..) (C.wallChanged _))))
          · exact C.trans (C.record ..) (C.answer ..)
        · exact C.answer ..

theorem Closed.notifyReleased (C : Closed R) (q : Fin 12) (b : Bool) (s : State) : R s (notifyReleased q b s) := by
  unfold Machine.notifyReleased
  split
  · exact C.notify ..
  · exact C.notify ..

theorem notifyReleased_state (q q' : Fin 12) (b : Bool) (s : State) :
    (notifyReleased q b s).wall.pos[q'].state = s.wall.pos[q'].state := by
  have e : ∀ n, (notify n s).wall.pos[q'].state = s.wall.pos[q'].state := by
    intro n
    have h := congrArg OrdPos.state ((noteFrame.notify n s).2.2.2.2.2.2.2.2.2.2.2 q')
    simpa only [OrdPos.unmarked] using h
  unfold notifyReleased
  split
  · exact e _
  · exact e _

theorem ClosedStep.releaseOrd (C : ClosedStep R) {q : Fin 12} {s : State}
    (h : s.wall.pos[q].state = .arrived ∨ s.wall.pos[q].state = .active ∨ s.wall.pos[q].state = .occupied) :
    R s (releaseOrd q s) := by
  unfold Machine.releaseOrd
  have k := C.trans (C.notifyReleased q false s)
    (C.trans (C.leaveOrd q (s.prof.profile.leaveTimeout * 10) _ (by rw [notifyReleased_state]; exact h))
      (C.hand (Pos.ord q) (.gate .exit) _))
  dsimp only
  split
  · exact C.trans k (C.hand ..)
  · exact k

theorem ClosedStep.ownWallRelease (C : ClosedStep R) (r : Request) (n : Nat) (s : State) :
    R s (ownWallRelease r n s) := by
  unfold Machine.ownWallRelease
  split
  · exact C.answer ..
  · next q _ =>
    split
    · exact C.answer ..
    · exact C.answer ..
    · exact C.answer ..
    · exact C.answer ..
    · exact C.answer ..
    · next h =>
      refine C.trans (C.notifyReleased q false s) (C.trans (C.emptyOrd _ _ (.inr ?_)) (C.trans (C.answer ..) (C.wallChanged _)))
      rw [notifyReleased_state]
      exact h
    · next h => exact C.trans (C.releaseOrd (.inr (.inr h))) (C.answer ..)
    · next h =>
      split
      · exact C.answer ..
      · refine C.trans (C.releaseOrd ?_) (C.trans (C.answer ..) (C.wallChanged _))
        cases e : s.wall.pos[q].state <;> simp_all

theorem ClosedStep.ownPosClose (C : ClosedStep R) (r : Request) (n : Nat) (s : State) : R s (ownPosClose r n s) := by
  unfold Machine.ownPosClose
  split
  · exact C.answer ..
  · split
    · exact C.answer ..
    · split
      · next h =>
        split
        · exact C.trans (C.closeSrc ..) (C.trans (C.judgeDrain _) (C.answer ..))
        · exact C.trans (C.closing _ _ h) (C.trans (C.notify ..) (C.answer ..))
      · exact C.answer ..
      · exact C.answer ..
      · exact C.trans (C.closeSrc ..) (C.trans (C.judgeDrain _) (C.answer ..))

theorem ClosedStep.ownPosOpen (C : ClosedStep R) (r : Request) (n : Nat) (s : State) : R s (ownPosOpen r n s) := by
  unfold Machine.ownPosOpen
  split
  · exact C.answer ..
  · split
    · exact C.answer ..
    · split
      · exact C.answer ..
      · next h =>
        exact C.trans (C.reopening _ _ h) (C.trans (C.notify ..) (C.trans (C.answer ..) (C.arbitrate _)))
      · next n k =>
        have h : ∀ x : SrcState, (x = .opn → False) → (x = .closing → False) → x = .closed ∨ x = .faulted := by
          intro x; cases x <;> simp
        exact C.trans (C.holdFor ..) (C.beginSurveySrc _ _ (h _ n k))

theorem ClosedStep.ownPosOpenOrder (C : ClosedStep R) (r : Request) (n : Nat) (s : State) :
    R s (ownPosOpenOrder r n s) := by
  unfold Machine.ownPosOpenOrder
  split
  · exact C.answer ..
  · split
    · exact C.answer ..
    · split
      · next h => exact C.trans (C.holdFor ..) (C.beginSurveyOrd _ _ (.inl h))
      · next h => exact C.trans (C.holdFor ..) (C.beginSurveyOrd _ _ (.inr h))
      · exact C.answer ..

theorem Closed.closeFaultedOrd (C : Closed R) (q : Fin 12) (s : State) : R s (closeFaultedOrd q s) := by
  unfold Machine.closeFaultedOrd
  split
  · exact C.trans (C.notifyReleased ..) (C.closeOrd ..)
  · exact C.closeOrd ..

theorem ClosedStep.ownPosCloseOrder (C : ClosedStep R) (r : Request) (n : Nat) (s : State) :
    R s (ownPosCloseOrder r n s) := by
  unfold Machine.ownPosCloseOrder
  split
  · exact C.answer ..
  · split
    · exact C.answer ..
    · split
      · exact C.answer ..
      · exact C.trans (C.closeOrd ..) (C.answer ..)
      · exact C.trans (C.closeFaultedOrd ..) (C.answer ..)
      · exact C.answer ..

theorem ClosedStep.handChange (C : ClosedStep R) (f : ProfileField) (old : Profile) (s : State) : R s (handChange f old s) := by
  have src : ∀ s p, R s (followSourceCount old.sourceCount s p) := by
    intro s p
    unfold Machine.followSourceCount
    split
    · split
      · exact C.refl s
      · exact C.closeSrc ..
      · exact C.refl s
      · next h =>
        split
        · exact C.closeSrc ..
        · exact C.trans (C.closing _ _ h) (C.notify ..)
    · exact C.refl s
  have ord : ∀ s q, R s (followOrderCount old.orderCount s q) := by
    intro s q
    unfold Machine.followOrderCount
    split
    · split
      · exact C.closeOrd ..
      · exact C.closeFaultedOrd ..
      · exact C.refl s
    · exact C.refl s
  have depth : ∀ s p, R s (followDepth s p) := fun s p => C.sync p _ s
  unfold Machine.handChange
  split
  · exact C.trans (C.ladder s) (C.arbitrate _)
  · exact C.arbitrate s
  · exact C.arbitrate s
  · exact C.arbitrate s
  · exact C.arbitrate s
  · exact C.arbitrate s
  · exact C.arbitrate s
  · exact C.trans (C.foldl src _ s) (C.trans (C.judgeDrain _) (C.arbitrate _))
  · exact C.trans (C.foldl depth _ s) (C.arbitrate _)
  · exact C.foldl ord _ s
  · exact C.judgeOrphans s
  · exact C.judgeOrphans s
  · exact C.judgeOrphans s
  · exact C.warnings s
  · exact C.refl s

theorem ClosedStep.ownProfileSet (C : ClosedStep R) (r : Request) (a : Option ProfileField × List Byte) (s : State) :
    R s (ownProfileSet r a s) := by
  unfold Machine.ownProfileSet
  split
  · exact C.answer ..
  · next n =>
    split
    · exact C.answer ..
    · split
      · exact C.answer ..
      · split
        · exact C.answer ..
        · split
          · exact C.answer ..
          · next h => exact C.trans (C.setting _ _ _ _ s (by simpa using n) h) (C.trans (C.handChange ..) (C.answer ..))

theorem ClosedStep.ownProfileGet (C : ClosedStep R) (r : Request) (a : Option Nat) (s : State) :
    R s (ownProfileGet r a s) := by
  unfold Machine.ownProfileGet
  split
  · exact C.answer ..
  · split
    · exact C.answer ..
    · exact C.answer ..

theorem ClosedStep.ownProfileStore (C : ClosedStep R) (r : Request) (a : Unit) (s : State) :
    R s (ownProfileStore r a s) := by
  unfold Machine.ownProfileStore
  split
  · exact C.answer ..
  · split
    · exact C.answer ..
    · exact C.trans (C.storing s) (C.answer ..)

theorem ClosedStep.ownLockShift (C : ClosedStep R) (r : Request) (a : Unit) (s : State) : R s (ownLockShift r a s) := by
  unfold Machine.ownLockShift
  split
  · exact C.answer ..
  · exact C.trans (C.shift s) (C.answer ..)

theorem ClosedStep.completeStore (C : ClosedStep R) (o : StoreOutcome) (s : State) : R s (completeStore o s) := by
  unfold Machine.completeStore
  split
  · next h => exact C.trans (C.completed o s h) (C.notify ..)
  · exact C.refl s

theorem ClosedStep.ownBenchStart (C : ClosedStep R) (r : Request) (a : Unit) (s : State) : R s (ownBenchStart r a s) := by
  unfold Machine.ownBenchStart
  split
  · exact C.answer ..
  · split
    · exact C.answer ..
    · split
      · exact C.answer ..
      · exact C.trans (C.trans (C.mode .service s (by simp)) (C.notify ..))
          (C.trans (C.answer ..) (C.trans (C.arbitrate _) (C.attempt _)))

theorem ClosedStep.ownBenchDrain (C : ClosedStep R) (r : Request) (a : Unit) (s : State) : R s (ownBenchDrain r a s) := by
  unfold Machine.ownBenchDrain
  split
  · exact C.trans (C.trans (C.mode .draining s (by simp)) (C.notify ..))
      (C.trans (C.judgeDrain _) (C.trans (C.answer ..) (C.attempt _)))
  · exact C.answer ..

theorem ClosedStep.ownQueryBench (C : ClosedStep R) (r : Request) (a : QueryArg) (s : State) :
    R s (ownQueryBench r a s) := by
  unfold Machine.ownQueryBench
  split
  · exact C.same _ _ rfl rfl rfl rfl rfl rfl rfl rfl rfl
  · exact C.answer ..

theorem ClosedStep.ownQueryPosition (C : ClosedStep R) (r : Request) (a : QueryArg) (s : State) :
    R s (ownQueryPosition r a s) := by
  unfold Machine.ownQueryPosition
  split
  · split
    · exact C.answer ..
    · exact C.answer ..
  · split
    · exact C.answer ..
    · exact C.answer ..
  · exact C.answer ..

theorem ClosedStep.ownQueryOffer (C : ClosedStep R) (r : Request) (a : QueryArg) (s : State) :
    R s (ownQueryOffer r a s) := by
  unfold Machine.ownQueryOffer
  split
  · split
    · exact C.answer ..
    · exact C.answer ..
  · exact C.answer ..

theorem ClosedStep.ownQueryOrder (C : ClosedStep R) (r : Request) (a : QueryArg) (s : State) :
    R s (ownQueryOrder r a s) := by
  unfold Machine.ownQueryOrder
  split
  · split
    · exact C.answer ..
    · exact C.answer ..
  · exact C.answer ..

/-! ## Every command, every step -/

theorem ClosedStep.live (C : ClosedStep R) {f : State → State} {s t : State} (h : live f s = .next t)
    (k : R s (f s)) : R s t := by
  unfold Machine.live at h
  cases h
  split
  · exact C.refl s
  · exact k

/-- A closed relation holds of every command; the append of an accepted OFFER is asked for that command alone. -/
theorem ClosedStep.exec (C : ClosedStep R) (c : Instr)
    (ha : c = .offer → ∀ o bs s, judgeOffer s bs = .ok o → R s (appendOffer o s)) {s t : State}
    (h : exec c s = .next t) : R s t := by
  have hold : ∀ b, R s (setHold b s) := fun b => C.same _ _ rfl rfl rfl rfl rfl rfl rfl rfl rfl
  cases c
  · exact C.live h (C.startup ..)
  · exact Host.Outcome.next.inj h ▸ C.startup false s
  · exact C.trans (hold true) (C.live h (C.holdGoesOn _))
  · exact C.trans (hold false) (C.live h (C.holdGoesOff _))
  · exact Host.Outcome.next.inj h ▸ C.same _ _ rfl rfl rfl rfl rfl rfl rfl rfl rfl
  · dsimp only [Machine.exec, Machine.execFrameReceived] at h
    exact C.live h (C.foldl C.receiveByte _ s)
  · dsimp only [Machine.exec, Machine.execByteGapTimeout] at h
    exact C.live h (C.trans (C.setRx ..) (C.receiveByte ..))
  · exact C.live h (C.frameSent s)
  · exact C.live h (C.runRequest _ _ _ (fun r _ s => C.answer r _ s) s)
  · exact C.live h (C.runRequest _ _ _ (C.ownOffer (ha rfl)) s)
  · exact C.live h (C.runRequest _ _ _ C.ownRecall s)
  · exact C.live h (C.runRequest _ _ _ C.ownWallAdd s)
  · exact C.live h (C.runRequest _ _ _ C.ownWallUrge s)
  · exact C.live h (C.runRequest _ _ _ C.ownWallWindow s)
  · exact C.live h (C.runRequest _ _ _ C.ownWallShut s)
  · exact C.live h (C.runRequest _ _ _ C.ownWallRebase s)
  · exact C.live h (C.runRequest _ _ _ C.ownWallRelease s)
  · exact C.live h (C.runRequest _ _ _ C.ownPosOpen s)
  · exact C.live h (C.runRequest _ _ _ C.ownPosClose s)
  · exact C.live h (C.runRequest _ _ _ C.ownPosOpenOrder s)
  · exact C.live h (C.runRequest _ _ _ C.ownPosCloseOrder s)
  · exact C.live h (C.runRequest _ _ _ C.ownBenchStart s)
  · exact C.live h (C.runRequest _ _ _ C.ownBenchDrain s)
  · exact C.live h (C.runRequest _ _ _ (fun r _ s => C.trans (C.answer r _ s) (C.holdFor ..)) s)
  · exact C.live h (C.runRequest _ _ _ C.ownProfileSet s)
  · exact C.live h (C.runRequest _ _ _ C.ownProfileGet s)
  · exact C.live h (C.runRequest _ _ _ C.ownProfileStore s)
  · exact C.live h (C.runRequest _ _ _ C.ownLockShift s)
  · exact C.live h (C.runRequest _ _ _ C.ownQueryBench s)
  · exact C.live h (C.runRequest _ _ _ C.ownQueryPosition s)
  · exact C.live h (C.runRequest _ _ _ C.ownQueryOffer s)
  · exact C.live h (C.runRequest _ _ _ C.ownQueryOrder s)
  · exact C.live h (C.completeStore ..)
  · refine C.live h ?_
    split
    · exact C.takeArrival ..
    · exact C.refl s
  · refine C.live h ?_
    split
    · exact C.takeDeparture ..
    · exact C.refl s
  · refine C.live h ?_
    split
    · exact C.takeOrderArrival ..
    · exact C.refl s
  · refine C.live h ?_
    split
    · exact C.takeOrderDeparture ..
    · exact C.refl s
  · dsimp only [Machine.exec, Machine.execStable] at h
    refine C.live h ?_
    split
    · exact C.refl s
    · split
      · exact C.takeStable ..
      · exact C.refl s
  · dsimp only [Machine.exec, Machine.execKeyShort] at h
    refine C.live h ?_
    split
    · split
      · exact C.trans (C.takeShort ..) (C.activity ..)
      · exact C.refl s
    · exact C.refl s
  · dsimp only [Machine.exec, Machine.execKeyButton] at h
    refine C.live h ?_
    split
    · exact C.refl s
    · split
      · exact C.trans (C.takeButton ..) (C.activity ..)
      · exact C.refl s
  · exact C.live h (C.takeFault ..)
  · exact C.live h (C.takeAnswer ..)
  · exact C.live h (C.takeAck ..)
  · exact C.live h (C.lineFailed ..)
  · exact C.live h (C.surveyExpired ..)
  · exact C.live h (C.callExpired ..)
  · exact C.live h (C.leaveExpired ..)
  · exact C.live h (C.settleExpired ..)
  · exact C.live h (C.orphanExpired ..)
  · exact C.live h (C.orderLeaveExpired ..)
  · exact C.live h (C.orderSettleExpired ..)
  · exact C.live h (C.idleExpired s)
  · exact C.live h (C.judgeWarning ..)
  · exact C.live h (C.exposureExpired ..)
  · exact C.live h (C.graceExpired s)
  · exact Host.Outcome.next.inj h ▸ C.same _ _ rfl rfl rfl rfl rfl rfl rfl rfl rfl
  · dsimp only [Machine.exec, Machine.execBadLength] at h
    exact C.live h (C.foldl C.receiveByte _ s)

theorem ClosedStep.step (C : ClosedStep R) (ha : ∀ o bs s, judgeOffer s bs = .ok o → R s (appendOffer o s))
    {s t : State} (h : step s = .next t) : R s t := by
  unfold Machine.step at h
  split at h
  · cases h
    unfold Machine.idle
    split
    · exact C.refl s
    · split
      · exact C.same _ _ rfl rfl rfl rfl rfl rfl rfl rfl rfl
      · exact C.ticked s
  · next c rest _ =>
    exact C.trans (C.same s { s with pending := rest } rfl rfl rfl rfl rfl rfl rfl rfl rfl) (C.exec c (fun _ => ha) h)

end Sys2Proof.Machine
end

