-- ==== Sys2Proof/Laws/Profile.lean ====
section
/-!
SUPPORT. The profile store: the check of the image, what a store leaves, and what a setting changes (R144, R147, R150,
R151).
-/
namespace Sys2Proof.Machine

/-- A check is a word of 16 bits. -/
theorem crc16_lt (bs : List Byte) : crc16 bs < 65536 := (bs.foldl crcByte 0xFFFF).isLt

/-- The check word of an abandoned store never agrees with the contents (R151). -/
theorem badCheck_ne (n : Nat) (p : Profile) : badCheck n p ≠ p.check := by
  have h := crc16_lt p.bytes
  unfold badCheck Profile.check at *
  omega

/-- After a store that failed the image memory is not the profile written with an agreeing check (R151). -/
theorem failedCheck_disagrees (n : Nat) (p : Profile) :
    ¬ (spoiledImage n p = p ∧ failedCheck n p = (spoiledImage n p).check) := by
  rintro ⟨h, k⟩
  unfold failedCheck at k
  rw [if_pos h, h] at k
  exact badCheck_ne n p k

set_option maxRecDepth 100000 in
/-- The check over the default contents is not 0: the image of `State.reset` is INVALID by its check too (R144). -/
theorem check_default_ne_zero : Profile.check {} ≠ 0 := by decide

/-! ## The profile store, update by update -/

@[simp] theorem ProfileStore.stored_profile (x : ProfileStore) : x.stored.profile = x.profile := rfl
@[simp] theorem ProfileStore.stored_image (x : ProfileStore) : x.stored.image = x.profile := rfl
@[simp] theorem ProfileStore.stored_check (x : ProfileStore) : x.stored.check = x.profile.check := rfl
@[simp] theorem ProfileStore.stored_imageValid (x : ProfileStore) : x.stored.imageValid = false := rfl
@[simp] theorem ProfileStore.stored_storing (x : ProfileStore) : x.stored.storing = true := rfl
@[simp] theorem ProfileStore.stored_storedLock (x : ProfileStore) : x.stored.storedLock = x.storedLock := rfl
@[simp] theorem ProfileStore.stored_shift (x : ProfileStore) : x.stored.shift = x.shift := rfl
@[simp] theorem ProfileStore.stored_effLock (x : ProfileStore) : x.stored.effLock = x.effLock := rfl
@[simp] theorem ProfileStore.completed_profile (o : StoreOutcome) (x : ProfileStore) :
    (x.completed o).profile = x.profile := by cases o <;> rfl
@[simp] theorem ProfileStore.completed_storing (o : StoreOutcome) (x : ProfileStore) :
    (x.completed o).storing = false := by cases o <;> rfl
@[simp] theorem ProfileStore.completed_shift (o : StoreOutcome) (x : ProfileStore) :
    (x.completed o).shift = x.shift := by cases o <;> rfl
@[simp] theorem ProfileStore.abandoned_image (x : ProfileStore) : x.abandoned.image = x.image := by
  unfold ProfileStore.abandoned; split <;> rfl
@[simp] theorem ProfileStore.abandoned_shift (x : ProfileStore) : x.abandoned.shift = x.shift := by
  unfold ProfileStore.abandoned; split <;> rfl
@[simp] theorem ProfileStore.started_image (k : Bool) (x : ProfileStore) : (x.started k).image = x.image :=
  x.abandoned_image
@[simp] theorem ProfileStore.started_check (k : Bool) (x : ProfileStore) : (x.started k).check = x.abandoned.check := rfl
@[simp] theorem ProfileStore.started_storing (k : Bool) (x : ProfileStore) : (x.started k).storing = false := rfl
@[simp] theorem ProfileStore.started_shift (k : Bool) (x : ProfileStore) :
    (x.started k).shift = (k && x.shift) := congrArg (k && ·) x.abandoned_shift

/-- A start-up finds the image VALID exactly when no store was in progress and its check agrees (R144, R151). -/
theorem ProfileStore.started_imageValid (k : Bool) (x : ProfileStore) :
    (x.started k).imageValid = (!x.storing && x.image.check == x.check) := by
  unfold ProfileStore.started ProfileStore.loadedFrom ProfileStore.abandoned
  cases h : x.storing
  · simp
  · have n := badCheck_ne x.spoiled x.image
    simp only [if_true, Bool.not_true, Bool.false_and, beq_eq_false_iff_ne]
    exact fun e => n e.symm

/-! ## Settings (R147) -/

/-- A clamped number lies in its range. -/
theorem clampTo_bounds {lo hi n : Nat} (h : lo ≤ hi) : lo ≤ (clampTo lo hi n).1 ∧ (clampTo lo hi n).1 ≤ hi := by
  unfold clampTo
  split
  · exact ⟨le_refl _, h⟩
  · split
    · exact ⟨h, le_refl _⟩
    · dsimp only; omega

end Sys2Proof.Machine
end

