-- ==== Sys2Proof/Laws/QuietEvents.lean ====
section
/-!
SUPPORT. The operations behind the field reports, the timers and the logic inputs are `Quiet` too.
-/
namespace Sys2Proof.Machine

/-! ## Faults -/

theorem faultRemove_quiet (p : Fin 4) (sl : Slot) (n : Option Nat) (s : State) : Quiet s (faultRemove p sl n s) := by
  unfold faultRemove
  split
  · exact Quiet.refl s
  · split
    · exact Quiet.refl s
    · exact (dropOffer_quiet ..).trans (notifyRelease_quiet ..)

theorem dropToFault_quiet (p : Fin 4) (c : Cause) (s : State) : Quiet s (dropToFault p c s) :=
  (modSrc_quiet ..).trans ((clearLine_quiet ..).trans (notifySrc_quiet ..))

theorem cancelFor_quiet (pos : Pos) (b : Bool) (s : State) : Quiet s (cancelFor pos b s) := by
  unfold cancelFor
  split
  · exact Quiet.refl s
  · split
    · exact cancelCycle_quiet ..
    · exact Quiet.refl s

theorem removeOffersAt_quiet (p : Fin 4) (s : State) : Quiet s (removeOffersAt p s) :=
  (faultRemove_quiet ..).trans (faultRemove_quiet ..)

theorem faultSrc_quiet (p : Fin 4) (c : Cause) (s : State) : Quiet s (faultSrc p c s) := by
  unfold faultSrc
  split
  · exact Quiet.refl s
  · exact dropToFault_quiet ..
  · have h := ((cancelFor_quiet (.src p) (isLitSource p s) s).trans (removeOffersAt_quiet p _)).trans
      ((dropToFault_quiet p c _).trans
        ((modSrc_quiet p (fun x => x.synced s.prof.profile.laneDepth[p]) _).trans (judgeDrain_quiet _)))
    dsimp only
    split
    · exact h.trans (attempt_quiet _)
    · exact h

theorem faultOrd_quiet (q : Fin 12) (c : Cause) (s : State) : Quiet s (faultOrd q c s) := by
  unfold faultOrd
  split
  · exact Quiet.refl s
  · have h := (cancelFor_quiet (.ord q) (isTarget q s) s).trans ((modOrd_quiet q (fun x => x.faulted c) _).trans
      ((clearLine_quiet (.ord q) _).trans (notifyOrd_quiet q _)))
    dsimp only
    split
    · exact h
    · exact h.trans (wallChanged_quiet _)

theorem faultAt_quiet (pos : Pos) (c : Cause) (s : State) : Quiet s (faultAt pos c s) := by
  cases pos
  · exact faultSrc_quiet ..
  · exact faultOrd_quiet ..

/-! ## Surveys -/

theorem beginSurvey_quiet (pos : Pos) (s : State) : Quiet s (beginSurvey pos s) := by
  cases pos
  · exact (modSrc_quiet ..).trans (handOrder_quiet ..)
  · exact (modOrd_quiet ..).trans (handOrder_quiet ..)

theorem stopSurvey_quiet (pos : Pos) (s : State) : Quiet s (stopSurvey pos s) := by
  cases pos
  · exact (modSrc_quiet ..).trans (modLine_quiet ..)
  · exact (modOrd_quiet ..).trans (modLine_quiet ..)

theorem notifyReleased_quiet (q : Fin 12) (f : Bool) (s : State) : Quiet s (notifyReleased q f s) := by
  unfold notifyReleased
  split <;> exact notifyWall_quiet ..

theorem surveyFailedSrc_quiet (p : Fin 4) (c : Cause) (s : State) : Quiet s (surveyFailedSrc p c s) := by
  unfold surveyFailedSrc
  have h := (modSrc_quiet p (fun x => x.blank .faulted (some c)) s).trans (clearLine_quiet (.src p) _)
  dsimp only
  split
  · exact h
  · exact h.trans (notifySrc_quiet ..)

theorem surveyFailedOrd_quiet (q : Fin 12) (c : Cause) (s : State) : Quiet s (surveyFailedOrd q c s) := by
  unfold surveyFailedOrd
  have h := (modOrd_quiet q (OrdPos.surveyFailed c) s).trans
    (clearLine_quiet (.ord q) _)
  dsimp only
  split
  · exact h
  · exact h.trans (notifyOrd_quiet ..)

theorem releaseFound_quiet (p : Fin 4) (sl : Slot) (x : Option (Option Nat)) (s : State) :
    Quiet s (releaseFound p sl x s) := by
  unfold releaseFound
  split
  · exact Quiet.refl s
  · exact releaseUnknown_quiet ..

theorem surveyedSrc_quiet (p : Fin 4) (f l : Option (Option Nat)) (s : State) : Quiet s (surveyedSrc p f l s) := by
  unfold surveyedSrc
  have h := (modSrc_quiet p (fun x => x.blank .opn none) s).trans
    ((notifySrc_quiet p _).trans (releaseFound_quiet p .face f _))
  dsimp only
  split
  · exact h.trans ((modSrc_quiet ..).trans (releaseFound_quiet ..))
  · exact h.trans (releaseFound_quiet ..)

theorem reopenOrd_quiet (q : Fin 12) (st : OrdState) (g : Gross) (f : OrdPos → OrdPos) (s : State) :
    Quiet s (reopenOrd q st g f s) :=
  (modOrd_quiet ..).trans (notifyOrd_quiet ..)

theorem giveUpRecord_quiet (q : Fin 12) (i : Option Nat) (s : State) : Quiet s (giveUpRecord q i s) :=
  (notifyReleased_quiet ..).trans (modOrd_quiet ..)

theorem surveyedOrd_quiet (q : Fin 12) (t : Option (Option Nat)) (g : Gross) (s : State) :
    Quiet s (surveyedOrd q t g s) := by
  unfold surveyedOrd
  split
  · split <;> exact reopenOrd_quiet ..
  · dsimp only
    split
    · split
      · exact (reopenOrd_quiet ..).trans (giveUpRecord_quiet ..)
      · exact (reopenOrd_quiet ..).trans (notifyWall_quiet ..)
    · split
      · exact (reopenOrd_quiet ..).trans (giveUpRecord_quiet ..)
      · split
        · split
          · exact (reopenOrd_quiet ..).trans (notifyWall_quiet ..)
          · exact reopenOrd_quiet ..
        · split
          · exact (reopenOrd_quiet ..).trans (notifyWall_quiet ..)
          · exact reopenOrd_quiet ..

theorem applySurvey_quiet (pos : Pos) (e : SurveyEnd) (s : State) : Quiet s (applySurvey pos e s) := by
  unfold applySurvey
  split
  · exact surveyFailedSrc_quiet ..
  · exact surveyedSrc_quiet ..
  · exact surveyFailedSrc_quiet ..
  · exact surveyFailedOrd_quiet ..
  · exact surveyedOrd_quiet ..
  · exact surveyFailedOrd_quiet ..

theorem reopenDrain_quiet (pos : Pos) (s : State) : Quiet s (reopenDrain pos s) := by
  unfold reopenDrain
  split
  · split
    · exact setMode_quiet ..
    · exact Quiet.refl s
  · exact Quiet.refl s

theorem afterSurvey_quiet (pos : Pos) (s : State) : Quiet s (afterSurvey pos s) := by
  unfold afterSurvey
  split
  · split
    · exact (arbitrate_quiet s).trans (attempt_quiet _)
    · exact Quiet.refl s
  · split
    · exact recordEntered_quiet s
    · exact Quiet.refl s

theorem finishStartup_quiet (s : State) : Quiet s (finishStartup s) := by
  unfold finishStartup
  split
  · exact (endSurveying_quiet s).trans (notify_quiet ..)
  · exact Quiet.refl s

theorem takeAck_quiet (pos : Pos) (n : Nat) (s : State) : Quiet s (takeAck pos n s) := by
  unfold takeAck
  split
  · exact Quiet.refl s
  · split
    · exact modLine_quiet ..
    · exact Quiet.refl s

/-! ## Source positions -/

theorem faceArrival_quiet (p : Fin 4) (x : Nat) (s : State) : Quiet s (faceArrival p x s) := by
  unfold faceArrival
  refine Quiet.trans ?_ (attempt_quiet _)
  refine Quiet.trans ?_ (arbitrate_quiet _)
  unfold faceChecks
  have h : Quiet s (modOffer x (fun o =>
      { o with state := .present, place := some (p, .face), presented := some s.bench.clock })
      (modSrc p (SrcPos.presented x) s)) :=
    Quiet.trans (modSrc_quiet ..) (modOffer_quiet _ _ (by intro o; rfl) _)
  split
  · exact h.trans (releaseSlot_quiet ..)
  · exact h.trans (judgeFace_quiet ..)

theorem laneArrival_quiet (p : Fin 4) (x : Nat) (s : State) : Quiet s (laneArrival p x s) := by
  unfold laneArrival
  exact Quiet.trans (modSrc_quiet ..) (modOffer_quiet _ _ (by intro o; rfl) _)

theorem followForward_quiet (p : Fin 4) (x : Nat) (s : State) : Quiet s (followForward p x s) := by
  unfold followForward
  exact Quiet.trans (Quiet.trans (modSrc_quiet ..) (handOrder_quiet ..)) (modOffer_quiet _ _ (by intro o; rfl) _)

theorem sendOut_quiet (p : Fin 4) (sl : Slot) (i : Option Nat) (r : Reason) (s : State) :
    Quiet s (sendOut p sl i r s) :=
  (handOrder_quiet ..).trans (notify_quiet ..)

theorem takeArrival_quiet (p : Fin 4) (sl : Slot) (i : Option Nat) (s : State) : Quiet s (takeArrival p sl i s) := by
  unfold takeArrival
  split
  · exact sendOut_quiet ..
  · dsimp only
    split
    · split
      · exact faceArrival_quiet ..
      · split
        · exact Quiet.refl s
        · exact sendOut_quiet ..
    · split
      · exact laneArrival_quiet ..
      · split
        · exact followForward_quiet ..
        · split
          · exact Quiet.refl s
          · exact sendOut_quiet ..

theorem offerDeparts_quiet (n : Option Nat) (s : State) : Quiet s (offerDeparts n s) := by
  unfold offerDeparts
  split
  · exact Quiet.refl s
  · split
    · exact Quiet.refl s
    · split
      · exact modOffer_quiet _ _ (by intro o; rfl) _
      · exact dropOffer_quiet ..

theorem takeDeparture_quiet (p : Fin 4) (sl : Slot) (s : State) : Quiet s (takeDeparture p sl s) := by
  unfold takeDeparture
  dsimp only
  split
  · split
    · have h := fun f => (modSrc_quiet p f s).trans (offerDeparts_quiet s.src[p].face.offer _)
      split
      · exact (h _).trans (arbitrate_quiet _)
      · exact h _
    · exact Quiet.refl s
  · split
    · refine Quiet.trans ?_ (arbitrate_quiet _)
      refine Quiet.trans ?_ (slotSettled_quiet ..)
      exact (modSrc_quiet ..).trans (offerDeparts_quiet ..)
    · exact Quiet.refl s

theorem offerLapses_quiet (t : Nat) (p : Fin 4) (sl : Slot) (s : State) : Quiet s (offerLapses t p sl s) := by
  unfold offerLapses
  split
  · exact Quiet.refl s
  · refine Quiet.trans ?_ (notify_quiet _ _)
    dsimp only
    split
    · exact dropOffer_quiet ..
    · exact modOffer_quiet _ _ (by intro o; rfl) _

theorem takeLapse_quiet (p : Fin 4) (sl : Slot) (s : State) : Quiet s (takeLapse p sl s) := by
  unfold takeLapse
  split
  · exact Quiet.refl s
  · exact (modSrc_quiet ..).trans ((offerLapses_quiet ..).trans ((slotSettled_quiet ..).trans (arbitrate_quiet _)))

theorem callExpired_quiet (p : Fin 4) (sl : Slot) (s : State) : Quiet s (callExpired p sl s) := by
  unfold callExpired
  split
  · exact takeLapse_quiet ..
  · exact Quiet.refl s

theorem leaveExpired_quiet (p : Fin 4) (sl : Slot) (s : State) : Quiet s (leaveExpired p sl s) := by
  unfold leaveExpired
  split
  · exact faultSrc_quiet ..
  · exact Quiet.refl s

theorem advance_quiet (p : Fin 4) (s : State) : Quiet s (advance p s) := by
  unfold advance
  dsimp only
  split
  · exact (modSrc_quiet ..).trans (handOrder_quiet ..)
  · exact Quiet.trans (Quiet.trans (modSrc_quiet ..) (handOrder_quiet ..)) (modOffer_quiet _ _ (by intro o; rfl) _)

theorem transferCall_quiet (p : Fin 4) (s : State) : Quiet s (transferCall p s) := by
  unfold transferCall
  refine Quiet.trans ?_ (callExpired_quiet ..)
  split
  · exact modSrc_quiet ..
  · exact Quiet.trans (modSrc_quiet ..) (modOffer_quiet _ _ (by intro o; rfl) _)

theorem settleExpired_quiet (p : Fin 4) (s : State) : Quiet s (settleExpired p s) := by
  unfold settleExpired
  dsimp only
  split
  · split
    · exact (advance_quiet ..).trans ((slotSettled_quiet ..).trans (arbitrate_quiet _))
    · exact (transferCall_quiet ..).trans ((slotSettled_quiet ..).trans (arbitrate_quiet _))
    · exact modSrc_quiet ..
    · exact (modSrc_quiet ..).trans ((slotSettled_quiet ..).trans (arbitrate_quiet _))
  · exact Quiet.refl s

theorem orphanExpired_quiet (p : Fin 4) (s : State) : Quiet s (orphanExpired p s) := by
  unfold orphanExpired
  split
  · split
    · exact Quiet.refl s
    · exact releaseSlot_quiet ..
  · exact Quiet.refl s

/-! ## Exposure -/

theorem judgeWarning_quiet (t : Nat) (s : State) : Quiet s (judgeWarning t s) := by
  unfold judgeWarning
  exact modOffer_quiet _ _ (by intro o; rfl) _

theorem graceExpired_quiet (s : State) : Quiet s (graceExpired s) := by
  unfold graceExpired
  split
  · exact Quiet.refl s
  · split
    · exact (cancelCycle_quiet ..).trans (attempt_quiet _)
    · exact Quiet.refl s

theorem startGrace_quiet (c : Cycle) (s : State) : Quiet s (startGrace c s) := by
  unfold startGrace
  split
  · exact Quiet.refl s
  · exact (putCycle_quiet ..).trans ((setGraceT_quiet ..).trans (graceExpired_quiet _))

theorem exposureExpired_quiet (t : Nat) (s : State) : Quiet s (exposureExpired t s) := by
  unfold exposureExpired
  split
  · exact Quiet.refl s
  · split
    · split
      · split
        · exact startGrace_quiet ..
        · exact askRelease_quiet ..
      · exact askRelease_quiet ..
      · exact askRelease_quiet ..
      · exact Quiet.refl s
    · exact Quiet.refl s

theorem rescueSlot_quiet (s : State) (x : Fin 4 × Slot) : Quiet s (rescueSlot s x) := by
  unfold rescueSlot
  split
  · exact Quiet.refl s
  · split
    · exact askRelease_quiet ..
    · exact Quiet.refl s

theorem idleRescue_quiet (s : State) : Quiet s (idleRescue s) := Quiet.foldl rescueSlot_quiet _ s

theorem idleExpired_quiet (s : State) : Quiet s (idleExpired s) := by
  unfold idleExpired
  split
  · exact (stopIdle_quiet s).trans ((setPicker_quiet ..).trans (idleRescue_quiet _))
  · exact Quiet.refl s

/-! ## Order positions -/

theorem exitOrd_quiet (q : Fin 12) (s : State) : Quiet s (exitOrd q s) := handOrder_quiet ..

theorem emptyOrd_quiet (q : Fin 12) (s : State) : Quiet s (emptyOrd q s) := by
  unfold emptyOrd
  dsimp only
  split
  · exact (modOrd_quiet ..).trans (closeOrd_quiet ..)
  · exact modOrd_quiet ..

theorem takeOrderArrival_quiet (q : Fin 12) (i : Option Nat) (s : State) : Quiet s (takeOrderArrival q i s) := by
  unfold takeOrderArrival
  have h := (exitOrd_quiet q s).trans (notifyWall_quiet q (.wrongTote i) _)
  have k : ∀ b : Bool, Quiet s (if b then s else notifyWall q (.wrongTote i) s) := by
    intro b; split
    · exact Quiet.refl s
    · exact notifyWall_quiet ..
  dsimp only
  split
  · split
    · exact (modOrd_quiet ..).trans ((notifyWall_quiet ..).trans (recordEntered_quiet _))
    · exact h
  · exact h
  · exact h
  · exact k _
  · exact k _
  · exact k _
  · exact notifyWall_quiet ..
  · exact exitOrd_quiet ..
  · exact Quiet.refl s

theorem takeOrderDeparture_quiet (q : Fin 12) (s : State) : Quiet s (takeOrderDeparture q s) := by
  unfold takeOrderDeparture
  split
  · exact modOrd_quiet ..
  · exact Quiet.refl s

theorem orderLeaveExpired_quiet (q : Fin 12) (s : State) : Quiet s (orderLeaveExpired q s) := by
  unfold orderLeaveExpired
  split
  · exact faultOrd_quiet ..
  · exact Quiet.refl s

theorem orderSettleExpired_quiet (q : Fin 12) (s : State) : Quiet s (orderSettleExpired q s) := by
  unfold orderSettleExpired
  split
  · exact emptyOrd_quiet ..
  · exact Quiet.refl s

theorem cleanRecord_quiet (q : Fin 12) (s : State) : Quiet s (cleanRecord q s) :=
  (modRec_quiet ..).trans (lightOff_quiet ..)

theorem disturbByReport_quiet (q : Fin 12) (d : Disturbance) (g : Gross) (b : Nat) (s : State) :
    Quiet s (disturbByReport q d g b s) := by
  unfold disturbByReport
  dsimp only
  split
  · exact (modRec_quiet ..).trans ((notifyWall_quiet ..).trans (lightOn_quiet ..))
  · exact (modRec_quiet ..).trans (notifyWall_quiet ..)

theorem judgeCondition_quiet (q : Fin 12) (g : Gross) (s : State) : Quiet s (judgeCondition q g s) := by
  unfold judgeCondition
  split
  · exact Quiet.refl s
  · dsimp only
    split
    · exact Quiet.refl s
    · split
      · exact (notifyWall_quiet ..).trans ((cleanRecord_quiet ..).trans (wallChanged_quiet _))
      · exact (disturbByReport_quiet ..).trans (wallChanged_quiet _)

theorem activateRecord_quiet (q : Fin 12) (g : Gross) (s : State) : Quiet s (activateRecord q g s) := by
  unfold activateRecord
  split
  · exact notifyWall_quiet ..
  · exact (modOrd_quiet ..).trans ((modRec_quiet ..).trans ((notifyWall_quiet ..).trans (recordEntered_quiet _)))

theorem actOnVerdict_quiet (c : Cycle) (v : Verdict) (g : Gross) (s : State) : Quiet s (actOnVerdict c v g s) := by
  unfold actOnVerdict
  dsimp only
  split
  · exact (putCycle_quiet ..).trans ((charge_quiet ..).trans (endCycle_quiet ..))
  · exact (charge_quiet ..).trans (updateCycle_quiet ..)
  · exact updateCycle_quiet ..

theorem weighTarget_quiet (c : Cycle) (g : Gross) (s : State) : Quiet s (weighTarget c g s) := by
  unfold weighTarget
  split
  · exact actOnVerdict_quiet ..
  · exact Quiet.refl s

theorem takeActiveStable_quiet (q : Fin 12) (g : Gross) (s : State) : Quiet s (takeActiveStable q g s) := by
  unfold takeActiveStable
  split
  · exact judgeCondition_quiet ..
  · split
    · split
      · exact weighTarget_quiet ..
      · exact Quiet.refl s
    · exact judgeCondition_quiet ..

theorem takeStable_quiet (q : Fin 12) (g : Gross) (s : State) : Quiet s (takeStable q g s) := by
  unfold takeStable
  have h1 : Quiet s (if s.wall.pos[q].state = .closed then s else modOrd q (OrdPos.weighed g) s) := by
    split
    · exact Quiet.refl s
    · exact modOrd_quiet ..
  have h2 : ∀ u, Quiet u (match s.wall.pos[q].state with
      | .arrived => activateRecord q g u
      | .active => takeActiveStable q g u
      | _ => u) := by
    intro u; split
    · exact activateRecord_quiet ..
    · exact takeActiveStable_quiet ..
    · exact Quiet.refl u
  dsimp only
  split
  · exact h1.trans ((h2 _).trans (activity_quiet ..))
  · exact h1.trans (h2 _)

theorem takeShort_quiet (p : Fin 4) (s : State) : Quiet s (takeShort p s) := by
  unfold takeShort
  split
  · exact Quiet.refl s
  · split
    · exact endCycle_quiet ..
    · exact Quiet.refl s

theorem takeButton_quiet (q : Fin 12) (j : Nat) (s : State) : Quiet s (takeButton q j s) := by
  unfold takeButton
  split
  · exact Quiet.refl s
  · split
    · dsimp only
      split
      · exact (charge_quiet ..).trans (updateCycle_quiet ..)
      · exact (charge_quiet ..).trans ((putCycle_quiet ..).trans (endCycle_quiet ..))
    · exact Quiet.refl s

/-! ## HOLD -/

theorem darkenAll_quiet (s : State) : Quiet s (darkenAll s) := by
  unfold darkenAll
  have h : Quiet s (match s.put.cycle with
      | none => s
      | some c => darkCycle c none s) := by
    split
    · exact Quiet.refl s
    · exact darkCycle_quiet ..
  exact h.trans (Quiet.foldl (fun s q => lightOff_quiet q s) _ _)

theorem restoreLight_quiet (s : State) (q : Fin 12) : Quiet s (restoreLight s q) := by
  unfold restoreLight
  split
  · exact lightOn_quiet ..
  · exact Quiet.refl s

theorem restoreAll_quiet (s : State) : Quiet s (restoreAll s) := by
  unfold restoreAll
  have h : Quiet s (match s.put.cycle with
      | none => s
      | some c => showCycle c s) := by
    split
    · exact Quiet.refl s
    · exact showCycle_quiet ..
  exact h.trans (Quiet.foldl restoreLight_quiet _ _)

theorem holdGoesOn_quiet (s : State) : Quiet s (holdGoesOn s) := by
  unfold holdGoesOn
  split
  · exact Quiet.refl s
  · exact (stopIdle_quiet s).trans ((setPicker_quiet ..).trans (darkenAll_quiet _))

theorem holdGoesOff_quiet (s : State) : Quiet s (holdGoesOff s) := by
  unfold holdGoesOff
  split
  · exact (setPicker_quiet ..).trans ((startIdle_quiet _).trans ((restoreAll_quiet _).trans
      ((arbitrate_quiet _).trans (attempt_quiet _))))
  · exact Quiet.refl s

/-! ## A changed profile field handed over -/

theorem followSourceCount_quiet (old : Nat) (s : State) (p : Fin 4) : Quiet s (followSourceCount old s p) := by
  unfold followSourceCount
  split
  · split
    · exact Quiet.refl s
    · exact closeSrc_quiet ..
    · exact Quiet.refl s
    · split
      · exact closeSrc_quiet ..
      · exact (modSrc_quiet ..).trans (notifySrc_quiet ..)
  · exact Quiet.refl s

theorem followDepth_quiet (s : State) (p : Fin 4) : Quiet s (followDepth s p) := modSrc_quiet ..

theorem closeFaultedOrd_quiet (q : Fin 12) (s : State) : Quiet s (closeFaultedOrd q s) := by
  unfold closeFaultedOrd
  split
  · exact (notifyReleased_quiet ..).trans (closeOrd_quiet ..)
  · exact closeOrd_quiet ..

theorem followOrderCount_quiet (old : Nat) (s : State) (q : Fin 12) : Quiet s (followOrderCount old s q) := by
  unfold followOrderCount
  split
  · split
    · exact closeOrd_quiet ..
    · exact closeFaultedOrd_quiet ..
    · exact Quiet.refl s
  · exact Quiet.refl s

theorem judgeAllWarnings_quiet (s : State) : Quiet s (judgeAllWarnings s) := by
  refine Quiet.of_eq rfl rfl rfl rfl rfl ?_
  have : ((judgeAllWarnings s).offers.map fun o => o.tote) = s.offers.map fun o => o.tote := by
    simp [judgeAllWarnings, Function.comp_def]
  rw [this]

theorem setLadder_quiet (l : List ReqClass) (s : State) : Quiet s (setLadder l s) :=
  Quiet.of_eq rfl rfl rfl rfl rfl (List.Sublist.refl _)

theorem handChange_quiet (f : ProfileField) (old : Profile) (s : State) : Quiet s (handChange f old s) := by
  have h1 : Quiet s (arbitrate (setLadder s.prof.profile.ladder s)) :=
    (setLadder_quiet ..).trans (arbitrate_quiet _)
  have h2 : Quiet s (arbitrate (judgeDrain (srcIndices.foldl (followSourceCount old.sourceCount) s))) :=
    (Quiet.foldl (followSourceCount_quiet _) _ s).trans ((judgeDrain_quiet _).trans (arbitrate_quiet _))
  have h3 : Quiet s (arbitrate (srcIndices.foldl followDepth s)) :=
    (Quiet.foldl followDepth_quiet _ s).trans (arbitrate_quiet _)
  have h4 : Quiet s (ordIndices.foldl (followOrderCount old.orderCount) s) := Quiet.foldl (followOrderCount_quiet _) _ s
  have a : Quiet s (arbitrate s) := arbitrate_quiet s
  have o : Quiet s (judgeOrphans s) := judgeOrphans_quiet s
  unfold handChange
  have w : Quiet s (judgeAllWarnings s) := judgeAllWarnings_quiet s
  have r : Quiet s s := Quiet.refl s
  split <;> with_reducible assumption

end Sys2Proof.Machine
end

