-- ==== Sys2Proof/Laws/Replies.lean ====
section
/-!
SUPPORT. What the execution of a request does at the link interface: it queues exactly one reply, or it holds execution
and keeps the entry of that reply reserved (R164, R166); beside that the outbound queue takes notices only.
-/
namespace Sys2Proof.Machine

/-- What an operation leaves at the link interface, the profile store and the offer list apart. -/
structure Hushed (s t : State) : Prop where
  inputs : t.inputs = s.inputs
  pending : t.pending = s.pending
  clock : t.bench.clock = s.bench.clock
  rx : t.link.rx = s.link.rx
  inbox : t.link.inbox = s.link.inbox
  held : t.link.held = s.link.held
  replies : replyCount t = replyCount s
  room : noticeCount s ≤ Config.noticeCapacity → noticeCount t ≤ Config.noticeCapacity

theorem Quiet.hushed {s t : State} (h : Quiet s t) : Hushed s t where
  inputs := h.inputs
  pending := h.pending
  clock := h.clock
  rx := h.rx
  inbox := h.inbox
  held := h.held
  replies := by
    obtain ⟨ns, e⟩ := h.out
    simp [replyCount, e, List.countP_map, Function.comp_def, OutEntry.isNotice]
  room := h.room

theorem Hushed.refl (s : State) : Hushed s s := (Quiet.refl s).hushed

theorem Hushed.trans {s t u : State} (h : Hushed s t) (k : Hushed t u) : Hushed s u where
  inputs := k.inputs.trans h.inputs
  pending := k.pending.trans h.pending
  clock := k.clock.trans h.clock
  rx := k.rx.trans h.rx
  inbox := k.inbox.trans h.inbox
  held := k.held.trans h.held
  replies := k.replies.trans h.replies
  room := fun x => k.room (h.room x)

theorem setProf_hushed (x : ProfileStore) (s : State) : Hushed s (setProf x s) := ⟨rfl, rfl, rfl, rfl, rfl, rfl, rfl, id⟩
theorem setProfile_hushed (p : Profile) (s : State) : Hushed s (setProfile p s) :=
  ⟨rfl, rfl, rfl, rfl, rfl, rfl, rfl, id⟩
theorem appendOffer_hushed (o : Offer) (s : State) : Hushed s (appendOffer o s) :=
  ⟨rfl, rfl, rfl, rfl, rfl, rfl, rfl, id⟩
theorem setCounter_hushed (n : Nat) (s : State) : Hushed s (setCounter n s) := ⟨rfl, rfl, rfl, rfl, rfl, rfl, rfl, id⟩
theorem clearLost_hushed (s : State) : Hushed s (clearLost s) := ⟨rfl, rfl, rfl, rfl, rfl, rfl, rfl, id⟩

/-- One reply queued, or its entry reserved. -/
structure Replies (s t : State) : Prop where
  inputs : t.inputs = s.inputs
  pending : t.pending = s.pending
  clock : t.bench.clock = s.bench.clock
  rx : t.link.rx = s.link.rx
  inbox : t.link.inbox = s.link.inbox
  room : noticeCount s ≤ Config.noticeCapacity → noticeCount t ≤ Config.noticeCapacity
  count : s.link.held = none → replyCount t + reserved t = replyCount s + 1

theorem reserved_of_held {s t : State} (h : t.link.held = s.link.held) : reserved t = reserved s := by
  unfold reserved; rw [h]

theorem Replies.after {s t u : State} (h : Hushed s t) (k : Replies t u) : Replies s u where
  inputs := k.inputs.trans h.inputs
  pending := k.pending.trans h.pending
  clock := k.clock.trans h.clock
  rx := k.rx.trans h.rx
  inbox := k.inbox.trans h.inbox
  room := fun x => k.room (h.room x)
  count := fun x => by rw [k.count (h.held.trans x), h.replies]

theorem Replies.then {s t u : State} (h : Replies s t) (k : Hushed t u) : Replies s u where
  inputs := k.inputs.trans h.inputs
  pending := k.pending.trans h.pending
  clock := k.clock.trans h.clock
  rx := k.rx.trans h.rx
  inbox := k.inbox.trans h.inbox
  room := fun x => k.room (h.room x)
  count := fun x => by rw [k.replies, reserved_of_held k.held]; exact h.count x

theorem replyCount_answer (r : Request) (b : ReplyBody) (s : State) :
    replyCount (answer r b s) = replyCount s + 1 := by
  simp [replyCount, OutEntry.isNotice]

theorem noticeCount_answer (r : Request) (b : ReplyBody) (s : State) : noticeCount (answer r b s) = noticeCount s := by
  simp [noticeCount, OutEntry.isNotice]

theorem answer_replies (r : Request) (b : ReplyBody) (s : State) : Replies s (answer r b s) where
  inputs := rfl
  pending := rfl
  clock := rfl
  rx := rfl
  inbox := rfl
  room := fun h => by rw [noticeCount_answer]; exact h
  count := fun h => by
    have : reserved (answer r b s) = 0 := by simp [reserved, h]
    rw [replyCount_answer, this]

/-- Execution held for a survey keeps the reply's entry reserved. -/
theorem holdFor_replies (r : Request) (j : HeldJob) (hj : j ≠ .restart) (s : State) : Replies s (holdFor r j s) where
  inputs := rfl
  pending := rfl
  clock := rfl
  rx := rfl
  inbox := rfl
  room := id
  count := fun _ => by cases j <;> first | exact absurd rfl hj | rfl

theorem answer_after {s t : State} (h : Quiet s t) (r : Request) (b : ReplyBody) : Replies s (answer r b t) :=
  Replies.after h.hushed (answer_replies r b t)

theorem answer_then (r : Request) (b : ReplyBody) {s t : State} (h : Quiet (answer r b s) t) : Replies s t :=
  (answer_replies r b s).then h.hushed

/-! ## The owners of the requests -/

theorem ownOffer_replies (r : Request) (bs : List Byte) (s : State) : Replies s (ownOffer r bs s) := by
  unfold ownOffer
  split
  · exact answer_replies ..
  · exact Replies.after (appendOffer_hushed ..) (answer_then _ _ (arbitrate_quiet _))

theorem divertCall_replies (r : Request) (t : Nat) (p : Fin 4) (sl : Slot) (s : State) :
    Replies s (divertCall r t p sl s) :=
  (answer_after ((modSrc_quiet ..).trans ((dropOffer_quiet ..).trans (slotSettled_quiet ..))) _ _).then
    (arbitrate_quiet _).hushed

theorem ownRecall_replies (r : Request) (t : Nat) (s : State) : Replies s (ownRecall r t s) := by
  unfold ownRecall
  split
  · exact answer_replies ..
  · split
    · exact answer_after (dropOffer_quiet ..) _ _
    · exact divertCall_replies ..
    · exact answer_after (releaseSlot_quiet ..) _ _
    · split
      · exact answer_replies ..
      · exact answer_after (releaseSlot_quiet ..) _ _
    · exact answer_replies ..
    · exact answer_replies ..

theorem ownWallAdd_replies (r : Request) (f : WallAddFields) (s : State) : Replies s (ownWallAdd r f s) := by
  unfold ownWallAdd
  split
  · exact answer_replies ..
  · dsimp only
    refine Replies.then ?_ (recordEntered_quiet _).hushed
    exact Replies.after (setCounter_hushed ..)
      (answer_after ((modOrd_quiet ..).trans (notifyWall_quiet ..)) _ _)

theorem setUrgent_quiet (n : Nat) (u : Bool) (s : State) : Quiet s (setUrgent n u s) :=
  Quiet.foldl (fun s q => modRec_quiet q _ s) _ s

theorem ownWallUrge_replies (r : Request) (a : Nat × Byte) (s : State) : Replies s (ownWallUrge r a s) := by
  unfold ownWallUrge
  dsimp only
  split
  · exact answer_replies ..
  · have h := answer_after (setUrgent_quiet a.1 (flagOf a.2) s) r
      (.ok (.urged ((allRecords s).countP fun x => x.ref == a.1)))
    split
    · exact h.then (arbitrate_quiet _).hushed
    · exact h

theorem ownWallWindow_replies (r : Request) (a : Nat × Nat × WindowField) (s : State) :
    Replies s (ownWallWindow r a s) := by
  unfold ownWallWindow
  split
  · split
    · exact answer_replies ..
    · split
      · exact answer_replies ..
      · split
        · exact answer_replies ..
        · split
          · exact answer_replies ..
          · exact (answer_after (modRec_quiet ..) _ _).then (wallChanged_quiet _).hushed
  · exact answer_replies ..

theorem ownWallShut_replies (r : Request) (a : Nat × Nat) (s : State) : Replies s (ownWallShut r a s) := by
  unfold ownWallShut
  split
  · exact answer_replies ..
  · split
    · exact answer_replies ..
    · split
      · exact answer_replies ..
      · split
        · exact answer_replies ..
        · split
          · exact answer_replies ..
          · split
            · exact answer_replies ..
            · exact (answer_after (modRec_quiet ..) _ _).then (wallChanged_quiet _).hushed

theorem ownWallRebase_replies (r : Request) (n : Nat) (s : State) : Replies s (ownWallRebase r n s) := by
  unfold ownWallRebase
  split
  · exact answer_replies ..
  · split
    · exact answer_replies ..
    · split
      · exact answer_replies ..
      · split
        · dsimp only
          split
          · exact (answer_after ((modRec_quiet ..).trans ((notifyWall_quiet ..).trans (cleanRecord_quiet ..))) _ _).then
              (wallChanged_quiet _).hushed
          · exact answer_after (modRec_quiet ..) _ _
        · exact answer_replies ..

theorem releaseOrd_quiet (q : Fin 12) (s : State) : Quiet s (releaseOrd q s) := by
  unfold releaseOrd
  have h : Quiet s (exitOrd q (modOrd q (OrdPos.leave (s.prof.profile.leaveTimeout * 10)) (notifyReleased q false s))) :=
    (notifyReleased_quiet ..).trans ((modOrd_quiet ..).trans (exitOrd_quiet ..))
  dsimp only
  split
  · exact h.trans (handOrder_quiet ..)
  · exact h

theorem ownWallRelease_replies (r : Request) (n : Nat) (s : State) : Replies s (ownWallRelease r n s) := by
  unfold ownWallRelease
  split
  · exact answer_replies ..
  · split
    · exact answer_replies ..
    · exact answer_replies ..
    · exact answer_replies ..
    · exact answer_replies ..
    · exact answer_replies ..
    · exact (answer_after ((notifyReleased_quiet ..).trans (emptyOrd_quiet ..)) _ _).then (wallChanged_quiet _).hushed
    · exact answer_after (releaseOrd_quiet ..) _ _
    · split
      · exact answer_replies ..
      · exact (answer_after (releaseOrd_quiet ..) _ _).then (wallChanged_quiet _).hushed

theorem ownPosClose_replies (r : Request) (n : Nat) (s : State) : Replies s (ownPosClose r n s) := by
  unfold ownPosClose
  split
  · exact answer_replies ..
  · split
    · exact answer_replies ..
    · split
      · split
        · exact answer_after ((closeSrc_quiet ..).trans (judgeDrain_quiet _)) _ _
        · exact answer_after ((modSrc_quiet ..).trans (notifySrc_quiet ..)) _ _
      · exact answer_replies ..
      · exact answer_replies ..
      · exact answer_after ((closeSrc_quiet ..).trans (judgeDrain_quiet _)) _ _

theorem ownPosOpen_replies (r : Request) (n : Nat) (s : State) : Replies s (ownPosOpen r n s) := by
  unfold ownPosOpen
  split
  · exact answer_replies ..
  · split
    · exact answer_replies ..
    · split
      · exact answer_replies ..
      · exact (answer_after ((modSrc_quiet ..).trans (notifySrc_quiet ..)) _ _).then (arbitrate_quiet _).hushed
      · exact (holdFor_replies r _ (by simp) s).then (beginSurvey_quiet ..).hushed

theorem ownPosOpenOrder_replies (r : Request) (n : Nat) (s : State) : Replies s (ownPosOpenOrder r n s) := by
  unfold ownPosOpenOrder
  split
  · exact answer_replies ..
  · split
    · exact answer_replies ..
    · split
      · exact (holdFor_replies r _ (by simp) s).then (beginSurvey_quiet ..).hushed
      · exact (holdFor_replies r _ (by simp) s).then (beginSurvey_quiet ..).hushed
      · exact answer_replies ..

theorem ownPosCloseOrder_replies (r : Request) (n : Nat) (s : State) : Replies s (ownPosCloseOrder r n s) := by
  unfold ownPosCloseOrder
  split
  · exact answer_replies ..
  · split
    · exact answer_replies ..
    · split
      · exact answer_replies ..
      · exact answer_after (closeOrd_quiet ..) _ _
      · exact answer_after (closeFaultedOrd_quiet ..) _ _
      · exact answer_replies ..

theorem ownProfileSet_replies (r : Request) (a : Option ProfileField × List Byte) (s : State) :
    Replies s (ownProfileSet r a s) := by
  unfold ownProfileSet
  split
  · exact answer_replies ..
  · split
    · exact answer_replies ..
    · split
      · exact answer_replies ..
      · split
        · exact answer_replies ..
        · split
          · exact answer_replies ..
          · exact Replies.after ((setProfile_hushed ..).trans (handChange_quiet ..).hushed) (answer_replies ..)

theorem ownProfileGet_replies (r : Request) (a : Option Nat) (s : State) : Replies s (ownProfileGet r a s) := by
  unfold ownProfileGet
  split
  · exact answer_replies ..
  · split <;> exact answer_replies ..

theorem ownProfileStore_replies (r : Request) (a : Unit) (s : State) : Replies s (ownProfileStore r a s) := by
  unfold ownProfileStore
  split
  · exact answer_replies ..
  · split
    · exact answer_replies ..
    · exact Replies.after (setProf_hushed ..) (answer_replies ..)

theorem ownLockShift_replies (r : Request) (a : Unit) (s : State) : Replies s (ownLockShift r a s) := by
  unfold ownLockShift
  split
  · exact answer_replies ..
  · exact Replies.after (setProf_hushed ..) (answer_replies ..)

theorem ownBenchStart_replies (r : Request) (a : Unit) (s : State) : Replies s (ownBenchStart r a s) := by
  unfold ownBenchStart
  split
  · exact answer_replies ..
  · split
    · exact answer_replies ..
    · split
      · exact answer_replies ..
      · exact (answer_after (setMode_quiet ..) _ _).then ((arbitrate_quiet _).trans (attempt_quiet _)).hushed

theorem ownBenchDrain_replies (r : Request) (a : Unit) (s : State) : Replies s (ownBenchDrain r a s) := by
  unfold ownBenchDrain
  split
  · exact (answer_after ((setMode_quiet ..).trans (judgeDrain_quiet _)) _ _).then (attempt_quiet _).hushed
  · exact answer_replies ..

theorem ownRestart_replies (r : Request) (a : Unit) (s : State) : Replies s (ownRestart r a s) where
  inputs := rfl
  pending := rfl
  clock := rfl
  rx := rfl
  inbox := rfl
  room := fun h => by
    have : noticeCount (ownRestart r a s) = noticeCount s := noticeCount_answer ..
    rw [this]; exact h
  count := fun _ => by
    have : replyCount (ownRestart r a s) = replyCount s + 1 := replyCount_answer ..
    rw [this]; rfl

theorem ownQueryBench_replies (r : Request) (a : QueryArg) (s : State) : Replies s (ownQueryBench r a s) := by
  unfold ownQueryBench
  split
  · exact Replies.after (clearLost_hushed s) (answer_replies ..)
  · exact answer_replies ..

theorem ownQueryPosition_replies (r : Request) (a : QueryArg) (s : State) : Replies s (ownQueryPosition r a s) := by
  unfold ownQueryPosition
  split
  · split <;> exact answer_replies ..
  · split <;> exact answer_replies ..
  · exact answer_replies ..

theorem ownQueryOffer_replies (r : Request) (a : QueryArg) (s : State) : Replies s (ownQueryOffer r a s) := by
  unfold ownQueryOffer
  split
  · split <;> exact answer_replies ..
  · exact answer_replies ..

theorem ownQueryOrder_replies (r : Request) (a : QueryArg) (s : State) : Replies s (ownQueryOrder r a s) := by
  unfold ownQueryOrder
  split
  · split <;> exact answer_replies ..
  · exact answer_replies ..

/-! ## Executing a request -/

/-- What executing the request at the front of the inbox can do: nothing, when it may not begin or another row
executes it; else that request leaves the inbox and is answered. -/
theorem runRequest_cases {α : Type} (row : Instr) (read : State → List Byte → Option α)
    (owner : Request → α → State → State) (h : ∀ r a s, Replies s (owner r a s)) (s : State) :
    runRequest row read owner s = s ∨
      (mayExecute s = true ∧ Replies (popRequest s) (runRequest row read owner s)) := by
  unfold runRequest
  split
  · exact .inl rfl
  · next r e =>
    refine .inr ⟨?_, ?_⟩
    · unfold frontRequest at e
      by_cases m : mayExecute s = true
      · exact m
      · simp [m] at e
    · dsimp only
      split
      · exact answer_replies ..
      · split
        · exact answer_replies ..
        · exact h ..

/-! ## The end of a survey -/

/-- At the end of a survey the request that waited for it, if any, is answered and no longer held (R164). -/
theorem answerHeld_cases (pos : Pos) (e : SurveyEnd) (s : State) :
    answerHeld pos e s = s ∨
      ∃ x b, s.link.held = some x ∧ x.job ≠ .restart ∧ answerHeld pos e s = answer x.req b (endHeld s) := by
  unfold answerHeld
  split
  · exact .inl rfl
  · next x h =>
    by_cases w : x.job.waitsFor pos = true
    · refine .inr ⟨x, surveyReply pos e s, h, ?_, by simp [w]⟩
      intro j
      simp [j, HeldJob.waitsFor] at w
    · exact .inl (by simp [w])

end Sys2Proof.Machine
end

