-- ==== Sys2Proof/Laws/Requests.lean ====
section
/-!
SUPPORT. How a command reaches its meaning: the RESET input, and the beginning of a request's execution.
-/
namespace Sys2Proof.Machine

/-- With the RESET input off a command acts. -/
theorem live_of_off {s : State} (h : s.inputs.reset = false) (f : State → State) : live f s = .next (f s) := by
  simp [live, h]

/-- With the RESET input on a command does nothing (R140). -/
theorem live_of_on {s : State} (h : s.inputs.reset = true) (f : State → State) : live f s = .next s := by
  simp [live, h]

theorem reserved_of_none {s : State} (h : s.link.held = none) : reserved s = 0 := by simp [reserved, h]

theorem frontRequest_of_canRun {row : Instr} {r : Request} {s : State} (h : s.canRun row r) :
    frontRequest row s = some r := by
  obtain ⟨-, held, sur, free, head, hrow⟩ := h
  have m : mayExecute s = true := by
    simp [mayExecute, held, sur, replyFree, reserved_of_none held, free]
  unfold frontRequest
  rw [if_pos m]
  cases e : s.link.inbox with
  | nil => simp [e] at head
  | cons a l =>
    simp only [e, List.head?_cons, Option.some.injEq] at head
    subst head
    simp [hrow]

/-- A request that may run is taken off the inbox, judged by the mode, read, and given to its owner (R143, R164,
R165). -/
theorem runRequest_of_canRun {α : Type} {row : Instr} {r : Request} {s : State} (h : s.canRun row r)
    (read : State → List Byte → Option α) (owner : Request → α → State → State) :
    runRequest row read owner s =
      if s.bench.mode = .starting ∧ refusedInStarting row then answer r .mode (popRequest s)
      else
        match read (popRequest s) r.body with
        | none => answer r .format (popRequest s)
        | some a => owner r a (popRequest s) := by
  have e := frontRequest_of_canRun h
  unfold runRequest
  generalize frontRequest row s = x at e ⊢
  subst e
  rfl

/-- The same for a row that every mode admits, once its body has been read. -/
theorem runRequest_read {α : Type} {row : Instr} {r : Request} {s : State} (h : s.canRun row r)
    (mode : refusedInStarting row = false ∨ s.bench.mode ≠ .starting) {read : State → List Byte → Option α}
    {owner : Request → α → State → State} {a : α} (e : read (popRequest s) r.body = some a) :
    runRequest row read owner s = owner r a (popRequest s) := by
  rw [runRequest_of_canRun h, e, if_neg]
  rintro ⟨x, y⟩
  rcases mode with m | m
  · rw [m] at y; cases y
  · exact m x

/-- A request that may not run leaves the state as it is (log entry 10). -/
theorem frontRequest_eq_none {row : Instr} {s : State} (h : ∀ r, ¬ s.canRun row r) (off : s.inputs.reset = false) :
    frontRequest row s = none := by
  unfold frontRequest
  split
  · next m =>
    simp only [mayExecute, replyFree, Bool.and_eq_true, Option.isNone_iff_eq_none, Bool.not_eq_true',
      decide_eq_true_eq] at m
    obtain ⟨⟨held, sur⟩, free⟩ := m
    rw [reserved_of_none held] at free
    split
    · rfl
    · next r l e =>
      split
      · next hr => exact absurd ⟨off, held, sur, by simpa using free, by simp [e], hr⟩ (h r)
      · rfl
  · rfl

end Sys2Proof.Machine
end

