-- ==== Sys2Proof/Laws/Time.lean ====
section
/-!
SUPPORT. One change made at every position or line, and what one tenth of a second does to each part of the state.
-/
namespace Sys2Proof.Machine

/-- A change made at every source position in turn leaves the rest of the state alone. -/
theorem foldl_modSrc_frame (f : SrcPos → SrcPos) (l : List (Fin 4)) (s : State) :
    let t := l.foldl (fun s p => modSrc p f s) s
    t.inputs = s.inputs ∧ t.link = s.link ∧ t.offers = s.offers ∧ t.arb = s.arb ∧ t.wall = s.wall ∧ t.put = s.put ∧
      t.picker = s.picker ∧ t.bench = s.bench ∧ t.prof = s.prof ∧ t.lines = s.lines ∧ t.pending = s.pending := by
  induction l generalizing s with
  | nil => simp
  | cons a l ih => simpa using ih (modSrc a f s)

/-- A change made at every order position in turn leaves the rest of the state alone. -/
theorem foldl_modOrd_frame (f : OrdPos → OrdPos) (l : List (Fin 12)) (s : State) :
    let t := l.foldl (fun s q => modOrd q f s) s
    t.inputs = s.inputs ∧ t.link = s.link ∧ t.offers = s.offers ∧ t.arb = s.arb ∧ t.src = s.src ∧
      t.wall.counter = s.wall.counter ∧ t.put = s.put ∧ t.picker = s.picker ∧ t.bench = s.bench ∧ t.prof = s.prof ∧
      t.lines = s.lines ∧ t.pending = s.pending := by
  induction l generalizing s with
  | nil => simp
  | cons a l ih => simpa using ih (modOrd a f s)

/-- A change made at every field line in turn leaves the rest of the state alone. -/
theorem foldl_modLine_frame (f : FieldLine → FieldLine) (l : List (Fin 16)) (s : State) :
    let t := l.foldl (fun s i => modLine i f s) s
    t.inputs = s.inputs ∧ t.link = s.link ∧ t.offers = s.offers ∧ t.arb = s.arb ∧ t.src = s.src ∧ t.wall = s.wall ∧
      t.put = s.put ∧ t.picker = s.picker ∧ t.bench = s.bench ∧ t.prof = s.prof ∧ t.pending = s.pending := by
  induction l generalizing s with
  | nil => simp
  | cons a l ih => simpa using ih (modLine a f s)

theorem forall_modSrc (f : SrcPos → SrcPos) (s : State) (p : Fin 4) :
    (srcIndices.foldl (fun s p => modSrc p f s) s).src[p] = f s.src[p] := by
  simp only [srcIndices, List.foldl_cons, List.foldl_nil, modSrc_getElem]
  fin_cases p <;> simp

theorem forall_modOrd (f : OrdPos → OrdPos) (s : State) (q : Fin 12) :
    (ordIndices.foldl (fun s q => modOrd q f s) s).wall.pos[q] = f s.wall.pos[q] := by
  simp only [ordIndices, List.foldl_cons, List.foldl_nil, modOrd_getElem]
  fin_cases q <;> simp

theorem forall_modLine (f : FieldLine → FieldLine) (s : State) (i : Fin 16) :
    (lineIndices.foldl (fun s i => modLine i f s) s).lines[i] = f s.lines[i] := by
  simp only [lineIndices, List.foldl_cons, List.foldl_nil, modLine_getElem]
  fin_cases i <;> simp

/-- The clock, the exposure figures, the put grace timer and the idle timer after one tenth; the positions and lines are
still as they were. -/
def tickPlain (s : State) : State :=
  { s with
    bench := { s.bench with clock := clockTick s.bench.clock }
    offers := s.offers.map Offer.tick
    put := { s.put with graceT := timerTick s.put.graceT }
    picker := { s.picker with idleT := timerTick s.picker.idleT } }

theorem tick_eq (s : State) : tick s =
    lineIndices.foldl (fun s i => modLine i FieldLine.tick s)
      (ordIndices.foldl (fun s q => modOrd q OrdPos.tick s)
        (srcIndices.foldl (fun s p => modSrc p SrcPos.tick s) (tickPlain s))) := rfl

/-- What one tenth leaves as `tickPlain` has it. -/
theorem tick_frame (s : State) :
    (tick s).inputs = s.inputs ∧ (tick s).link = s.link ∧ (tick s).offers = s.offers.map Offer.tick ∧
      (tick s).arb = s.arb ∧ (tick s).wall.counter = s.wall.counter ∧
      (tick s).put = { s.put with graceT := timerTick s.put.graceT } ∧
      (tick s).picker = { s.picker with idleT := timerTick s.picker.idleT } ∧
      (tick s).bench = { s.bench with clock := clockTick s.bench.clock } ∧ (tick s).prof = s.prof ∧
      (tick s).pending = s.pending := by
  rw [tick_eq]
  obtain ⟨a1, a2, a3, a4, -, a5, a6, a7, a8, a9, a10⟩ := foldl_modLine_frame FieldLine.tick lineIndices
    (ordIndices.foldl (fun s q => modOrd q OrdPos.tick s)
      (srcIndices.foldl (fun s p => modSrc p SrcPos.tick s) (tickPlain s)))
  obtain ⟨b1, b2, b3, b4, -, b5, b6, b7, b8, b9, -, b10⟩ := foldl_modOrd_frame OrdPos.tick ordIndices
    (srcIndices.foldl (fun s p => modSrc p SrcPos.tick s) (tickPlain s))
  obtain ⟨c1, c2, c3, c4, c5, c6, c7, c8, c9, -, c10⟩ := foldl_modSrc_frame SrcPos.tick srcIndices (tickPlain s)
  refine ⟨?_, ?_, ?_, ?_, ?_, ?_, ?_, ?_, ?_, ?_⟩
  · rw [a1, b1, c1]; rfl
  · rw [a2, b2, c2]; rfl
  · rw [a3, b3, c3]; rfl
  · rw [a4, b4, c4]; rfl
  · rw [a5, b5, c5]; rfl
  · rw [a6, b6, c6]; rfl
  · rw [a7, b7, c7]; rfl
  · rw [a8, b8, c8]; rfl
  · rw [a9, b9, c9]; rfl
  · rw [a10, b10, c10]; rfl

theorem tick_src (s : State) (p : Fin 4) : (tick s).src[p] = s.src[p].tick := by
  rw [tick_eq]
  obtain ⟨-, -, -, -, a, -⟩ := foldl_modLine_frame FieldLine.tick lineIndices
    (ordIndices.foldl (fun s q => modOrd q OrdPos.tick s)
      (srcIndices.foldl (fun s p => modSrc p SrcPos.tick s) (tickPlain s)))
  obtain ⟨-, -, -, -, b, -⟩ := foldl_modOrd_frame OrdPos.tick ordIndices
    (srcIndices.foldl (fun s p => modSrc p SrcPos.tick s) (tickPlain s))
  rw [a, b]
  exact forall_modSrc SrcPos.tick (tickPlain s) p

theorem tick_ord (s : State) (q : Fin 12) : (tick s).wall.pos[q] = s.wall.pos[q].tick := by
  rw [tick_eq]
  obtain ⟨-, -, -, -, -, a, -⟩ := foldl_modLine_frame FieldLine.tick lineIndices
    (ordIndices.foldl (fun s q => modOrd q OrdPos.tick s)
      (srcIndices.foldl (fun s p => modSrc p SrcPos.tick s) (tickPlain s)))
  obtain ⟨-, -, -, -, c, -⟩ := foldl_modSrc_frame SrcPos.tick srcIndices (tickPlain s)
  rw [a, forall_modOrd, c]
  rfl

theorem tick_line (s : State) (i : Fin 16) : (tick s).lines[i] = s.lines[i].tick := by
  rw [tick_eq, forall_modLine]
  obtain ⟨-, -, -, -, -, -, -, -, -, -, b, -⟩ := foldl_modOrd_frame OrdPos.tick ordIndices
    (srcIndices.foldl (fun s p => modSrc p SrcPos.tick s) (tickPlain s))
  obtain ⟨-, -, -, -, -, -, -, -, -, c, -⟩ := foldl_modSrc_frame SrcPos.tick srcIndices (tickPlain s)
  rw [b, c]
  rfl

end Sys2Proof.Machine
end

