-- ==== Sys2Proof/Laws/StartUp.lean ====
section
/-!
SUPPORT. What a start-up leaves in each part of the state (R140, R142).
-/
namespace Sys2Proof.Machine

/-- What the start-up survey leaves alone. -/
structure SurveyFrame (s t : State) : Prop where
  inputs : t.inputs = s.inputs
  link : t.link = s.link
  offers : t.offers = s.offers
  arb : t.arb = s.arb
  counter : t.wall.counter = s.wall.counter
  put : t.put = s.put
  picker : t.picker = s.picker
  bench : t.bench = s.bench
  prof : t.prof = s.prof
  pending : t.pending = s.pending

theorem SurveyFrame.refl (s : State) : SurveyFrame s s := ⟨rfl, rfl, rfl, rfl, rfl, rfl, rfl, rfl, rfl, rfl⟩

theorem SurveyFrame.trans {s t u : State} (h : SurveyFrame s t) (k : SurveyFrame t u) : SurveyFrame s u :=
  ⟨k.inputs.trans h.inputs, k.link.trans h.link, k.offers.trans h.offers, k.arb.trans h.arb,
    k.counter.trans h.counter, k.put.trans h.put, k.picker.trans h.picker, k.bench.trans h.bench, k.prof.trans h.prof,
    k.pending.trans h.pending⟩

theorem SurveyFrame.foldl {α : Type} {f : State → α → State} (h : ∀ s a, SurveyFrame s (f s a)) (l : List α)
    (s : State) : SurveyFrame s (l.foldl f s) := by
  induction l generalizing s with
  | nil => exact SurveyFrame.refl s
  | cons a l ih => exact (h s a).trans (ih _)

/-- Surveying or darkening a source position at the start-up: its timer, and the first order on its line. -/
theorem surveyOrDarkSrc_eq (s : State) (p : Fin 4) : surveyOrDarkSrc s p =
    if p.val < s.prof.profile.sourceCount then
      modLine (lineOf (.src p)) (FieldLine.hand .survey false) (modSrc p (SrcPos.setSurvey (some 20)) s)
    else modLine (lineOf (.src p)) (FieldLine.hand (.light .source .dark) true) s := by
  unfold surveyOrDarkSrc beginSurvey startDark handOrder
  simp [Config.surveyTenths]

/-- Surveying or darkening an order position at the start-up. -/
theorem surveyOrDarkOrd_eq (s : State) (q : Fin 12) : surveyOrDarkOrd s q =
    if q.val < s.prof.profile.orderCount then
      modLine (lineOf (.ord q)) (FieldLine.hand .survey false) (modOrd q (OrdPos.setSurvey (some 20)) s)
    else modLine (lineOf (.ord q)) (FieldLine.hand (.light .all .dark) true) s := by
  unfold surveyOrDarkOrd beginSurvey startDark handOrder
  simp [Config.surveyTenths]

theorem surveyOrDarkSrc_frame (s : State) (p : Fin 4) : SurveyFrame s (surveyOrDarkSrc s p) := by
  rw [surveyOrDarkSrc_eq]
  split <;> exact ⟨rfl, rfl, rfl, rfl, rfl, rfl, rfl, rfl, rfl, rfl⟩

theorem surveyOrDarkOrd_frame (s : State) (q : Fin 12) : SurveyFrame s (surveyOrDarkOrd s q) := by
  rw [surveyOrDarkOrd_eq]
  split <;> exact ⟨rfl, rfl, rfl, rfl, rfl, rfl, rfl, rfl, rfl, rfl⟩

/-- A start-up leaves every block but the positions and lines as `blankStart` has it. -/
theorem startUp_frame (k : Bool) (s : State) : SurveyFrame (blankStart k s) (startUp k s) :=
  (SurveyFrame.foldl surveyOrDarkSrc_frame srcIndices _).trans (SurveyFrame.foldl surveyOrDarkOrd_frame ordIndices _)

/-! ## The positions and their lines -/

theorem surveyOrDarkSrc_src (s : State) (p p' : Fin 4) : (surveyOrDarkSrc s p).src[p'] =
    if p = p' ∧ p.val < s.prof.profile.sourceCount then s.src[p'].setSurvey (some 20) else s.src[p'] := by
  rw [surveyOrDarkSrc_eq]
  split
  · next h => simp only [modLine_src, modSrc_getElem, h, and_true]
  · next h => simp [h]

theorem surveyOrDarkSrc_wall (s : State) (p : Fin 4) : (surveyOrDarkSrc s p).wall = s.wall := by
  rw [surveyOrDarkSrc_eq]
  split <;> rfl

theorem surveyOrDarkOrd_src (s : State) (q : Fin 12) : (surveyOrDarkOrd s q).src = s.src := by
  rw [surveyOrDarkOrd_eq]
  split <;> rfl

theorem surveyOrDarkOrd_ord (s : State) (q q' : Fin 12) : (surveyOrDarkOrd s q).wall.pos[q'] =
    if q = q' ∧ q.val < s.prof.profile.orderCount then s.wall.pos[q'].setSurvey (some 20) else s.wall.pos[q'] := by
  rw [surveyOrDarkOrd_eq]
  split
  · next h => simp only [modLine_wall, modOrd_getElem, h, and_true]
  · next h => simp [h]

/-- The line after its position has been surveyed or darkened, from the profile's count. -/
def FieldLine.started (surveyed : Bool) (d : Display) (l : FieldLine) : FieldLine :=
  if surveyed then FieldLine.hand .survey false l else FieldLine.hand (.light d .dark) true l

theorem surveyOrDarkSrc_line (s : State) (p : Fin 4) (i : Fin 16) : (surveyOrDarkSrc s p).lines[i] =
    if lineOf (.src p) = i then s.lines[i].started (decide (p.val < s.prof.profile.sourceCount)) .source
    else s.lines[i] := by
  rw [surveyOrDarkSrc_eq]
  by_cases h : p.val < s.prof.profile.sourceCount
  · rw [if_pos h, modLine_getElem]
    simp only [FieldLine.started, h, decide_true, if_true]
    rfl
  · rw [if_neg h, modLine_getElem]
    simp [FieldLine.started, h]

theorem surveyOrDarkOrd_line (s : State) (q : Fin 12) (i : Fin 16) : (surveyOrDarkOrd s q).lines[i] =
    if lineOf (.ord q) = i then s.lines[i].started (decide (q.val < s.prof.profile.orderCount)) .all
    else s.lines[i] := by
  rw [surveyOrDarkOrd_eq]
  by_cases h : q.val < s.prof.profile.orderCount
  · rw [if_pos h, modLine_getElem]
    simp only [FieldLine.started, h, decide_true, if_true]
    rfl
  · rw [if_neg h, modLine_getElem]
    simp [FieldLine.started, h]

theorem foldl_surveyOrd_src (l : List (Fin 12)) (s : State) : (l.foldl surveyOrDarkOrd s).src = s.src := by
  induction l generalizing s with
  | nil => rfl
  | cons a l ih => exact (ih _).trans (surveyOrDarkOrd_src s a)

theorem foldl_surveySrc_wall (l : List (Fin 4)) (s : State) : (l.foldl surveyOrDarkSrc s).wall = s.wall := by
  induction l generalizing s with
  | nil => rfl
  | cons a l ih => exact (ih _).trans (surveyOrDarkSrc_wall s a)

theorem foldl_surveySrc_src (l : List (Fin 4)) (hl : l.Nodup) (s : State) (p : Fin 4) :
    (l.foldl surveyOrDarkSrc s).src[p] =
      if p ∈ l ∧ p.val < s.prof.profile.sourceCount then s.src[p].setSurvey (some 20) else s.src[p] := by
  induction l generalizing s with
  | nil => simp
  | cons a l ih =>
    obtain ⟨ha, hl⟩ := List.nodup_cons.mp hl
    have hp := (surveyOrDarkSrc_frame s a).prof
    rw [List.foldl_cons, ih hl, hp, surveyOrDarkSrc_src]
    by_cases e : a = p
    · subst e; simp [ha]
    · have : p ≠ a := fun x => e x.symm
      simp [e, this]

theorem foldl_surveyOrd_ord (l : List (Fin 12)) (hl : l.Nodup) (s : State) (q : Fin 12) :
    (l.foldl surveyOrDarkOrd s).wall.pos[q] =
      if q ∈ l ∧ q.val < s.prof.profile.orderCount then s.wall.pos[q].setSurvey (some 20) else s.wall.pos[q] := by
  induction l generalizing s with
  | nil => simp
  | cons a l ih =>
    obtain ⟨ha, hl⟩ := List.nodup_cons.mp hl
    have hp := (surveyOrDarkOrd_frame s a).prof
    rw [List.foldl_cons, ih hl, hp, surveyOrDarkOrd_ord]
    by_cases e : a = q
    · subst e; simp [ha]
    · have : q ≠ a := fun x => e x.symm
      simp [e, this]

theorem foldl_surveySrc_line (l : List (Fin 4)) (hl : l.Nodup) (s : State) (p : Fin 4) :
    (l.foldl surveyOrDarkSrc s).lines[lineOf (.src p)] =
      if p ∈ l then
        s.lines[lineOf (.src p)].started (decide (p.val < s.prof.profile.sourceCount)) .source
      else s.lines[lineOf (.src p)] := by
  induction l generalizing s with
  | nil => simp
  | cons a l ih =>
    obtain ⟨ha, hl⟩ := List.nodup_cons.mp hl
    have hp := (surveyOrDarkSrc_frame s a).prof
    rw [List.foldl_cons, ih hl, hp, surveyOrDarkSrc_line]
    by_cases e : a = p
    · subst e; simp [ha]
    · have : p ≠ a := fun x => e x.symm
      have n : lineOf (.src a) ≠ lineOf (.src p) := by
        intro h; exact e (Fin.ext (by simpa [lineOf] using h))
      simp [n, this]

theorem foldl_surveyOrd_lineSrc (l : List (Fin 12)) (s : State) (p : Fin 4) :
    (l.foldl surveyOrDarkOrd s).lines[lineOf (.src p)] = s.lines[lineOf (.src p)] := by
  induction l generalizing s with
  | nil => rfl
  | cons a l ih =>
    have n : lineOf (.ord a) ≠ lineOf (.src p) := by
      intro h
      have h := Fin.val_eq_of_eq h
      simp only [lineOf] at h
      omega
    rw [List.foldl_cons, ih, surveyOrDarkOrd_line, if_neg n]

theorem foldl_surveySrc_lineOrd (l : List (Fin 4)) (s : State) (q : Fin 12) :
    (l.foldl surveyOrDarkSrc s).lines[lineOf (.ord q)] = s.lines[lineOf (.ord q)] := by
  induction l generalizing s with
  | nil => rfl
  | cons a l ih =>
    have n : lineOf (.src a) ≠ lineOf (.ord q) := by
      intro h
      have h := Fin.val_eq_of_eq h
      simp only [lineOf] at h
      omega
    rw [List.foldl_cons, ih, surveyOrDarkSrc_line, if_neg n]

theorem foldl_surveyOrd_line (l : List (Fin 12)) (hl : l.Nodup) (s : State) (q : Fin 12) :
    (l.foldl surveyOrDarkOrd s).lines[lineOf (.ord q)] =
      if q ∈ l then
        s.lines[lineOf (.ord q)].started (decide (q.val < s.prof.profile.orderCount)) .all
      else s.lines[lineOf (.ord q)] := by
  induction l generalizing s with
  | nil => simp
  | cons a l ih =>
    obtain ⟨ha, hl⟩ := List.nodup_cons.mp hl
    have hp := (surveyOrDarkOrd_frame s a).prof
    rw [List.foldl_cons, ih hl, hp, surveyOrDarkOrd_line]
    by_cases e : a = q
    · subst e; simp [ha]
    · have : q ≠ a := fun x => e x.symm
      have n : lineOf (.ord a) ≠ lineOf (.ord q) := by
        intro h; exact e (Fin.ext (by simpa [lineOf] using h))
      simp [n, this]

theorem mem_srcIndices (p : Fin 4) : p ∈ srcIndices := by fin_cases p <;> decide
theorem mem_ordIndices (q : Fin 12) : q ∈ ordIndices := by fin_cases q <;> decide

/-- A source position right after a start-up: CLOSED, with its survey timer running below the source count. -/
theorem startUp_src (k : Bool) (s : State) (p : Fin 4) :
    (startUp k s).src[p] =
      { depth := (s.prof.started k).profile.laneDepth[p]
        surveyT := if p.val < (s.prof.started k).profile.sourceCount then some 20 else none } := by
  unfold startUp
  rw [show (ordIndices.foldl surveyOrDarkOrd (srcIndices.foldl surveyOrDarkSrc (blankStart k s))).src =
      (srcIndices.foldl surveyOrDarkSrc (blankStart k s)).src from foldl_surveyOrd_src _ _,
    foldl_surveySrc_src _ (by decide)]
  have b : (blankStart k s).src[p] = { depth := (s.prof.started k).profile.laneDepth[p] } := by
    fin_cases p <;> rfl
  rw [b]
  simp only [mem_srcIndices, true_and]
  show (if p.val < (s.prof.started k).profile.sourceCount then _ else _) = _
  split <;> rfl

/-- An order position right after a start-up: CLOSED, with its survey timer running below the order count. -/
theorem startUp_ord (k : Bool) (s : State) (q : Fin 12) :
    (startUp k s).wall.pos[q] =
      { surveyT := if q.val < (s.prof.started k).profile.orderCount then some 20 else none } := by
  unfold startUp
  rw [foldl_surveyOrd_ord _ (by decide)]
  have e : ((srcIndices.foldl surveyOrDarkSrc (blankStart k s)).wall.pos)[q] = {} := by
    rw [show (srcIndices.foldl surveyOrDarkSrc (blankStart k s)).wall = (blankStart k s).wall from
      foldl_surveySrc_wall _ _]
    fin_cases q <;> rfl
  have p : (srcIndices.foldl surveyOrDarkSrc (blankStart k s)).prof = s.prof.started k :=
    (SurveyFrame.foldl surveyOrDarkSrc_frame srcIndices _).prof
  rw [e, p]
  simp only [mem_ordIndices, true_and]
  split <;> rfl

/-- The line of a source position right after a start-up: its SURVEY order, or the dark LIGHT, outstanding. -/
theorem startUp_lineSrc (k : Bool) (s : State) (p : Fin 4) :
    (startUp k s).lines[lineOf (.src p)] =
      FieldLine.started (decide (p.val < (s.prof.started k).profile.sourceCount)) .source {} := by
  unfold startUp
  rw [foldl_surveyOrd_lineSrc, foldl_surveySrc_line _ (by decide), if_pos (mem_srcIndices p)]
  have e : (blankStart k s).lines[lineOf (.src p)] = {} := by fin_cases p <;> rfl
  rw [e]
  rfl

/-- The line of an order position right after a start-up. -/
theorem startUp_lineOrd (k : Bool) (s : State) (q : Fin 12) :
    (startUp k s).lines[lineOf (.ord q)] =
      FieldLine.started (decide (q.val < (s.prof.started k).profile.orderCount)) .all {} := by
  unfold startUp
  have p : (srcIndices.foldl surveyOrDarkSrc (blankStart k s)).prof = s.prof.started k :=
    (SurveyFrame.foldl surveyOrDarkSrc_frame srcIndices _).prof
  rw [foldl_surveyOrd_line _ (by decide), if_pos (mem_ordIndices q), foldl_surveySrc_lineOrd, p]
  have e : (blankStart k s).lines[lineOf (.ord q)] = {} := by fin_cases q <;> rfl
  rw [e]

end Sys2Proof.Machine
end

