-- ==== Sys2Proof/Tests/Slice0.lean ====
section
/-!
SUPPORT. Tests: figures the manual works out, ill-formed commands refused, and for every statement with hypotheses a state
and operands that meet them. Each expected result is the manual's; the section stands in the docstring.
-/
namespace Sys2Proof.Tests
open Sys2Proof Sys2Proof.Machine

/-! ## States the tests start from -/

/-- A bench in SERVICE: four OPEN source positions, twelve EMPTY order positions, nothing on the lines. -/
def service : State :=
  { State.reset with
    bench := { mode := .service }
    lines := Vector.replicate 16 {}
    src := Vector.replicate 4 { state := .opn }
    wall := { pos := Vector.replicate 12 { state := .empty } } }

/-- A source position replaced. -/
def withSrc (p : Fin 4) (x : SrcPos) (s : State) : State := modSrc p (fun _ => x) s

/-- An order position replaced. -/
def withOrd (q : Fin 12) (x : OrdPos) (s : State) : State := modOrd q (fun _ => x) s

/-- A line of one order ref, 12 units of 900 g and 12 volume units, as in section 4.11. -/
def line (ref qty : Nat) : OLine :=
  { ref := ref, qty := qty, unit := some 900, bounds := none, volume := 12, mode := .weigh, charge := 900 }

/-- An order tote record with the default windows of C = 4. -/
def record (ref tote : Nat) : Rec :=
  { ref := ref, tote := tote, urgent := false, seq := 1, count := 4, weightCap := 7000, volumeCap := 100,
    windows := ⟨defaultWindow 4, defaultWindow 4, defaultWindow 4⟩, comps := [{}, {}, {}, {}], baseline := some 2000 }

/-- An ACTIVE order position. -/
def active (r : Rec) : OrdPos := { state := .active, record := some r, latest := some (.grams 2000) }

/-- An AMBIENT offer. -/
def ambient (tote : Nat) (ls : List OLine) : Offer := { tote := tote, temp := .ambient, exposure := none, lines := ls }

/-- A cold offer with its exposure used, in tenths. -/
def cold (t : Temp) (tote used budget ref : Nat) : Offer :=
  { tote := tote, temp := t, exposure := some { budget := budget, used := used }, lines := [line ref 1] }

/-- Offer 7 PRESENT at the face of SP0, with one line for order ref 5; a record for it ACTIVE at OP0. -/
def presented : State :=
  withOrd 0 (active (record 5 9)) (withSrc 0 { state := .opn, face := { state := .present, offer := some 7 } }
    { service with offers :=
      [{ ambient 7 [line 5 3] with state := .present, place := some (0, .face), presented := some 10 }] })

/-- The cycle on offer 7. -/
def cycle : Cycle := { src := 0, offer := 7, line := 0, tgt := 0, tgtTote := 9, comp := 0, n := 3, mode := .weigh }

/-- The bench of `presented` with that cycle lit. -/
def lit : State := { presented with put := { cycle := some cycle, lastServed := some 7 }, picker := { idleT := some 450 } }

/-- A request. -/
def req (kind : Byte) (body : List Byte) : Request := { tag := 1, kind := kind, body := body }

/-- A state with one request in the inbox. -/
def asked (kind : Byte) (body : List Byte) (s : State) : State :=
  { s with link := { s.link with inbox := [req kind body] } }

/-! ## Figures of the manual -/

set_option maxRecDepth 20000 in
/-- Section 9.1: the CRC-16 over the nine ASCII characters 123456789 is 0x29B1. -/
theorem test_crc16 : crc16 [0x31, 0x32, 0x33, 0x34, 0x35, 0x36, 0x37, 0x38, 0x39] = 0x29B1 := by decide

/-- Section 6.8, a fixed-weight put in two stages and an over-put put right: u = 410 g, Ta = 15 g, Tp = 20. -/
theorem test_verdicts_of_a_fixed_weight :
    verdict (.grams 3180) 2350 3 (.fixed 410) 15 20 = .part 2 ∧ verdict (.grams 3590) 3180 1 (.fixed 410) 15 20 = .matched ∧
    verdict (.grams 4000) 2350 3 (.fixed 410) 15 20 = .over 1 ∧ verdict (.grams 3588) 2350 3 (.fixed 410) 15 20 = .matched := by
  decide

/-- Section 6.8, fixed weight at the edges. -/
theorem test_verdicts_at_the_edges :
    [2334, 2335, 2365, 2366, 2554, 2555, 2744, 2745, 3930].map (fun g => verdict (.grams g) 2350 3 (.fixed 410) 15 20) =
      [.negative, .noChange, .noChange, .ambiguous, .ambiguous, .ambiguous, .ambiguous, .part 1, .over 1] := by
  decide

/-- Section 6.8, a variable-weight put: 150 to 230 g, n = 6. -/
theorem test_verdicts_of_a_variable_weight :
    [1141, 800, 260, 1332].map (fun d => verdict (.grams (2000 + d)) 2000 6 (.variable 150 230) 15 20) =
      [.matched, .part 4, .ambiguous, .over 1] := by
  decide

/-- Section 6.8, a unit lighter than the floor: u = 20 g, Ta = 25 g. -/
theorem test_verdicts_below_the_floor :
    verdict (.grams 1020) 1000 3 (.fixed 20) 25 20 = .noChange ∧ verdict (.grams 1040) 1000 3 (.fixed 20) 25 20 = .part 2 ∧
    verdict (.grams 1080) 1040 1 (.fixed 20) 25 20 = .over 1 := by
  decide

/-- R63: the windows of a record with C = 4. -/
theorem test_windows :
    [Window.mk .front 2 false, ⟨.back, 2, false⟩, ⟨.front, 2, true⟩, ⟨.back, 2, true⟩, ⟨.front, 1, true⟩, ⟨.back, 1, true⟩,
      ⟨.front, 0, true⟩, ⟨.front, 4, true⟩].map (fun w => w.comps 4) =
      [[0, 1], [3, 2], [3, 2], [0, 1], [3, 2, 1], [0, 1, 2], [3, 2, 1, 0], []] := by
  decide

/-- The records of section 4.11. -/
def wall411 : State :=
  withOrd 2 (active { record 6001 70 with
      seq := 14, windows := ⟨defaultWindow 4, defaultWindow 4, ⟨.back, 2, false⟩⟩
      comps := [{}, {}, { shut := true, weight := 2100, volume := 30 }, { weight := 6500, volume := 60 }] })
    (withOrd 5 (active { record 6001 71 with
      seq := 19, windows := ⟨defaultWindow 4, defaultWindow 4, ⟨.back, 1, false⟩⟩ }) service)

/-- Section 4.11: the answer is OP5, compartment 3, n = 7. -/
theorem test_allocation : findRoom .frozen (line 6001 12) wall411 = some { q := 5, tote := 71, comp := 3, n := 7 } := by
  decide

/-- The bench of section 3.10. -/
def bench310 : State :=
  let s : State := withSrc 1 { state := .opn, face := { state := .present, offer := some 1 } }
    (withOrd 0 (active (record 7001 1)) (withOrd 1 (active (record 7002 2))
      (withOrd 2 (active { record 7003 3 with urgent := true }) service)))
  { s with
    arb := { lastCold := some .frozen }
    prof := { s.prof with profile := { s.prof.profile with rotate := true } }
    offers :=
      [ambient 50001 [line 7001 1], cold .chilled 50002 0 600 7002, cold .frozen 50003 0 900 7001,
        ambient 50004 [line 7003 1], { cold .frozen 50005 4000 900 7002 with ret := true },
        cold .chilled 50006 2100 300 7001] }

/-- Section 3.10: the grants, the offer dropped, the ladder and the exposure after the arbitration. -/
theorem test_arbitration :
    let t := arbitrate bench310
    (t.offers.map fun o => (o.tote, o.place)) =
      [(50001, some (2, .face)), (50002, none), (50003, none), (50004, some (0, .face)), (50005, some (1, .lane))] ∧
    t.src[3].face.state = .empty ∧ t.arb = { ladder := [.cold, .expedite, .ambient, .ret], lastCold := some .frozen } ∧
    (t.offers.map fun o => o.remainingSeconds) = [none, some 600, some 900, none, some 455] := by
  decide

/-- Section 1.8: the OFFER of tag 32, FROZEN with a budget of 2400 s and two lines, u 450 g and u 12 g. -/
def offer32 : List Byte :=
  bytes32 40030 ++ [2] ++ bytes16 2400 ++ bytes16 0 ++ [2] ++ bytes32 5101 ++ [2] ++ bytes16 450 ++ bytes16 0 ++ bytes16 0 ++
    [0] ++ bytes32 5103 ++ [1] ++ bytes16 12 ++ bytes16 0 ++ bytes16 0 ++ [0]

/-- The bench of section 1.8. -/
def bench18 : State := withOrd 0 (active (record 5101 1)) service

/-- Section 1.8: it is accepted with the budget clamped to 1800 s and modes WEIGH, PRESS, the charge weight of line 1 being
12 g. -/
theorem test_offer_accepted :
    ((judgeOffer bench18 offer32).toOption.map fun o =>
      (o.tote, o.exposure.map (fun e => (e.budget, e.used)), o.lines.map fun l => (l.mode, l.charge))) =
      some (40030, some (1800, 0), [(.weigh, 450), (.press, 12)]) := by
  decide

/-- Section 1.8: without a record for its refs an OFFER is answered WAIT NO-ORDER, in another mode WAIT MODE. -/
theorem test_offer_refused :
    (match judgeOffer service offer32 with | .error b => some b | .ok _ => none) = some (.wait .noOrder) ∧
    (match judgeOffer State.reset offer32 with | .error b => some b | .ok _ => none) = some (.wait .mode) := by
  decide

/-- Section 8.5: the start-up survey has just begun, and a report taken before its answer is discarded (R160). -/
theorem test_survey_answer_opens_position :
    (match exec (.surveyAnswer (.src 0) (.source none none)) State.reset with
      | .next t => some (t.src[0].state, t.src[1].state)
      | _ => none) = some (.opn, .closed) := by
  decide

/-- R91: the last press of a cycle writes the line and charges the compartment. -/
theorem test_last_press_ends_cycle :
    (match exec (.keyButton (.ord 0) 0) { lit with put := { lit.put with cycle := some { cycle with
        mode := .press, acc := 2 } } } with
      | .next t => some (t.offers.map fun o => (o.state, o.lines.map fun l => (l.state, l.done)), t.put.cycle.isNone)
      | _ => none) = some ([(.leaving, [(.done, 3)])], true) := by
  decide

/-- R170: the body of a RELEASE notice, laid out by hand: clock 258, tote 40017, DONE, SP1 FACE, AMBIENT, one line of order
ref 5101, 2 of 2, DONE. -/
theorem test_release_body :
    Notice.bytes { clock := 258, body := .release (some 40017) .done (some (1, .face)) none (
      { ref := 5101, qty := 2, done := 2, state := .done } :: []) } =
      some [2, 1, 0, 0, 0x51, 0x9C, 0, 0, 0, 1, 0, 0xFF, 0xFF, 1, 0, 0xED, 0x13, 0, 0, 2, 2, 1] := by
  decide

/-! ## Ill-formed commands are refused by `Instr.wellFormed`, one per check -/

theorem test_ill_formed_frame_start : (Instr.frameReceived [0xC2, 2, 0, 1, 2, 0, 0]).wellFormed = false := by decide
theorem test_ill_formed_frame_length : (Instr.frameReceived [0xC3, 1, 0, 1, 0, 0]).wellFormed = false := by decide
theorem test_ill_formed_frame_short : (Instr.frameReceived [0xC3, 2, 0, 1, 2, 0]).wellFormed = false := by decide
theorem test_ill_formed_frame_empty : (Instr.frameReceived []).wellFormed = false := by decide
theorem test_ill_formed_source_id : (Instr.sourceArrived 0 .face (some 0)).wellFormed = false := by decide
theorem test_ill_formed_order_id : (Instr.orderArrived 0 none (some 4294967296)).wellFormed = false := by decide
theorem test_ill_formed_order_slot : (Instr.orderArrived 0 (some .face) none).wellFormed = false := by decide
theorem test_ill_formed_departed_slot : (Instr.orderDeparted 0 (some .lane)).wellFormed = false := by decide
theorem test_ill_formed_stable_line : (Instr.stable (.src 0) (.grams 1)).wellFormed = false := by decide
theorem test_ill_formed_stable_weight : (Instr.stable (.ord 0) (.grams 60001)).wellFormed = false := by decide
theorem test_ill_formed_short_line : (Instr.keyShort (.ord 0)).wellFormed = false := by decide
theorem test_ill_formed_button_line : (Instr.keyButton (.src 0) 0).wellFormed = false := by decide
theorem test_ill_formed_button : (Instr.keyButton (.ord 0) 6).wellFormed = false := by decide
theorem test_ill_formed_answer_id : (Instr.surveyAnswer (.src 0) (.source (some (some 0)) none)).wellFormed = false := by
  decide
theorem test_ill_formed_answer_weight : (Instr.surveyAnswer (.ord 0) (.order none (.grams 60001))).wellFormed = false := by
  decide
theorem test_ill_formed_ack : (Instr.ack (.src 0) 256).wellFormed = false := by decide
theorem test_ill_formed_margin : (Instr.warningMarginReached 0).wellFormed = false := by decide
theorem test_ill_formed_expiry : (Instr.exposureExpiry 4294967296).wellFormed = false := by decide
theorem test_ill_formed_bad_length : (Instr.badLength 2 0).wellFormed = false := by decide
theorem test_well_formed_at_the_bounds :
    [Instr.frameReceived [0xC3, 2, 0, 1, 2, 0, 0], .sourceArrived 0 .face (some 4294967295), .orderArrived 0 none (some 1),
      .stable (.ord 0) (.grams 60000), .keyButton (.ord 0) 5, .ack (.src 0) 255, .badLength 1 0,
      .badLength 0xE3 1].all Instr.wellFormed = true := by decide

/-! ## States and operands that meet the hypotheses of the statements, clause by clause -/

theorem witness_StepRunsFrontCommand :
    ({ State.reset with pending := [.holdOn, .frameSent] } : State).pending = .holdOn :: [.frameSent] := rfl

theorem witness_EmptyQueueComesToDueCommandOrTicks :
    State.reset.pending = [] ∧ State.reset.inputs.reset = false ∧ due State.reset = [] ∧
    due { State.reset with picker := { idleT := some 0 } } = [.idleTimerExpiry] ∧
    ({ State.reset with inputs := { reset := true } } : State).inputs.reset = true := by
  decide

theorem witness_StartUpClearsTheParts :
    State.reset.inputs.reset = false ∧ State.reset.inputs.hold = false ∧ State.reset.inputs.key = false ∧
    State.reset.prof.image = {} ∧ State.reset.prof.check = 0 ∧ State.reset.prof.spoiled = 0 ∧
    State.reset.prof.storing = false ∧ ({ State.reset.prof with storing := true } : ProfileStore).storing = true ∧
    State.reset.pending = [] := by
  decide

theorem witness_ResetInputHoldsThePart :
    ({ State.reset with inputs := { reset := true } } : State).inputs.reset = true ∧ Instr.powerUp ≠ .resetLine ∧
    Instr.powerUp ≠ .holdOn ∧ Instr.powerUp ≠ .holdOff ∧ ∀ b, Instr.powerUp ≠ .keyInputChange b := by
  decide

/-- The properties of `lit` that `decide` can judge. -/
theorem lit_decided :
    lit.queuesOk ∧ lit.offersOk ∧ lit.slotsOk ∧ lit.drainedOk ∧ lit.wallOk ∧ lit.linesOk ∧ lit.cycleTimersOk ∧
    lit.profileOk ∧ lit.putListsOk ∧ lit.progressOk := by
  refine ⟨?_, ?_, ?_, ?_, ?_, ?_, ?_, ?_, ?_, ?_⟩
  · unfold State.queuesOk; decide
  · unfold State.offersOk; decide
  · unfold State.slotsOk; decide
  · unfold State.drainedOk; decide
  · unfold State.wallOk; decide
  · unfold State.linesOk; decide
  · unfold State.cycleTimersOk; decide
  · unfold State.profileOk; decide
  · unfold State.putListsOk; decide
  · unfold State.progressOk; decide

/-- The one slot of `lit` that names an offer. -/
theorem lit_named (p : Fin 4) (sl : Slot) (t : Nat) (h : lit.src[p].named sl = some t) : p = 0 ∧ sl = .face ∧ t = 7 := by
  have k : ∀ p : Fin 4, lit.src[p].named .lane = none ∧ (p ≠ 0 → lit.src[p].named .face = none) := by decide
  cases sl
  · by_cases e : p = 0
    · subst e
      exact ⟨rfl, rfl, (Option.some.inj h).symm⟩
    · rw [(k p).2 e] at h; cases h
  · rw [(k p).1] at h; cases h

/-- The one record of `lit`. -/
theorem lit_record (q : Fin 12) (r : Rec) (h : lit.wall.pos[q].record = some r) : q = 0 ∧ r = record 5 9 := by
  have k : ∀ q : Fin 12, q ≠ 0 → lit.wall.pos[q].record = none := by decide
  by_cases e : q = 0
  · subst e
    exact ⟨rfl, (Option.some.inj h).symm⟩
  · rw [k q e] at h; cases h

/-- The hypotheses of every statement `StepKeeps…`, at a bench with an offer, a record and a lit cycle. -/
theorem witness_invariants : lit.queuesOk ∧ lit.consistent ∧ ∃ t, step lit = .next t := by
  obtain ⟨a, b, c, d, e, f, g, h, i, j⟩ := lit_decided
  refine ⟨a, ⟨b, c, d, ⟨by decide, ?_, ?_⟩, e, ⟨?_, by decide, by decide, ?_⟩, g, ?_, f, ?_, ?_, h, i, j⟩, _, rfl⟩
  · intro p sl t k
    obtain ⟨rfl, rfl, rfl⟩ := lit_named p sl t k
    decide
  · intro p p' sl sl' t k k'
    obtain ⟨rfl, rfl, -⟩ := lit_named p sl t k
    obtain ⟨rfl, rfl, -⟩ := lit_named p' sl' t k'
    exact ⟨rfl, rfl⟩
  · intro q q' r r' k k' _
    rw [(lit_record q r k).1, (lit_record q' r' k').1]
  · intro q r k _
    rw [(lit_record q r k).2]
    rfl
  · intro x k
    cases k
    exact ⟨by decide, rfl, rfl, rfl, _, _, _, _, rfl, rfl, rfl, rfl, by decide, rfl, rfl, rfl, rfl, rfl, rfl, rfl, rfl,
      by decide, by decide, rfl⟩
  · intro pos k
    have n : ∀ (p : Fin 4) (q : Fin 12), inSurvey (.src p) lit = false ∧ inSurvey (.ord q) lit = false := by decide
    cases pos with
    | src p => rw [(n p 0).1] at k; cases k
    | ord q => rw [(n 0 q).2] at k; cases k
  · intro pos
    have n : ∀ i : Fin 16, lit.lines[i].orders = [] := by decide
    have m := n (lineOf pos)
    refine ⟨⟨?_, ?_, ?_, ?_⟩, ?_⟩ <;> simp only [m] <;> simp

theorem witness_StepKeepsSlotTable :
    ({ service with bench := { mode := .drained } } : State).slotsOk ∧
    ({ service with bench := { mode := .drained } } : State).drainedOk ∧ lit.consistent :=
  ⟨by unfold State.slotsOk; decide, by unfold State.drainedOk; decide, witness_invariants.2.1⟩

theorem witness_OnlyOfferAddsRecordsAndNoneChangesFixedParts :
    Instr.frameSent ≠ .offer ∧ (∃ t, exec .frameSent lit = .next t) ∧ (∃ t, exec .offer lit = .next t) ∧
    lit.pending = [] ∧ ∃ t, step lit = .next t :=
  ⟨by decide, ⟨_, rfl⟩, ⟨_, rfl⟩, rfl, ⟨_, rfl⟩⟩

theorem witness_VerdictComparesDeltaWithFloor :
    ((2334 : Nat) : Int) - (2350 : Nat) = ((984 : Nat) : Int) - (1000 : Nat) ∧
    ((2334 : Nat) : Int) - (2350 : Nat) < -((15 : Nat) : Int) ∧ -((15 : Nat) : Int) ≤ ((2335 : Nat) : Int) - (2350 : Nat) ∧
    ((2365 : Nat) : Int) - (2350 : Nat) ≤ (15 : Nat) ∧ ((15 : Nat) : Int) < ((2366 : Nat) : Int) - (2350 : Nat) := by
  decide

theorem witness_InferredCountIsNearestHalvesUp : 0 < 1 ∧ 0 < 150 ∧ 150 ≤ 230 ∧ 1 ≤ 1 := by decide

theorem witness_VerdictClassifiesCountInOrder :
    3 < (Basis.fixed 410).inferred 1650 ∧ (Basis.fixed 410).inferred 204 = 0 ∧ (Basis.fixed 410).inferred 205 = 1 ∧
    (Basis.fixed 410).within 394 1 15 20 = false ∧ (Basis.fixed 410).within 395 1 15 20 = true ∧
    (Basis.fixed 410).inferred 1238 = 3 ∧ (Basis.fixed 410).within 1238 3 15 20 = true ∧
    classify (.fixed 1) 60000 1 15 20 = .over 59999 := by
  decide

theorem witness_ToleranceOfFixedAndVariableLines :
    0 < 20 ∧ (Basis.fixed 20).inferred 30 = 2 ∧ 20 / 2 ≤ max 15 ((2 * 20 * 20 + 999) / 1000) := by decide

theorem witness_WindowListsCompartmentsInOrder :
    0 ≤ 6 ∧ 6 ≤ 6 ∧ ((⟨.front, 0, false⟩ : Window).comps 4) = [] ∧ ((⟨.back, 4, true⟩ : Window).comps 4) = [] := by decide

theorem witness_AllocationAnswersExactlyTheRoom :
    (findRoom .frozen (line 6001 12) wall411).isSome = true ∧ findRoom .frozen (line 6002 12) wall411 = none ∧
    findRoom .chilled (line 6001 0) wall411 = none ∧
    (findRoom .frozen { line 6001 12 with charge := 500 } wall411).map (fun a => (a.q, a.comp, a.n)) = some (2, 3, 1) ∧
    wall411.wall.pos[5].state = .active ∧
    (wall411.wall.pos[5].record.any fun r => decide (r.cond = .clean ∧ r.ref = 6001 ∧ 3 ∈ (r.windows.get .chilled).comps 4)) =
      true := by
  decide

/-- R77, R79: with a line of 8000 g no compartment has room; both candidates are marked, the older first. -/
theorem witness_AllocationAnswersExactlyTheRoom_full :
    let l := { line 6001 12 with charge := 8000 }
    findRoom .frozen l wall411 = none ∧ (allocate .frozen l wall411).1 = none ∧
    ((wall411.wall.pos[2].record.map fun r => (r.cond, r.ref, r.full.get .frozen)) = some (.clean, 6001, false)) ∧
    ((allocate .frozen l wall411).2.link.out.map fun e => match e with
      | .notice n => some n.body
      | .reply _ => none) =
      [some (.wall 2 (some (6001, 70)) (.full .frozen [(3, 500, 40)])),
        some (.wall 5 (some (6001, 71)) (.full .frozen [(3, 7000, 100)]))] ∧
    ((allocate .frozen l (allocate .frozen l wall411).2).2.link.out.length = 2) := by
  decide

theorem witness_PutModeAndChargeWeight :
    (150 : Nat) ≠ 0 ∧ 20 ≤ 20 ∧ 19 < 20 ∧ (makeLine 20 ⟨1, 1, 0, 20, 230, 0⟩).mode = .weigh ∧
    (makeLine 20 ⟨1, 1, 0, 19, 230, 0⟩).mode = .press ∧ (makeLine 20 ⟨1, 1, 20, 0, 0, 0⟩).mode = .weigh ∧
    (makeLine 20 ⟨1, 1, 19, 0, 0, 0⟩).mode = .press ∧ (makeLine 20 ⟨1, 1, 0, 0, 0, 0⟩).mode = .press := by
  decide

theorem witness_RequestClassIsFirstRowSatisfied :
    ({ ambient 1 [] with ret := true } : Offer).ret = true ∧
    (∃ l ∈ (ambient 50004 [line 7003 1]).lines, l.state = .opn ∧ ∃ (q : Fin 12) (r : Rec),
      bench310.wall.pos[q].record = some r ∧ bench310.wall.pos[q].state = .active ∧ r.ref = l.ref ∧ r.urgent = true) ∧
    ¬ (∃ l ∈ (cold .chilled 1 0 600 7002).lines, l.state = .done) ∧ (cold .chilled 1 0 600 7002).temp = .chilled ∧
    (ambient 1 []).temp = .ambient :=
  ⟨rfl, ⟨_, List.mem_singleton.mpr rfl, rfl, 2, _, rfl, rfl, rfl, rfl⟩, by decide, rfl, rfl⟩

theorem witness_GrantTakesFourSteps :
    (bench310.offers[3]?).map (fun o => o.tote) = some 50004 ∧ (bench310.offers[0]?).map (fun o => o.tote) = some 50001 ∧
    50001 ≠ 50004 ∧ (1 : Fin 4) ≠ 0 := by
  decide

theorem witness_ArbitrationFrame :
    (∀ (p : Fin 4) (sl : Slot), callable p sl State.reset = false) ∧ bench310.offersOk := by
  refine ⟨?_, by unfold State.offersOk; decide⟩
  intro p sl
  revert p
  cases sl <;> decide

theorem witness_ArbitrationServesEveryCallableSlot :
    isLadder bench310.arb.ladder = true ∧ callable 3 .face (arbitrate bench310) = true ∧
    (arbitrate bench310).offers.length = 5 := by
  decide

/-- R46, R47, R48, R51: before the arbitration of section 3.10 a face and a lane are callable, offers are eligible, the cold
offer 50006 fails the exposure test; with the picker IDLE, or 48 notices held, no slot is callable. -/
theorem witness_ArbitrationServesEveryCallableSlot_choice :
    callable 0 .face bench310 = true ∧ callable 1 .lane bench310 = true ∧ callable 1 .face bench310 = false ∧
    (bench310.offers.map fun o => (o.tote, eligible 1 o bench310, reqClass o bench310)) =
      [(50001, true, .ambient), (50002, true, .cold), (50003, true, .cold), (50004, true, .expedite), (50005, true, .ret),
        (50006, false, .cold)] ∧
    ((chooseOffer 1 bench310).map fun x => (x.1.tote, x.2)) = some (50004, .expedite) ∧ chooseOffer 0 service = none ∧
    ((chooseOffer 1 { bench310 with
      offers := bench310.offers.take 3
      arb := { bench310.arb with ladder := [.cold, .ret, .expedite, .ambient] } }).map fun x => x.1.tote) = some 50002 ∧
    callable 0 .face { bench310 with link := { bench310.link with
      out := List.replicate 47 (.notice { clock := 0, body := .benchMode .service .starting }) } } = true ∧
    callable 0 .face { bench310 with link := { bench310.link with
      out := List.replicate 48 (.notice { clock := 0, body := .benchMode .service .starting }) } } = false ∧
    callable 0 .face { bench310 with picker := { cond := .held } } = false := by
  decide

/-- The bench of `presented` with its record gone: nothing can be served from SP0. -/
def stranded (t : Option Nat) : State :=
  withOrd 0 { state := .empty } (modSrc 0 (SrcPos.setOrphan t) presented)

/-- R38: the dwell of 45 s, in tenths, and a timer that runs already. -/
theorem witness_OrphanTimersRunWhenNothingServeable :
    (judgeOrphans (stranded none)).src[0].face.orphanT = some ((stranded none).prof.profile.orphanDwell * 10) ∧
    (stranded none).src[0].face.orphanT = none ∧ (judgeOrphans (stranded (some 3))).src[0].face.orphanT = some 3 ∧
    (stranded (some 3)).src[0].face.orphanT = some 3 ∧ (judgeOrphans presented).src[0].face.orphanT = none := by
  decide

/-- R79: a full mark newly set by a judgement, with its notice: the record of `presented` has every compartment shut. -/
theorem witness_OrphanTimersRunWhenNothingServeable_marks :
    let s := withOrd 0 (active { record 5 9 with comps := List.replicate 4 { shut := true } }) presented
    ((judgeOrphans s).wall.pos[0].record.map fun r => r.full.get .ambient) = some true ∧
    (s.wall.pos[0].record.map fun r => r.full.get .ambient) = some false ∧
    (judgeOrphans s).src[0].face.orphanT.isSome = true ∧ (judgeOrphans s).link.out.length = 1 := by
  decide

theorem witness_AttemptBeginsServeableCycle :
    lit.put.cycle.isSome = true ∧ ({ service with picker := { cond := .idle } } : State).picker.cond ≠ .active ∧
    State.reset.bench.mode ≠ .service ∧ State.reset.bench.mode ≠ .draining ∧ presented.put.cycle = none ∧
    (attempt presented).put.cycle = some cycle ∧ (attempt (stranded none)).put.cycle = none ∧
    mayBegin (stranded none) = true := by
  decide

/-- R84: the first line that is OPEN has no record, so the cycle is on the second. -/
theorem witness_AttemptBeginsServeableCycle_first :
    let s := { presented with offers := presented.offers.map fun o => { o with lines := [line 6 1, line 5 3] } }
    (attempt s).put.cycle = some { cycle with line := 1 } ∧ findRoom .ambient (line 6 1) s = none := by
  decide

/-- The bench of `presented` with offer 7 CHILLED and one tenth of its exposure left. -/
def warned : State :=
  { presented with offers := presented.offers.map fun o =>
      { o with temp := .chilled, exposure := some { budget := 60, used := 599, warning := true } } }

theorem witness_CandidatePreference :
    mayBegin presented = true ∧ ((candidates srcIndices presented).1.map fun k => k.p) = [0] ∧
    (candidates srcIndices service).1 = [] ∧ mayBegin service = true ∧
    ((pickCandidate (candidates srcIndices presented).1 (some 7)).map fun k => k.p) = some 0 ∧
    ((pickCandidate (candidates srcIndices presented).1 none).map fun k => k.p) = some 0 ∧
    ((pickCandidate (candidates srcIndices warned).1 none).map fun k => k.warned) = some true := by
  decide

/-- Offer 8 STAGED at the lane of SP0, behind the face of `presented`. -/
def staged : State :=
  withSrc 0 { state := .opn, face := { state := .present, offer := some 7 }, lane := { state := .staged, offer := some 8 } }
    { presented with offers := presented.offers ++ [{ ambient 8 [line 5 1] with
      state := .staged, place := some (0, .lane) }] }

theorem witness_ReleaseOrdersToteOut :
    staged.offersOk ∧ staged.src[0].state ≠ .faulted ∧ staged.src[0].face.state = .present ∧
    staged.src[0].lane.state = .staged ∧ (findOffer 7 staged).isSome = true ∧ (findOffer 8 staged).isSome = true := by
  unfold State.offersOk
  decide

/-- Section 1.8: places in the offer list are counted from 1, and the second record stands in place 2. -/
theorem test_places_count_from_one : placeOf 7 staged = 1 ∧ placeOf 8 staged = 2 := by decide

/-- R122 and R135: an offer whose exposure ends in the tenth in which the idle timer expires is judged by the exposure
bank, and a rescue margin of 0 rescues nothing (R126). -/
theorem test_exposure_is_due_before_rescue :
    let s : State := { staged with
      picker := { idleT := some 0 }
      prof := { staged.prof with profile := { staged.prof.profile with rescueMargin := 0 } }
      offers := staged.offers.map fun o => { o with
        temp := .frozen, exposure := some { budget := 60, used := 600, warning := true } } }
    (due s).head? = some (.exposureExpiry 7) ∧ rescueSlot s (0, .lane) = s ∧ rescueSlot s (0, .face) = s := by
  decide

/-- R121: an offer that is ADVANCING reaches the margin in the tenth in which its call lapses; the flag is judged first, and
it is judged the same once the offer is WAITING again. -/
theorem test_warning_is_judged_whatever_the_state :
    let s : State := { service with
      src := service.src.set 0 { state := .opn, face := { state := .advancing, offer := some 7, callT := some 0 } }
      offers := [{ cold .frozen 7 10800 1200 5 with state := .staged, place := some (0, .face) }] }
    let margin := s.prof.profile.warningMargin
    let flag := fun o : Host.Outcome State Fault Refusal => match o with
      | .next t => t.offers.map fun o => (o.state, o.exposure.map fun e => e.warning)
      | _ => []
    (cold .frozen 7 10800 1200 5).warningDue margin = true ∧ (due s).take 2 = [.warningMarginReached 7, .lapse 0 .face] ∧
    flag (exec (.lapse 0 .face) s) = [(.waiting, some false)] ∧
    flag (match exec (.lapse 0 .face) s with
      | .next t => exec (.warningMarginReached 7) t
      | o => o) = [(.waiting, some true)] := by
  decide

theorem witness_GoodFrameBecomesRequest :
    State.reset.inputs.reset = false ∧ State.reset.link.rx = [] ∧ (1 : Byte) ≠ 0 ∧ (List.replicate 480 (0 : Byte)).length ≤ 480 ∧
    State.reset.link.inbox.length < 4 ∧ replyCount State.reset + reserved State.reset < 4 := by
  refine ⟨rfl, rfl, by decide, Nat.le_of_eq (List.length_replicate ..), by decide, by decide⟩

set_option maxRecDepth 20000 in
/-- The same code over the first four bytes of an empty RECALL frame, worked by hand. -/
theorem test_crc16_short : crc16 [2, 0, 1, 2] = 0x7ADB := by decide

theorem witness_BadFramesAreDiscarded :
    2 ≤ le16 2 0 ∧ le16 0xE2 1 ≤ 482 ∧ ([] : List Byte).length + 2 = le16 2 0 ∧ crc16 [2, 0, 1, 2] ≠ le16 0 0 ∧
    le16 1 0 < 2 ∧ 482 < le16 0xE3 1 := by
  refine ⟨by decide, by simp [le16], rfl,
    by rw [test_crc16_short]; simp [le16], by decide, by simp [le16]⟩

/-- A state with one entry in the outbound queue. -/
def sending (e : OutEntry) (h : Option Execution) (s : State) : State := { s with link := { s.link with out := [e], held := h } }

/-- A BENCH notice. -/
def note : OutEntry := .notice { clock := 0, body := .benchMode .service .starting }

theorem witness_SentFrameFreesItsEntry :
    State.reset.inputs.reset = false ∧ State.reset.link.out = [] ∧ (sending note none service).link.out = [note] ∧
    noticeCount (sending note none service) ≠ 48 ∧
    noticeCount { service with link := { service.link with out := List.replicate 48 note } } = 48 ∧
    (sending (.reply ⟨1, 0x8F, .ok .none⟩) (some ⟨req 0x0F [], .restart⟩) service).link.held =
      some ⟨req 0x0F [], .restart⟩ ∧
    (0x81 : Byte) ≠ 0x8F := by
  refine ⟨rfl, rfl, rfl, by decide, by decide, rfl, by decide⟩

/-- A bench whose outbound queue holds a number of notices. -/
def heaped (n : Nat) : State := { service with link := { service.link with out := List.replicate n note } }

/-- R167, R168: the thresholds of 48 and 64, and a mask entry that is off. -/
theorem witness_SentFrameFreesItsEntry_notices :
    noticeCount (heaped 47) = 47 ∧ noticeCount (heaped 48) = 48 ∧ noticeCount (heaped 63) = 63 ∧
    noticeCount (heaped 64) = 64 ∧ service.prof.profile.mask.wall = true ∧
    ({ ({} : Mask) with wall := false } : Mask).wall = false ∧ 4294967295 ≤ 4294967295 ∧ 65534 < 65535 ∧
    (List.replicate 8 ({ ref := 1, qty := 99, done := 99, state := .done } : SummaryEntry)).length ≤ 8 := by
  decide

/-- A request alone in the inbox of a bench whose survey is over may run, in any mode. -/
theorem canRun_asked (m : BenchMode) {row : Instr} {kind : Byte} {body : List Byte} (h : rowOf (req kind body) = row) :
    (asked kind body { service with bench := { mode := m } }).canRun row (req kind body) :=
  ⟨rfl, rfl, rfl, by show 0 < 4; decide, rfl, h⟩

set_option maxRecDepth 20000 in
/-- The kinds of section 11.6, and the bodies too short for their requests. -/
theorem witness_rows_of_requests :
    [rowOf (req 0x15 []), rowOf (req 0x01 []), rowOf (req 0x02 []), rowOf (req 0x03 []), rowOf (req 0x04 []),
      rowOf (req 0x05 []), rowOf (req 0x06 []), rowOf (req 0x07 []), rowOf (req 0x08 []), rowOf (req 0x09 []),
      rowOf (req 0x0A []), rowOf (req 0x0B []), rowOf (req 0x0C []), rowOf (req 0x0D []), rowOf (req 0x0E []),
      rowOf (req 0x0F []), rowOf (req 0x10 []), rowOf (req 0x11 []), rowOf (req 0x12 []), rowOf (req 0x13 []),
      rowOf (req 0x14 []), rowOf (req 0x14 [1, 0]), rowOf (req 0x14 [2, 0, 0, 0]), rowOf (req 0x14 [3, 0, 0, 0])] =
      requestRows := by
  decide

theorem witness_RequestsWaitOrAreTurnedAway :
    Instr.recall ∈ requestRows ∧ (∀ r, ¬ State.reset.canRun .recall r) ∧ refusedInStarting .recall = true ∧
    refusedInStarting .wallAdd = false ∧ (req 0x02 [7, 0, 0]).body.length < 4 := by
  refine ⟨by decide, fun r h => absurd h.2.2.1 (by decide), by decide, by decide, by decide⟩

/-- Section 11.6: the bounds of the catalogue, and the forms of a QUERY. -/
theorem witness_RequestsWaitOrAreTurnedAway_rows :
    (0x01 : Byte).toNat = 1 ∧ (0x13 : Byte).toNat = 19 ∧ 0x14 < (0x15 : Byte).toNat ∧ 0x14 < (0xFF : Byte).toNat ∧
    (0x14 : Byte).toNat < 0x80 ∧ (0x7F : Byte).toNat < 0x80 ∧ replyKind 0x14 = 0x94 ∧
    (∀ f : Byte, f ∈ ([1, 2, 3] : List Byte) → ([0] : List Byte).head? ≠ some f) ∧
    (∀ f : Byte, f ∈ ([1, 2, 3] : List Byte) → ([4] : List Byte).head? ≠ some f) := by
  decide

theorem witness_OfferIsAppendedOrAnswered :
    (asked 0x01 offer32 bench18).canRun .offer (req 0x01 offer32) ∧
    (judgeOffer (popRequest (asked 0x01 offer32 bench18)) offer32).toOption.isSome = true ∧
    (judgeOffer (popRequest (asked 0x01 offer32 service)) offer32).toOption.isSome = false := by
  unfold State.canRun
  decide

/-- An OFFER body of one line. -/
def body1 (tote cls budget used ref qty unit umin umax volume : Nat) : List Byte :=
  bytes32 tote ++ [BitVec.ofNat 8 cls] ++ bytes16 budget ++ bytes16 used ++ [1] ++ bytes32 ref ++ [BitVec.ofNat 8 qty] ++
    bytes16 unit ++ bytes16 umin ++ bytes16 umax ++ [BitVec.ofNat 8 volume]

/-- The checks of R9 in their order, each as section 1.5 words it, for a body whose checks before it hold. -/
def offerChecks (s : State) (bs : List Byte) : List Bool :=
  let n := (byteAt bs 9).toNat
  let ls := (List.range n).map (offerLineAt bs)
  let top := if (byteAt bs 4).toNat = 2 then 1800 else 3600
  let budget := min top (max 60 (u16At bs 5))
  [s.bench.mode == .service, decide (10 ≤ bs.length), decide (1 ≤ n ∧ n ≤ 8), decide (10 + 12 * n ≤ bs.length),
    u32At bs 0 != 0, ls.all fun l => l.ref != 0, decide ((byteAt bs 4).toNat ≤ 2),
    ls.all fun l => decide (1 ≤ l.qty ∧ l.qty ≤ 99),
    ls.all fun l => decide (l.unit ≤ 30000 ∧ l.umin ≤ l.umax ∧ l.umax ≤ 30000 ∧ (l.umin = 0 → l.umax = 0)),
    ls.all fun l => decide (l.volume ≤ 250), s.offers.all fun o => o.tote != u32At bs 0,
    (byteAt bs 4 == 0) || decide (u16At bs 7 < budget), decide (s.offers.length < 32),
    ls.any fun l => ordIndices.any fun q => s.wall.pos[q].record.any (fun r => r.ref == l.ref) && s.wall.pos[q].state.holds]

/-- What answers a body that fails a check. -/
def refusal (s : State) (bs : List Byte) : Option ReplyBody :=
  match judgeOffer s bs with
  | .error b => some b
  | .ok _ => none

/-- The table of R9, row by row, at the bounds: how many checks a body passes, and its reply. -/
theorem witness_AcceptedOfferPassedEveryCheck :
    let full : State := { bench18 with offers := List.replicate 32 (ambient 9 []) }
    let twice : State := { bench18 with offers := [ambient 3 []] }
    ([(State.reset, body1 3 0 0 0 5101 1 0 0 0 0, 0, some (.wait .mode)), (bench18, (body1 3 0 0 0 5101 1 0 0 0 0).take 9, 1,
        some (.reject (.format none))),
      (bench18, bytes32 3 ++ [0, 0, 0, 0, 0, 0], 2, some (.reject .lines)),
      (bench18, bytes32 3 ++ [0, 0, 0, 0, 0, 9], 2, some (.reject .lines)),
      (bench18, (body1 3 0 0 0 5101 1 0 0 0 0).take 21, 3, some (.reject (.format none))),
      (bench18, body1 0 0 0 0 5101 1 0 0 0 0, 4, some (.reject (.format none))),
      (bench18, body1 3 0 0 0 0 1 0 0 0 0, 5, some (.reject (.format (some 0)))),
      (bench18, body1 3 3 0 0 5101 1 0 0 0 0, 6, some (.reject .cls)),
      (bench18, body1 3 0 0 0 5101 100 0 0 0 0, 7, some (.reject (.quantity 0))),
      (bench18, body1 3 0 0 0 5101 0 0 0 0 0, 7, some (.reject (.quantity 0))),
      (bench18, body1 3 0 0 0 5101 99 30001 0 0 0, 8, some (.reject (.bounds 0))),
      (bench18, body1 3 0 0 0 5101 99 30000 2 1 0, 8, some (.reject (.bounds 0))),
      (bench18, body1 3 0 0 0 5101 99 0 30000 30000 251, 9, some (.reject (.volume 0))),
      (twice, body1 3 0 0 0 5101 99 0 0 0 250, 10, some (.reject .duplicate)),
      (bench18, body1 3 1 60 60 5101 1 0 0 0 0, 11, some (.reject .exposed)), 
      (full, body1 3 1 60 59 5101 1 0 0 0 0, 12, some (.wait .full)),
      (bench18, body1 3 0 0 0 5102 1 0 0 0 0, 13, some (.wait .noOrder)), (bench18, body1 3 2 60 59 5101 1 0 0 0 0, 14, none),
      (bench18, offer32, 14, none)] : List (State × List Byte × Nat × Option ReplyBody)).all (fun x =>
        ((offerChecks x.1 x.2.1).takeWhile id).length == x.2.2.1 && refusal x.1 x.2.1 == x.2.2.2) = true := by
  decide

/-- A state with offer 7 in a given state and place, and a RECALL for it. -/
def recalling (st : OfferState) (pl : Option (Fin 4 × Slot)) : State :=
  asked 0x02 [7, 0, 0, 0] { service with offers := [{ ambient 7 [] with state := st, place := pl }] }

theorem witness_RecallActsByOfferState :
    findOffer 7 service = none ∧ readId [7, 0, 0, 0] = some 7 ∧
    (∀ x ∈ [(OfferState.waiting, (none : Option (Fin 4 × Slot))), (.called, some (3, .lane)), (.staged, some (0, .lane)),
      (.staged, some (0, .face)), (.present, some (0, .face)), (.leaving, some (0, .face))],
      (recalling x.1 x.2).canRun .recall (req 0x02 [7, 0, 0, 0]) ∧ (recalling x.1 x.2).bench.mode ≠ .starting ∧
      (findOffer 7 (recalling x.1 x.2)).isSome = true) ∧
    lit.put.cycle = some cycle ∧ cycle.src = 0 := by
  simp only [State.canRun]
  decide

/-- A WALL-ADD body: position, order ref 5, tote 9, urgent clear. -/
def addBody (q : Byte) : List Byte := [q, 5, 0, 0, 0, 9, 0, 0, 0, 0]

/-- Order positions in states a registration meets: EMPTY at OP0, a tote found at OP1, its weight known or not. -/
def found (g : Option Gross) : State := withOrd 1 { state := .occupied, idRead := some 9, latest := g } service

theorem witness_WallAddRegistersOrAnswers :
    (asked 0x03 (addBody 0) service).canRun .wallAdd (req 0x03 (addBody 0)) ∧
    ((readWallAdd 4 (addBody 0)).map fun f => (judgeWallAdd f service).toOption) = some (some 0) ∧
    ((readWallAdd 4 (addBody 12)).map fun f => (judgeWallAdd f service).toOption) = some none ∧
    ((readWallAdd 4 (addBody 1)).map fun f => (judgeWallAdd f (found (some (.grams 60000)))).toOption) = some (some 1) ∧
    ((readWallAdd 4 (addBody 1)).map fun f => (judgeWallAdd f (found (some .overload))).toOption) = some (some 1) := by
  unfold State.canRun
  decide

/-- The checks of R64 that follow the one on the position index, in their order. -/
def wallChecks (f : WallAddFields) (q : Fin 12) (s : State) : List Bool :=
  let x := s.wall.pos[q]
  [f.ref != 0 && f.tote != 0, f.windows.all fun w => decide (w.side ≤ 1 ∧ w.invert ≤ 1),
    x.state != .closed && x.state != .faulted && decide (f.pos < s.prof.profile.orderCount),
    x.state == .empty || x.state == .occupied, (allRecords s).all fun r => r.tote != f.tote,
    decide ((allRecords s).countP (fun r => r.ref == f.ref) ≤ 1), x.state != .occupied || x.idRead == some f.tote]

/-- The reply to a WALL-ADD that fails a check. -/
def wallRefusal (f : WallAddFields) (s : State) : Option ReplyBody :=
  match judgeWallAdd f s with
  | .error b => some b
  | .ok _ => none

/-- The table of R64, row by row: how many checks pass, and the reply. Position 8 is kept above an order count of 8. -/
theorem witness_RegisteredToteIsNewAndPlaced :
    let two := withOrd 2 (active (record 5 10)) (withOrd 3 (active (record 5 11)) service)
    ([(⟨0, 0, 9, 0, [], []⟩, 0, service, 0, some .format), (⟨0, 5, 9, 0, [⟨2, 1, 0⟩], []⟩, 0, service, 1, some .range),
      (⟨8, 5, 9, 0, [], []⟩, 8, service, 2, some (.reject .position)),
      (⟨0, 5, 9, 0, [], []⟩, 0, withOrd 0 {} service, 2, some (.reject .position)),
      (⟨0, 5, 9, 0, [⟨1, 6, 1⟩], []⟩, 0, withOrd 0 (active (record 5 10)) service, 3, some .busy),
      (⟨7, 5, 9, 0, [], []⟩, 7, withOrd 2 (active (record 5 9)) service, 4, some (.reject .duplicate)),
      (⟨7, 5, 9, 0, [], []⟩, 7, two, 5, some (.reject .limit)),
      (⟨1, 5, 8, 0, [], []⟩, 1, found none, 6, some (.reject .mismatch)), (⟨1, 5, 9, 0, [], []⟩, 1, found none, 7, none),
      (⟨7, 5, 9, 0, [], []⟩, 7, service, 7, none)] :
        List (WallAddFields × Fin 12 × State × Nat × Option ReplyBody)).all (fun x =>
      x.1.pos == x.2.1.val && ((wallChecks x.1 x.2.1 x.2.2.1).takeWhile id).length == x.2.2.2.1 &&
        wallRefusal x.1 x.2.2.1 == x.2.2.2.2) = true ∧
    wallRefusal ⟨12, 5, 9, 0, [], []⟩ service = some .range := by
  decide

theorem witness_WallUrgeSetsEveryRecord :
    readUrge [5, 0, 0, 0, 1] = some (5, 1) ∧ allRecords service = [] ∧
    ((allRecords lit).countP fun x => x.ref == 5) = 1 ∧
    (asked 0x04 [5, 0, 0, 0, 1] lit).canRun .wallUrge (req 0x04 [5, 0, 0, 0, 1]) ∧ lit.bench.mode ≠ .starting ∧
    (∀ x ∈ allRecords lit, x.urgent = false) := by
  unfold State.canRun
  decide

/-- One record in a given state at OP0. -/
def holding (st : OrdState) : State := withOrd 0 { state := st, record := some (record 5 9) } service

theorem witness_WallWindowAndWallShut :
    readWindow [0, 2, 1, 255, 1] = some (0, 2, ⟨1, 255, 1⟩) ∧ readShut [11, 3] = some (11, 3) ∧
    (holding .leaving).wall.pos[0].state.holds = false ∧ (holding .expected).wall.pos[0].state.holds = true ∧
    cycleServes 0 .ambient lit = true ∧ cycleServes 0 .frozen lit = false ∧ cycleTargets 0 0 lit = true ∧
    cycleTargets 0 3 lit = false ∧ (record 5 9).comps[3]?.isSome = true ∧ (record 5 9).comps.length ≤ 4 ∧
    (asked 0x05 [0, 2, 1, 255, 1] lit).canRun .wallWindow (req 0x05 [0, 2, 1, 255, 1]) ∧
    (asked 0x06 [11, 3] lit).canRun .wallShut (req 0x06 [11, 3]) ∧ lit.bench.mode ≠ .starting := by
  unfold State.canRun
  decide

theorem witness_WallRebaseSetsBaseline :
    readPos [0] = some 0 ∧ isTarget 0 lit = true ∧ isTarget 0 presented = false ∧
    presented.wall.pos[0].latest = some (.grams 2000) ∧ presented.wall.pos[0].state = .active ∧
    (presented.wall.pos[0].record.any fun x => decide (x.cond = .clean)) = true ∧
    (holding .expected).wall.pos[0].state ≠ .active ∧ (holding .active).wall.pos[0].latest = none ∧
    (asked 0x07 [0] presented).canRun .wallRebase (req 0x07 [0]) ∧ presented.bench.mode ≠ .starting := by
  unfold State.canRun
  decide

theorem witness_WallReleaseActsByState :
    readPos [11] = some 11 ∧ (asked 0x08 [0] lit).canRun .wallRelease (req 0x08 [0]) ∧
    (∀ st ∈ [OrdState.closed, .faulted, .empty, .leaving, .settling, .expected, .occupied, .arrived, .active],
      (holding st).wall.pos[0].state = st) ∧ isTarget 0 lit = true ∧ isTarget 0 presented = false := by
  unfold State.canRun
  decide

theorem witness_SourcePositionsOpenAndClose :
    service.prof.profile.sourceCount = 4 ∧ readPos [3] = some 3 ∧ readPos [4] = some 4 ∧
    (asked 0x0A [3] service).canRun .posClose (req 0x0A [3]) ∧ (asked 0x09 [3] service).canRun .posOpen (req 0x09 [3]) ∧
    service.src[3].state = .opn ∧ service.src[3].face.state = .empty ∧ service.src[3].lane.state = .empty ∧
    presented.src[0].state = .opn ∧ presented.src[0].face.state ≠ .empty ∧
    (∀ st ∈ [SrcState.closing, .closed, .faulted], (withSrc 0 { state := st } service).src[0].state = st) := by
  unfold State.canRun
  decide

theorem witness_OrderPositionsOpenAndClose :
    service.prof.profile.orderCount = 8 ∧ readPos [7] = some 7 ∧ readPos [8] = some 8 ∧
    (asked 0x0B [7] service).canRun .posOpenOrder (req 0x0B [7]) ∧
    (asked 0x0C [7] service).canRun .posCloseOrder (req 0x0C [7]) ∧ service.wall.pos[7].state = .empty ∧
    (holding .faulted).wall.pos[0].state = .faulted ∧ (holding .faulted).wall.pos[0].record.isSome = true ∧
    (withOrd 0 { state := .faulted } service).wall.pos[0].record = none ∧ lit.wall.pos[0].state = .active := by
  unfold State.canRun
  decide

theorem witness_BenchModeRequests :
    (asked 0x0D [] service).canRun .benchStart (req 0x0D []) ∧ service.bench.mode = .service ∧
    (asked 0x0D [] { service with bench := { mode := .drained } }).canRun .benchStart (req 0x0D []) ∧
    (∀ p : Fin 4, State.reset.src[p].state ≠ .opn) ∧ (∃ p : Fin 4, service.src[p].state = .opn) ∧
    (asked 0x0E [] service).canRun .benchDrain (req 0x0E []) ∧
    (∃ p : Fin 4, presented.src[p].face.state ≠ .empty) ∧
    (∀ p : Fin 4, service.src[p].face.state = .empty ∧ service.src[p].lane.state = .empty) ∧
    (asked 0x0F [] service).canRun .restart (req 0x0F []) := by
  unfold State.canRun
  decide

theorem witness_ProfileSetChecksThenSets :
    readProfileSet [7, 1, 0] = some (some .ta, [1, 0]) ∧ readProfileSet [26] = none ∧
    readProfileSet [26, 0] = some (none, [0]) ∧
    (asked 0x10 [7, 1, 0] service).canRun .profileSet (req 0x10 [7, 1, 0]) ∧ service.prof.storing = false ∧
    lockDenies .keyed false = true ∧ lockDenies .opn false = false ∧ ProfileField.drained .ta = false ∧
    ProfileField.drained .lapseLimit = true ∧ ProfileField.range .ta = some (2, 500) ∧
    (ProfileField.store .ta [1, 0] {}).isSome = true ∧ ProfileField.store .lock [2] {} = none := by
  unfold State.canRun
  decide

/-- R147: the values an enumerated field takes, and those it refuses. -/
theorem witness_ProfileSetChecksThenSets_enumerated :
    ([2, 0, 1, 1] : List Byte).length = 4 ∧ (∃ b ∈ ([2, 0, 1, 1] : List Byte), b ≠ 0 ∧ b ≠ 1) ∧
    (∀ b ∈ ([1, 0, 1, 1] : List Byte), b = 0 ∨ b = 1) ∧
    ([3, 2, 1, 0] : List Byte).map classOf = [ReqClass.ambient, .cold, .expedite, .ret].map some ∧
    [ReqClass.ambient, .cold, .expedite, .ret].Perm [.ret, .expedite, .cold, .ambient] ∧
    ([3, 2, 1, 1] : List Byte).map classOf = [ReqClass.ambient, .cold, .expedite, .expedite].map some ∧
    ¬ [ReqClass.ambient, .cold, .expedite, .expedite].Perm [.ret, .expedite, .cold, .ambient] ∧
    (2 : Byte) ≠ 0 ∧ (2 : Byte) ≠ 1 ∧ (2 : Byte) ≠ 3 := by
  decide

/-- The positions that a lowering of a count reaches: the counts of the running profile, and the old ones. -/
theorem witness_ProfileSetChecksThenSets_handedOver :
    let s : State := { lit with prof := { lit.prof with profile := { lit.prof.profile with sourceCount := 2, orderCount := 2 } } }
    let old : Profile := {}
    s.prof.profile.sourceCount ≤ (2 : Fin 4).val ∧ (3 : Fin 4).val < old.sourceCount ∧
    (1 : Fin 4).val < s.prof.profile.sourceCount ∧ s.src[2].state = .opn ∧ s.src[2].face.state = .empty ∧
    s.src[0].face.state ≠ .empty ∧ s.prof.profile.orderCount < old.orderCount ∧
    s.prof.profile.orderCount ≤ (2 : Fin 12).val ∧ s.wall.pos[2].state = .empty ∧ old.sourceCount ≤ 4 ∧
    (∀ f ∈ [ProfileField.ladder, .rotate, .compartments, .warningMargin, .ta, .laneDepth, .sourceCount, .orderCount],
      f ∈ profileFields) := by
  decide

theorem witness_LocksAndTheStoredImage :
    (asked 0x12 [] service).canRun .profileStore (req 0x12 []) ∧ (asked 0x13 [] service).canRun .lockShift (req 0x13 []) ∧
    service.prof.storing = false ∧ lockDenies service.prof.effLock service.inputs.key = false ∧
    lockDenies .fixed true = true ∧ service.inputs.reset = false ∧
    ({ service with prof := { service.prof with storing := true } } : State).prof.storing = true := by
  unfold State.canRun
  decide

theorem witness_QueriesAndProfileGetReport :
    (asked 0x14 [0] service).canRun .queryBench (req 0x14 [0]) ∧
    (asked 0x14 [1, 1, 11] service).canRun .queryPosition (req 0x14 [1, 1, 11]) ∧
    (asked 0x14 [2, 7, 0, 0, 0] lit).canRun .queryOffer (req 0x14 [2, 7, 0, 0, 0]) ∧
    (asked 0x14 [3, 5, 0, 0, 0] lit).canRun .queryOrder (req 0x14 [3, 5, 0, 0, 0]) ∧
    readId [7, 0, 0, 0] = some 7 ∧ (findOffer 7 lit).isSome = true ∧ findOffer 7 service = none ∧
    (lit.wall.pos[0].record.any fun x => x.ref == 5) = true ∧ (∀ q : Fin 12, service.wall.pos[q].record = none) ∧
    profileFields[25]? = some .lock ∧ (asked 0x11 [25] service).canRun .profileGet (req 0x11 [25]) := by
  unfold State.canRun
  decide

theorem witness_HoldAndKeyInputs :
    service.inputs.reset = false ∧ service.picker.cond ≠ .held ∧ lit.picker.cond ≠ .held ∧ lit.put.cycle.isSome = true ∧
    ({ service with picker := { cond := .held } } : State).picker.cond = .held ∧
    (let s := withOrd 3 (active { record 6 11 with misput := true }) { lit with picker := { cond := .held } }
     s.picker.cond = .held ∧ s.wall.pos[3].state = .active ∧
      (s.wall.pos[3].record.any fun x => x.misput) = true ∧ (s.wall.pos[0].record.any fun x => x.misput) = false) := by
  decide

/-- SP0 with a given face and lane. -/
def slots (f : Face) (l : Lane) : State := withSrc 0 { state := .opn, face := f, lane := l } service

theorem witness_SourceArrivalsByTheAwaitingSlot :
    takesReports (.src 0) service = true ∧ takesReports (.src 0) State.reset = false ∧ validId (some 0) = false ∧
    (slots { state := .called, offer := some 7 } {}).src[0].face.held = none ∧
    (slots { state := .advancing, offer := some 7, held := some .exposed } {}).src[0].face.held = some .exposed ∧
    takesReports (.src 0) lit = true ∧ lit.src[0].face.state = .present ∧ lit.src[0].face.offer = some 7 ∧
    (slots {} { state := .called, offer := some 7 }).src[0].lane.state = .called ∧
    (slots { state := .called, offer := some 7 } {}).src[0].depth = 1 ∧ staged.src[0].lane.state = .staged ∧
    staged.src[0].lane.offer = some 8 := by
  decide

theorem witness_SourceSlotsEmpty :
    takesReports (.src 0) (slots { state := .leaving, offer := some 7 } { state := .leaving }) = true ∧
    (slots { state := .settling, settleT := some 0 } { state := .staged, offer := some 7 }).src[0].face.settleT = some 0 ∧
    (slots { state := .settling, settleT := some 0 } { state := .called, callT := some 1 }).src[0].lane.callT = some (0 + 1) ∧
    (slots { state := .settling, settleT := some 0 } { state := .called, offer := some 7, callT := some 0 }).src[0].lane.callT =
      some 0 ∧
    (slots { state := .settling, settleT := some 0 } { state := .leaving }).src[0].lane.state = .leaving ∧
    ({ ambient 7 [] with reason := some .idleRescue } : Offer).reason = some .idleRescue ∧
    (slots { state := .settling, settleT := some 0 } {}).src[0].lane.state = .empty ∧
    (slots { state := .called, offer := some 7, callT := some 0 } {}).src[0].callTimer .face = some 0 ∧
    (slots { state := .called, offer := some 7, callT := some 0 } {}).src[0].named .face = some 7 ∧
    (findOffer 7 lit).isSome = true ∧ 0 + 1 < lit.prof.profile.lapseLimit ∧ lit.prof.profile.lapseLimit ≤ 1 + 1 := by
  decide

/-- R39, R42, R139: a CLOSING position with both slots EMPTY, one with a face not EMPTY, and the drain. -/
theorem witness_SourceSlotsEmpty_settled :
    (let s : State := withSrc 0 { state := .closing } { service with bench := { mode := .draining } }
     s.src[0].state = .closing ∧ s.src[0].face.state = .empty ∧ s.src[0].lane.state = .empty ∧
      (∀ p : Fin 4, s.src[p].face.state = .empty ∧ s.src[p].lane.state = .empty) ∧
      (slotSettled 0 s).src[0].state = .closed ∧ (slotSettled 0 s).bench.mode = .drained ∧
      (slotSettled 0 s).link.out.length = 2) ∧
    (withSrc 0 { state := .closing, face := { state := .settling } } service).src[0].face.state ≠ .empty ∧
    (slots {} { state := .leaving }).src[0].lane.state ≠ .empty ∧ service.bench.mode ≠ .draining := by
  decide

theorem witness_FaultsDropThePosition :
    presented.src[0].state = .opn ∧ presented.put.cycle = none ∧ presented.src[0].face.offer = some 7 ∧
    (withSrc 0 { state := .closing } service).src[0].state = .closing ∧
    service.src[0].state ≠ .faulted ∧ service.src[0].surveyT = none ∧ service.wall.pos[0].state ≠ .faulted ∧
    service.wall.pos[0].surveyT = none ∧ (slots { state := .leaving, leaveT := some 0 } {}).src[0].leaveTimer .face = some 0 ∧
    (withOrd 0 { state := .leaving, leaveT := some 0 } service).wall.pos[0].leaveT = some 0 ∧
    isFaulted (.ord 0) (holding .faulted) = true ∧ inSurvey (.ord 0) (holding .faulted) = false ∧
    inSurvey (.src 0) State.reset = true ∧ State.reset.bench.surveying = true := by
  decide

/-- Offer 7 with no exposure left, in a given state and place, behind the slots of SP0. -/
def expired (st : OfferState) (sl : Slot) (s : State) : State :=
  { s with offers := [{ cold .frozen 7 600 60 5 with state := st, place := some (0, sl) }] }

theorem witness_ExposureEvents :
    ((findOffer 7 (expired .present .face lit)).map fun o => o.exposure.map Exposure.remaining) = some (some 0) ∧
    (expired .present .face presented).put.cycle = none ∧ lit.put.cycle = some cycle ∧ cycle.grace = false ∧
    (expired .present .face lit).src[0].face.state = .present ∧ 0 < lit.prof.profile.putGrace ∧
    (expired .staged .lane staged).src[0].lane.state = .staged ∧
    (slots { state := .advancing, offer := some 7 } {}).src[0].face.state = .advancing ∧
    ({ lit with put := { lit.put with cycle := some { cycle with grace := true }, graceT := some 0 } } : State).put.graceT =
      some 0 := by
  decide

/-- R126: at the rescue margin, and one tenth above it. -/
theorem witness_OrphanAndIdleExpiries :
    (slots { state := .present, offer := some 7, orphanT := some 0 } {}).src[0].face.orphanT = some 0 ∧
    ({ lit with picker := { idleT := some 0 } } : State).picker.idleT = some 0 ∧ isLitSource 0 lit = true ∧
    isLitSource 0 presented = false ∧ lit.src[0].face.state = .present ∧ lit.picker.idleT ≠ some 0 ∧
    (let m := lit.prof.profile.rescueMargin
     0 < m ∧ ({ budget := m, used := 0 } : Exposure).remaining ≤ m * 10 ∧
      ¬ ({ budget := m + 1, used := 9 } : Exposure).remaining ≤ m * 10) ∧
    ((findOffer 7 presented).bind fun o => o.place) = some (0, .face) ∧ staged.src[0].lane.offer = some 8 ∧
    ((findOffer 8 staged).bind fun o => o.place) = some (0, .lane) ∧ staged.src[0].lane.state = .staged ∧
    (slots { state := .advancing, offer := some 7 } {}).src[0].face.state = .advancing ∧
    service.src[0].face.offer = none ∧ service.src[0].face.state ≠ .present ∧ service.src[0].lane.state ≠ .staged := by
  decide

theorem witness_OrderPositionReports :
    (∀ st ∈ [OrdState.expected, .empty, .settling, .arrived, .active, .leaving, .occupied, .closed],
      takesReports (.ord 0) (holding st) = true ∧ (holding st).wall.pos[0].state = st) ∧ validId (some 9) = true ∧
    validId (some 4294967295) = true ∧ (record 5 9).tote = 9 ∧
    (withOrd 7 { state := .settling, settleT := some 0 } service).wall.pos[7].settleT = some 0 ∧
    7 < service.prof.profile.orderCount ∧ service.prof.profile.orderCount ≤ 8 := by
  decide

theorem witness_StableWeightsActByOwner :
    takesReports (.ord 0) lit = true ∧ validGross (.grams 60000) = true ∧ validGross (.grams 60001) = false ∧
    lit.wall.pos[0].state = .active ∧ lit.put.cycle = some cycle ∧ cycle.tgt = 0 ∧ cycle.mode = .weigh ∧
    (cycleLine cycle lit).isSome = true ∧ lit.wall.pos[0].record.isSome = true ∧ presented.put.cycle = none ∧
    disturbanceOf (.grams 2015) 2000 15 = none ∧ disturbanceOf (.grams 2016) 2000 15 = some .above ∧
    disturbanceOf (.grams 1985) 2000 15 = none ∧ disturbanceOf (.grams 1984) 2000 15 = some .below ∧
    (holding .arrived).wall.pos[0].state = .arrived := by
  decide

theorem witness_StableWeightsActByOwner_records :
    cycleLine cycle service = none ∧ cycleLine cycle lit = some (line 5 3) ∧ lit.wall.pos[0].record = some (record 5 9) ∧
    lit.put.cycle.isSome = true ∧ lit.picker.cond ≠ .held ∧ presented.put.cycle.isSome = false ∧
    ({ lit with picker := { cond := .held } } : State).picker.cond = .held ∧ lit.wall.pos[0].removeLight = false ∧
    (withOrd 0 { active (record 5 9) with removeLight := true } lit).wall.pos[0].removeLight = true := by
  decide

theorem witness_PickerKeys :
    takesReports (.src 0) lit = true ∧ takesReports (.ord 0) lit = true ∧ cycle.src = 0 ∧ cycle.tgt = 0 ∧ cycle.comp = 0 ∧
    ({ cycle with mode := .press, acc := 1 } : Cycle).acc + 1 < cycle.n ∧
    cycle.n ≤ ({ cycle with mode := .press, acc := 2 } : Cycle).acc + 1 ∧ lit.picker.cond = .active ∧
    isActivity (active (record 5 9)) (.grams 2015) 15 = false ∧ isActivity (active (record 5 9)) (.grams 2016) 15 = true ∧
    isActivity (active (record 5 9)) (.grams 1985) 15 = false ∧ isActivity (active (record 5 9)) (.grams 1984) 15 = true := by
  decide

/-- R85, R86: a change of the count changes both displays; between REMOVE and CHECK the source display stays dark. -/
theorem witness_PickerKeys_lights :
    lit.picker.cond ≠ .held ∧ ({ lit with picker := { cond := .held } } : State).picker.cond = .held ∧
    (let orders := fun (a b : Cycle) => (updateCycle a b lit).lines.toList.map fun l => l.orders.map fun o => o.order
     (orders cycle { cycle with acc := 1 })[0]? = some [.light .source (.count 2)] ∧
      (orders cycle { cycle with acc := 1 })[4]? = some [.light (.comp 0) (.count 2)] ∧
      (orders { cycle with state := .remove 2 } { cycle with state := .check })[0]? = some [] ∧
      (orders { cycle with state := .remove 2 } { cycle with state := .check })[4]? = some [.light (.comp 0) .check]) := by
  decide

/-- A line whose put list has an entry for the target of `cycle`, behind one for another compartment. -/
def putLine : OLine := { line 5 3 with puts := [⟨9, 1, 1⟩, ⟨9, 0, 1⟩] }

theorem witness_CycleEndWritesTheLine :
    lit.offersOk ∧ (findOffer 7 lit).any (fun o => decide (o.state = .present ∧ o.lines[0]? = some (line 5 3))) = true ∧
    (∀ e ∈ (line 5 3).puts, ¬ (e.tote = cycle.tgtTote ∧ e.comp = cycle.comp)) ∧ cycle.acc = 0 ∧
    ({ cycle with acc := 3 } : Cycle).acc ≠ 0 ∧ putLine.puts = [⟨9, 1, 1⟩] ++ ⟨9, 0, 1⟩ :: [] ∧
    (∀ e ∈ ([⟨9, 1, 1⟩] : List PutEntry), ¬ (e.tote = cycle.tgtTote ∧ e.comp = cycle.comp)) ∧
    lit.prof.profile.mask.line = true ∧ noticeCount lit < 48 ∧ (line 5 3).done + 3 = (line 5 3).qty := by
  unfold State.offersOk
  decide

theorem witness_CycleEndWritesTheLine_settlement :
    lit.wall.pos[cycle.tgt].record = some (record 5 9) ∧ lit.wall.pos[cycle.tgt].latest = some (.grams 2000) ∧
    cycle.mode = .weigh ∧ ({ cycle with mode := .press } : Cycle).mode = .press ∧
    disturbanceOf (.grams 2000) ((record 5 9).baseline.getD 0) 15 = none ∧
    disturbanceOf (.grams 2016) ((record 5 9).baseline.getD 0) 15 = some .above ∧
    (none : Option Pos) ≠ some (.ord cycle.tgt) ∧ some (Pos.src 0) ≠ some (.ord cycle.tgt) ∧
    presented.put.cycle = none ∧ presented.src[0].face.state = .present ∧ presented.src[0].face.offer = some 7 ∧
    ((findOffer 7 presented).bind fun o => o.place) = some (cycle.src, .face) ∧ cycle.grace = false ∧
    ({ cycle with grace := true } : Cycle).grace = true ∧ ((findOffer 7 presented).map Offer.hasOpen) = some true ∧
    ({ ambient 7 [{ line 5 3 with state := .short }] with state := .present } : Offer).hasOpen = false := by
  decide

/-- R85, R86, R98: the dark orders at the end of a cycle, at a cancellation by a fault of the source, and under HOLD. -/
theorem witness_CycleEndWritesTheLine_lights :
    let orders := fun s : State => s.lines.toList.map fun l => l.orders.map fun o => o.order
    let held : State := { lit with picker := { cond := .held } }
    lit.picker.cond ≠ .held ∧ held.picker.cond = .held ∧
    (orders (cancelCycle cycle none lit)).take 5 = [[.light .source .dark], [], [], [], [.light (.comp 0) .dark]] ∧
    (orders (cancelCycle cycle (some (.src 0)) lit)).take 5 = [[], [], [], [], [.light (.comp 0) .dark]] ∧
    (orders (cancelCycle cycle (some (.ord 0)) lit)).take 5 = [[.light .source .dark], [], [], [], []] ∧
    (orders (cancelCycle cycle none held)).take 5 = [[], [], [], [], []] := by
  decide

/-- A source line with one order outstanding and its timer at 0. -/
def failing (o : FieldOrder) (s : State) : State := modLine 0 (fun _ => { orders := [o], ackT := some 0 }) s

/-- A record held at a FAULTED position in its survey. -/
def recovering : State :=
  withOrd 0 { state := .faulted, record := some (record 5 9), former := some .active, surveyT := some 0 } service

theorem witness_SurveysEnd :
    inSurvey (.src 0) State.reset = true ∧ validAnswer (.source (some none) (some (some 1))) = true ∧
    State.reset.src[0].depth ≠ 0 ∧ inSurvey (.ord 0) State.reset = true ∧ validAnswer (.order none (.grams 60000)) = true ∧
    State.reset.wall.pos[0].record = none ∧
    inSurvey (.ord 0) recovering = true ∧ recovering.wall.pos[0].surveyT = some 0 ∧
    recovering.wall.pos[0].record.isSome = true ∧
    (withSrc 0 { surveyT := some 0, depth := 0 } service).src[0].surveyT = some 0 ∧
    inSurvey (.src 0) service = false ∧
    (let s : State := { recovering with link := { recovering.link with held := some ⟨req 0x0B [0], .openOrder 0⟩ } }
     s.link.held = some ⟨req 0x0B [0], .openOrder 0⟩ ∧ (HeldJob.openOrder 0).waitsFor (.ord 0) = true ∧
      surveyTimer (.ord 0) s = some 0 ∧ inSurvey (.ord 0) s = true ∧ s.bench.surveying = false ∧
      judgeAnswer (.ord 0) (.source none none) s = .failed .kind ∧ validAnswer (.source none none) = true) ∧
    (withSrc 0 { surveyT := some 0, depth := 0 } service).src[0].depth = 0 := by
  decide

/-- The whole of a survey's end: POS-OPEN in the mode DRAINED that finds totes, an order position by each row of R162, and
the last survey of the start-up. -/
theorem witness_SurveysEnd_ends :
    (let s : State := withSrc 0 { state := .closed, surveyT := some 0 } { service with bench := { mode := .drained } }
     inSurvey (.src 0) s = true ∧ s.src[0].surveyT = some 0 ∧ s.bench.surveying = false ∧ s.src[0].depth ≠ 0 ∧
      validAnswer (.source (some none) (some (some 1))) = true ∧
      (match exec (.surveyAnswer (.src 0) (.source (some none) (some (some 1)))) s with
        | .next t => some (t.bench.mode, t.link.out.length)
        | _ => none) = some (.draining, 4)) ∧
    (let s := failing { seq := 0, order := .survey } (withSrc 0 { state := .closed, surveyT := some 9 } service)
     inSurvey (.src 0) s = true ∧ s.lines[lineOf (.src 0)].orders ≠ [] ∧ s.lines[lineOf (.src 0)].ackT = some 0) ∧
    validAnswer (.order (some none) (.grams 1)) = true ∧ validAnswer (.order (some (some 9)) .overload) = true ∧
    (record 5 9).tote = 9 ∧ (none : Option Nat) ≠ some 9 ∧ recovering.wall.pos[0].record = some (record 5 9) ∧
    recovering.wall.pos[0].former = some .active ∧
    (withOrd 0 { state := .faulted, record := some (record 5 9), former := some .expected, surveyT := some 9 }
      service).wall.pos[0].former ≠ some .active ∧
    disturbanceOf (.grams 2015) 2000 15 = none ∧ disturbanceOf (.grams 2016) 2000 15 ≠ none ∧
    (let v : State := { service with bench := { mode := .starting, surveying := true } }
     v.bench.surveying = true ∧ (∀ p : Fin 4, v.src[p].surveyT = none) ∧ (∀ q : Fin 12, v.wall.pos[q].surveyT = none) ∧
      (finishStartup v).bench.surveying = false) ∧
    State.reset.bench.surveying = true ∧ State.reset.src[0].surveyT ≠ none := by
  decide

theorem witness_AcksAndLineFailures_orders :
    isFaulted (.src 0) service = false ∧ isFaulted (.ord 0) (holding .faulted) = true ∧ Order.gate .exit ≠ .survey ∧
    ({} : FieldLine).orders = [] ∧ ({ orders := [{ seq := 4, order := .survey }] } : FieldLine).orders =
      { seq := 4, order := .survey } :: [] ∧
    ({ nextSeq := 254 } : FieldLine).nextSeq < 255 ∧ ({ nextSeq := 255 } : FieldLine).nextSeq = 255 ∧
    lineOf (.src 0) = lineOf (.src 0) := by
  decide

theorem witness_AcksAndLineFailures :
    (failing { seq := 255, order := .survey } State.reset).lines[lineOf (.src 0)].ackT = some 0 ∧
    inSurvey (.src 0) (failing { seq := 255, order := .survey } State.reset) = true ∧
    inSurvey (.src 0) (failing { seq := 0, order := .light .source .dark, startDark := true } service) = false ∧
    isFaulted (.src 0) (failing { seq := 0, order := .gate .faceExit } service) = false ∧
    State.reset.lines[lineOf (.src 0)].orders = [{ seq := 0, order := .survey }] := by
  decide

end Sys2Proof.Tests
end

namespace Sys2Proof.Machine

/-!
The weight verifier (chapter 06): what the inferred count, the tolerance and the classification are, each said once, and
the statements on R105 to R110 assembled from that.
-/

/-! ## The inferred count (R105, R106) -/

/-- Rounding to the nearest without the division: `nearest d u` is the greatest count `k` whose weight `k × u` exceeds
`d` by half a unit at most. -/
theorem le_nearest_iff {d u k : Nat} (hu : 0 < u) : k ≤ nearest d u ↔ 2 * (k * u) ≤ 2 * d + u := by
  rw [nearest, Nat.le_div_iff_mul_le (by omega), Nat.mul_left_comm]

theorem two_mul_nearest_mul_le {d u : Nat} (hu : 0 < u) : 2 * (nearest d u * u) ≤ 2 * d + u :=
  (le_nearest_iff hu).mp le_rfl

theorem lt_two_mul_nearest_succ_mul {d u : Nat} (hu : 0 < u) : 2 * d + u < 2 * ((nearest d u + 1) * u) :=
  Nat.lt_of_not_le fun h => Nat.not_succ_le_self _ ((le_nearest_iff hu).mpr h)

/-- The weight of the nearest count and the delta are half a unit apart at most, on either side. -/
theorem nearest_mul_within_half {d u : Nat} (hu : 0 < u) :
    2 * (nearest d u * u - d) ≤ u ∧ 2 * (d - nearest d u * u) ≤ u := by
  have below := two_mul_nearest_mul_le (d := d) hu
  have above := lt_two_mul_nearest_succ_mul (d := d) hu
  rw [Nat.add_one_mul (nearest d u)] at above
  omega

theorem nearest_eq_zero_iff {d u : Nat} (hu : 0 < u) : nearest d u = 0 ↔ 2 * d < u := by
  have one_le := le_nearest_iff (d := d) (k := 1) hu
  omega

/-- A unit weighs a gram at least, so a count is never above the delta in grams. -/
theorem nearest_le_delta (d u : Nat) : nearest d u ≤ d := by
  rcases Nat.eq_zero_or_pos u with rfl | hu
  · simp [nearest]
  · by_contra above
    have next_fits : 2 * ((d + 1) * u) ≤ 2 * d + u := (le_nearest_iff hu).mp (by omega)
    have delta_le : d ≤ d * u := Nat.le_mul_of_pos_right d hu
    rw [Nat.add_one_mul d] at next_fits
    omega

@[simp] theorem inferred_fixed (d u : Nat) : (Basis.fixed u).inferred d = nearest d u := rfl

@[simp] theorem inferred_variable (d umin umax : Nat) :
    (Basis.variable umin umax).inferred d = nearest d ((umin + umax) / 2) := rfl

theorem inferred_le_delta (b : Basis) (d : Nat) : b.inferred d ≤ d := by
  rcases b with u | ⟨umin, umax⟩
  · exact nearest_le_delta d u
  · exact nearest_le_delta d ((umin + umax) / 2)

/-- With equal bounds the middle unit weight is that weight. -/
theorem inferred_variable_self (d u : Nat) : (Basis.variable u u).inferred d = (Basis.fixed u).inferred d := by
  have middle : (u + u) / 2 = u := by omega
  rw [inferred_variable, inferred_fixed, middle]

/-! ## The tolerance and the band (R109, R110) -/

theorem within_fixed_iff {d k u ta tp : Nat} :
    (Basis.fixed u).within d k ta tp = true ↔ |(d : Int) - (k * u : Nat)| ≤ tolerance k u ta tp := by
  have no_sign : |(d : Int) - (k * u : Nat)| = ((d - k * u) + (k * u - d) : Nat) := by
    rcases Nat.le_total d (k * u) with h | h
    · rw [abs_of_nonpos (by omega)]; omega
    · rw [abs_of_nonneg (by omega)]; omega
  rw [no_sign, Basis.within, decide_eq_true_iff, Int.ofNat_le]

theorem within_variable_iff {d k umin umax ta tp : Nat} :
    (Basis.variable umin umax).within d k ta tp = true ↔ k * umin ≤ d + ta ∧ d ≤ k * umax + ta := by
  rw [Basis.within, Bool.and_eq_true, decide_eq_true_iff, decide_eq_true_iff]

/-- With Tp = 0 the proportional term is 0. -/
theorem tolerance_zero_right (k u ta : Nat) : tolerance k u ta 0 = ta := by simp [tolerance]

/-- A tolerance of half a unit or more has every nearest count within it: the count is at most half a unit away. -/
theorem within_fixed_nearest {d u ta tp : Nat} (hu : 0 < u) (wide : u / 2 ≤ tolerance (nearest d u) u ta tp) :
    (Basis.fixed u).within d (nearest d u) ta tp = true := by
  have half := nearest_mul_within_half (d := d) hu
  rw [within_fixed_iff, abs_le]
  omega

/-! ## The classification (R107) -/

section
variable {b : Basis} {d r ta tp : Nat}

theorem classify_of_lt (more : r < b.inferred d) : classify b d r ta tp = .over (b.inferred d - r) :=
  if_pos more

theorem classify_of_eq_zero (zero : b.inferred d = 0) : classify b d r ta tp = .ambiguous := by
  simp [classify, zero]

theorem classify_of_not_within (notMore : ¬ r < b.inferred d) (outside : b.within d (b.inferred d) ta tp = false) :
    classify b d r ta tp = .ambiguous := by
  simp [classify, notMore, outside]

/-- A count of 1 to r within its tolerance is a MATCH or a PARTIAL. -/
theorem classify_of_within (notMore : ¬ r < b.inferred d) (pos : b.inferred d ≠ 0)
    (inside : b.within d (b.inferred d) ta tp = true) :
    classify b d r ta tp = if b.inferred d = r then .matched else .part (b.inferred d) := by
  simp [classify, notMore, pos, inside]

/-- OVER is the verdict of the first test alone, with the surplus m = k − r. -/
theorem classify_eq_over_iff {m : Nat} :
    classify b d r ta tp = .over m ↔ r < b.inferred d ∧ m = b.inferred d - r := by
  by_cases more : r < b.inferred d
  · simp [classify_of_lt more, more, eq_comm]
  · simp only [more, false_and, iff_false]
    by_cases pos : b.inferred d = 0
    · simp [classify_of_eq_zero pos]
    · cases inside : b.within d (b.inferred d) ta tp with
      | false => simp [classify_of_not_within more inside]
      | true =>
        rw [classify_of_within more pos inside]
        split <;> simp

theorem classify_ne_ambiguous_of_within (notMore : ¬ r < b.inferred d) (pos : b.inferred d ≠ 0)
    (inside : b.within d (b.inferred d) ta tp = true) : classify b d r ta tp ≠ .ambiguous := by
  rw [classify_of_within notMore pos inside]
  split <;> simp

end

/-! ## The statements -/

/-- Settles O16: every clause on a FIXED line is a case of `le_nearest_iff`. -/
theorem inferredCountIsNearestHalvesUp : Obligations.InferredCountIsNearestHalvesUp := by
  refine ⟨⟨fun d u hu => ?_, by decide, by decide⟩, fun d umin umax hmin hle => ?_, by decide, by decide⟩
  · simp only [inferred_fixed, Nat.mul_assoc]
    exact ⟨rfl, two_mul_nearest_mul_le hu, lt_two_mul_nearest_succ_mul hu, nearest_eq_zero_iff hu,
      nearest_mul_within_half hu⟩
  · refine ⟨rfl, by omega, by omega, by omega, ?_⟩
    rintro rfl
    exact inferred_variable_self d umin

/-- Settles O17: the tests one by one, then the range of m from `classify_eq_over_iff` and `inferred_le_delta`. -/
theorem verdictClassifiesCountInOrder : Obligations.VerdictClassifiesCountInOrder := by
  intro b d r ta tp k
  refine ⟨classify_of_lt, fun _ => classify_of_eq_zero, fun notMore _ => classify_of_not_within notMore,
    fun notMore pos inside eq => ?_, fun notMore pos inside ne => ⟨?_, by omega, by omega⟩, fun m isOver => ?_,
    fun m hd hr isOver => ?_, fun m => ?_⟩
  · rw [classify_of_within notMore pos inside, if_pos eq]
  · rw [classify_of_within notMore pos inside, if_neg ne]
  · obtain ⟨more, rfl⟩ := classify_eq_over_iff.mp isOver
    omega
  · obtain ⟨-, rfl⟩ := classify_eq_over_iff.mp isOver
    have count_le := inferred_le_delta b d
    omega
  · rw [stateAfter]
    congr 1
    split <;> omega

/-- Settles O18: the FIXED line from `within_fixed_nearest`; in the two figures on a VARIABLE line the inferred count is 1
and its band, 135 to 245 g, leaves the delta out. -/
theorem toleranceOfFixedAndVariableLines : Obligations.ToleranceOfFixedAndVariableLines := by
  refine ⟨fun d k u ta tp => ⟨within_fixed_iff, ?_, fun hu eq wide => ?_⟩, fun d k umin umax ta tp => ?_,
    fun r tp hr => ?_⟩
  · rintro rfl
    exact tolerance_zero_right k u ta
  · subst eq
    have inside := within_fixed_nearest hu wide
    exact ⟨inside, fun r pos le =>
      classify_ne_ambiguous_of_within (Nat.not_lt.mpr le) (Nat.ne_of_gt pos) inside⟩
  · rw [within_variable_iff]
    omega
  · have not_more_260 : ¬ r < (Basis.variable 150 230).inferred 260 := Nat.not_lt.mpr hr
    have not_more_100 : ¬ r < (Basis.variable 150 230).inferred 100 := Nat.not_lt.mpr hr
    exact ⟨classify_of_not_within not_more_260 rfl, classify_of_not_within not_more_100 rfl⟩

end Sys2Proof.Machine

namespace Sys2Proof.Machine

/-!
The queues of the control link (R164, R166, R168): what each kind of operation does to their capacities, and the statement
that every step keeps them.
-/

/-! ## Operations that leave the replies and the inbox alone -/

/-- An operation that queues no reply and takes no request keeps the capacities. -/
theorem Hushed.queuesOk {s t : State} (h : Hushed s t) (ok : s.queuesOk) : t.queuesOk := by
  obtain ⟨inbox, notices, replies⟩ := ok
  refine ⟨h.inbox ▸ inbox, h.room notices, ?_⟩
  rw [h.replies, reserved_of_held h.held]
  exact replies

theorem Quiet.queuesOk {s t : State} (h : Quiet s t) (ok : s.queuesOk) : t.queuesOk := h.hushed.queuesOk ok

/-- The capacities are read off the link interface alone. -/
theorem queuesOk_of_link {s t : State} (h : t.link = s.link) (ok : s.queuesOk) : t.queuesOk := by
  unfold State.queuesOk noticeCount replyCount reserved at *
  rwa [h]

/-- A command acts on the state as it stands, or not at all. -/
theorem live_keeps {P : State → Prop} {f : State → State} {s t : State} (h : live f s = .next t) (ok : P s)
    (keep : P s → P (f s)) : P t := by
  cases Host.Outcome.next.inj h
  split
  · exact ok
  · exact keep ok

/-! ## Requests -/

theorem popRequest_queuesOk {s : State} (ok : s.queuesOk) : (popRequest s).queuesOk := by
  obtain ⟨inbox, notices, replies⟩ := ok
  exact ⟨le_trans (by simp) inbox, notices, replies⟩

/-- An execution begins with a reply entry free, and its one reply takes that entry or reserves it (R164). -/
theorem runRequest_queuesOk {α : Type} (row : Instr) (read : State → List Byte → Option α)
    {owner : Request → α → State → State} (h : ∀ r a s, Replies s (owner r a s)) {s : State} (ok : s.queuesOk) :
    (runRequest row read owner s).queuesOk := by
  rcases runRequest_cases row read owner h s with same | ⟨may, replies⟩
  · rw [same]; exact ok
  · obtain ⟨inbox, notices, -⟩ := popRequest_queuesOk ok
    simp only [mayExecute, replyFree, Bool.and_eq_true, Option.isNone_iff_eq_none, decide_eq_true_eq] at may
    obtain ⟨⟨held, -⟩, free⟩ := may
    rw [reserved_of_none held] at free
    refine ⟨replies.inbox ▸ inbox, replies.room notices, ?_⟩
    rw [replies.count held]
    exact free

/-- A request taken from the link joins the inbox or is answered FULL, each only with a place free (R164). -/
theorem takeRequest_queuesOk (r : Request) {s : State} (ok : s.queuesOk) : (takeRequest r s).queuesOk := by
  obtain ⟨inbox, notices, replies⟩ := ok
  unfold takeRequest
  split
  · next room => exact ⟨by simpa using room, notices, replies⟩
  · split
    · next free =>
      rw [replyFree, decide_eq_true_eq] at free
      refine ⟨inbox, by rwa [noticeCount_answer], ?_⟩
      rw [replyCount_answer, reserved_of_held (by rfl : (answer r .full s).link.held = s.link.held)]
      omega
    · exact ⟨inbox, notices, replies⟩

theorem receiveByte_queuesOk (b : Byte) {s : State} (ok : s.queuesOk) : (receiveByte s b).queuesOk := by
  unfold receiveByte
  dsimp only
  split
  · exact ok
  · exact takeRequest_queuesOk _ ok

theorem receiveBytes_queuesOk (bs : List Byte) {s : State} (ok : s.queuesOk) :
    (bs.foldl receiveByte s).queuesOk := by
  induction bs generalizing s with
  | nil => exact ok
  | cons b bs ih => exact ih (receiveByte_queuesOk b ok)

/-! ## Start-up, sending, surveys -/

/-- A start-up empties every queue (R140). -/
theorem startUp_queuesOk (keepShift : Bool) (s : State) : (startUp keepShift s).queuesOk := by
  refine queuesOk_of_link (startUp_frame keepShift s).link ?_
  simp [State.queuesOk, blankStart, noticeCount, replyCount, reserved]

/-- A sent frame frees its entry (R168). -/
theorem setOut_tail_queuesOk {e : OutEntry} {rest : List OutEntry} {s : State} (h : s.link.out = e :: rest)
    (ok : s.queuesOk) : (setOut rest s).queuesOk := by
  obtain ⟨inbox, notices, replies⟩ := ok
  rw [noticeCount, h, List.countP_cons] at notices
  rw [replyCount, h, List.countP_cons] at replies
  exact ⟨inbox, le_trans (Nat.le_add_right _ _) notices,
    le_trans (Nat.add_le_add_right (Nat.le_add_right _ _) _) replies⟩

theorem frameSent_queuesOk {s : State} (ok : s.queuesOk) : (frameSent s).queuesOk := by
  unfold frameSent
  split
  · exact ok
  · next e rest h =>
    have freed := setOut_tail_queuesOk h ok
    split
    · split
      · exact (arbitrate_quiet _).queuesOk freed
      · exact freed
    · split
      · exact startUp_queuesOk true _
      · exact freed

/-- The reply of a survey takes the entry that was reserved for it (R164). -/
theorem answerHeld_queuesOk (pos : Pos) (e : SurveyEnd) {s : State} (ok : s.queuesOk) : (answerHeld pos e s).queuesOk := by
  rcases answerHeld_cases pos e s with same | ⟨⟨req, job⟩, b, held, survey, eq⟩
  · rw [same]; exact ok
  · obtain ⟨inbox, notices, replies⟩ := ok
    have entry : reserved s = 1 := by
      cases job with
      | openSource p => simp [reserved, held]
      | openOrder q => simp [reserved, held]
      | restart => exact absurd rfl survey
    have freed : reserved (answer req b (endHeld s)) = 0 := rfl
    rw [entry] at replies
    rw [eq]
    refine ⟨inbox, by rw [noticeCount_answer]; exact notices, ?_⟩
    rw [replyCount_answer, freed]
    exact replies

theorem endSurvey_queuesOk (pos : Pos) (e : SurveyEnd) {s : State} (ok : s.queuesOk) : (endSurvey pos e s).queuesOk :=
  ((afterSurvey_quiet ..).trans (finishStartup_quiet _)).queuesOk (answerHeld_queuesOk pos e
    (((stopSurvey_quiet ..).trans ((applySurvey_quiet ..).trans (reopenDrain_quiet ..))).queuesOk ok))

theorem takeAnswer_queuesOk (pos : Pos) (a : SurveyAnswer) {s : State} (ok : s.queuesOk) : (takeAnswer pos a s).queuesOk := by
  unfold takeAnswer
  split
  · exact endSurvey_queuesOk _ _ ok
  · exact ok

theorem surveyExpired_queuesOk (pos : Pos) {s : State} (ok : s.queuesOk) : (surveyExpired pos s).queuesOk := by
  unfold surveyExpired
  split
  · exact endSurvey_queuesOk _ _ ok
  · exact ok

theorem lineFailed_queuesOk (pos : Pos) {s : State} (ok : s.queuesOk) : (lineFailed pos s).queuesOk := by
  have cleared := (clearLine_quiet pos s).queuesOk ok
  unfold lineFailed
  split
  · split
    · exact endSurvey_queuesOk _ _ cleared
    · split
      · exact cleared
      · exact (faultAt_quiet ..).queuesOk cleared
  · exact ok

theorem takeFault_queuesOk (pos : Pos) (c : ModCause) {s : State} (ok : s.queuesOk) : (takeFault pos c s).queuesOk := by
  unfold takeFault
  split
  · split
    · exact ok
    · exact endSurvey_queuesOk _ _ ok
  · split
    · exact ok
    · exact (faultAt_quiet ..).queuesOk ok

theorem completeStore_hushed (o : StoreOutcome) (s : State) : Hushed s (completeStore o s) := by
  unfold completeStore
  split
  · exact (setProf_hushed ..).trans (notify_quiet ..).hushed
  · exact Hushed.refl s

/-! ## Every command, every step -/

theorem exec_keeps_queuesOk (c : Instr) {s t : State} (h : exec c s = .next t) (ok : s.queuesOk) : t.queuesOk := by
  have quiet : ∀ {f : State → State} (_ : live f s = .next t) (_ : Quiet s (f s)), t.queuesOk :=
    fun h k => live_keeps (P := State.queuesOk) h ok k.queuesOk
  have guarded : ∀ {b : Bool} {u : State} (_ : Quiet s u), Quiet s (if b then u else s) := by
    intro b u k
    split
    · exact k
    · exact Quiet.refl s
  have row : ∀ {α : Type} {r : Instr} {read : State → List Byte → Option α} {owner : Request → α → State → State}
      (_ : live (runRequest r read owner) s = .next t) (_ : ∀ r a s, Replies s (owner r a s)), t.queuesOk :=
    fun h k => live_keeps (P := State.queuesOk) h ok (runRequest_queuesOk _ _ k)
  cases c with
  | powerUp => exact live_keeps (P := State.queuesOk) h ok fun _ => startUp_queuesOk false s
  | resetLine => exact Host.Outcome.next.inj h ▸ startUp_queuesOk false s
  | holdOn => exact live_keeps (P := State.queuesOk) h ok (holdGoesOn_quiet _).queuesOk
  | holdOff => exact live_keeps (P := State.queuesOk) h ok (holdGoesOff_quiet _).queuesOk
  | keyInputChange level => exact Host.Outcome.next.inj h ▸ ok
  | frameReceived bytes =>
    dsimp only [exec, execFrameReceived] at h
    exact live_keeps (P := State.queuesOk) h ok (receiveBytes_queuesOk bytes)
  | byteGapTimeout next =>
    dsimp only [exec, execByteGapTimeout] at h
    exact live_keeps (P := State.queuesOk) h ok (receiveByte_queuesOk (s := dropPartial s) next)
  | frameSent => exact live_keeps (P := State.queuesOk) h ok frameSent_queuesOk
  | unknownRequest => exact row h fun r _ s => answer_replies r _ s
  | offer => exact row h ownOffer_replies
  | wallAdd => exact row h ownWallAdd_replies
  | wallUrge => exact row h ownWallUrge_replies
  | wallWindow => exact row h ownWallWindow_replies
  | wallShut => exact row h ownWallShut_replies
  | wallRebase => exact row h ownWallRebase_replies
  | wallRelease => exact row h ownWallRelease_replies
  | posOpen => exact row h ownPosOpen_replies
  | posClose => exact row h ownPosClose_replies
  | posOpenOrder => exact row h ownPosOpenOrder_replies
  | posCloseOrder => exact row h ownPosCloseOrder_replies
  | benchStart => exact row h ownBenchStart_replies
  | benchDrain => exact row h ownBenchDrain_replies
  | restart => exact row h ownRestart_replies
  | profileSet => exact row h ownProfileSet_replies
  | profileGet => exact row h ownProfileGet_replies
  | profileStore => exact row h ownProfileStore_replies
  | lockShift => exact row h ownLockShift_replies
  | queryBench => exact row h ownQueryBench_replies
  | queryPosition => exact row h ownQueryPosition_replies
  | queryOffer => exact row h ownQueryOffer_replies
  | queryOrder => exact row h ownQueryOrder_replies
  | storeCompletion o => exact live_keeps (P := State.queuesOk) h ok (completeStore_hushed o s).queuesOk
  | sourceArrived p sl id => exact quiet h (guarded (takeArrival_quiet ..))
  | sourceDeparted p sl => exact quiet h (guarded (takeDeparture_quiet ..))
  | orderArrived q sl id => exact quiet h (guarded (takeOrderArrival_quiet ..))
  | orderDeparted q sl => exact quiet h (guarded (takeOrderDeparture_quiet ..))
  | stable pos g =>
    cases pos with
    | src p => exact quiet (f := id) h (Quiet.refl s)
    | ord q => exact quiet h (guarded (takeStable_quiet ..))
  | keyShort pos =>
    cases pos with
    | src p => exact quiet h (guarded ((takeShort_quiet ..).trans (activity_quiet ..)))
    | ord q => exact quiet (f := id) h (Quiet.refl s)
  | keyButton pos j =>
    cases pos with
    | src p => exact quiet (f := id) h (Quiet.refl s)
    | ord q => exact quiet h (guarded ((takeButton_quiet ..).trans (activity_quiet ..)))
  | faultReport pos c => exact live_keeps (P := State.queuesOk) h ok (takeFault_queuesOk pos c)
  | surveyAnswer pos a => exact live_keeps (P := State.queuesOk) h ok (takeAnswer_queuesOk pos a)
  | ack pos n => exact quiet h (takeAck_quiet ..)
  | ackTimerExpiry pos => exact live_keeps (P := State.queuesOk) h ok (lineFailed_queuesOk pos)
  | surveyTimerExpiry pos => exact live_keeps (P := State.queuesOk) h ok (surveyExpired_queuesOk pos)
  | lapse p sl => exact quiet h (callExpired_quiet ..)
  | jam p sl => exact quiet h (leaveExpired_quiet ..)
  | settleTimerExpiry p => exact quiet h (settleExpired_quiet ..)
  | orphanTimerExpiry p => exact quiet h (orphanExpired_quiet ..)
  | orderLeaveTimerExpiry q => exact quiet h (orderLeaveExpired_quiet ..)
  | orderSettleTimerExpiry q => exact quiet h (orderSettleExpired_quiet ..)
  | idleTimerExpiry => exact quiet h (idleExpired_quiet s)
  | warningMarginReached tote => exact quiet h (judgeWarning_quiet ..)
  | exposureExpiry tote => exact quiet h (exposureExpired_quiet ..)
  | putGraceTimerExpiry => exact quiet h (graceExpired_quiet s)
  | resetOn => exact Host.Outcome.next.inj h ▸ ok
  | badLength lo hi =>
    dsimp only [exec, execBadLength] at h
    exact live_keeps (P := State.queuesOk) h ok (receiveBytes_queuesOk _)
  -- the one command left is RECALL, whose name is a keyword here
  | _ => exact row h ownRecall_replies

/-- A property of the state that every command keeps, one tenth of a second too, and that the command queue does not
bear on, is kept by every step. -/
theorem step_keeps {P : State → Prop} (queue : ∀ (s : State) (l : List Instr), P s → P { s with pending := l })
    (ticks : ∀ s, P s → P (tick s)) (execs : ∀ c (s t : State), exec c s = .next t → P s → P t) {s t : State}
    (h : step s = .next t) (ok : P s) : P t := by
  unfold step at h
  split at h
  · cases Host.Outcome.next.inj h
    unfold idle
    split
    · exact ok
    · split
      · exact queue _ _ ok
      · exact ticks s ok
  · exact execs _ _ _ h (queue s _ ok)

/-- Settles O5: each kind of operation keeps the capacities, requests because one begins with a reply entry free. -/
theorem stepKeepsQueuesWithinCapacity : Obligations.StepKeepsQueuesWithinCapacity := by
  intro s t ok h
  refine step_keeps (P := State.queuesOk) (fun s l ok => queuesOk_of_link (s := s) rfl ok) (fun s ok => ?_)
    (fun c s t => exec_keeps_queuesOk c) h ok
  obtain ⟨-, link, -⟩ := tick_frame s
  exact queuesOk_of_link link ok

/-- Settles O1. -/
theorem stepRunsFrontCommand : Obligations.StepRunsFrontCommand := by
  intro c rest s front
  unfold step
  split
  · next none => rw [none] at front; cases front
  · next c' rest' some =>
    rw [some] at front
    cases front
    rfl

end Sys2Proof.Machine

namespace Sys2Proof.Machine

/-!
What each plain update keeps of one source position, one order position, one field line and one line record: the rules that
the invariants of every step are put together from.
-/

/-! ## Source positions (R22, R23) -/

/-- A face in its state: its timers and what it names (R22, R23). -/
def Face.ok (f : Face) : Bool := f.timersOk && f.namesOk

/-- A lane in its state: its timers and what it names (R22, R23). -/
def Lane.ok (l : Lane) : Bool := l.timersOk && l.namesOk

/-- `SrcPos.slotsOk` as named properties. -/
structure SrcPos.SlotsOk (x : SrcPos) : Prop where
  cause : x.cause.isSome = true ↔ x.state = .faulted
  blank : x.state = .closed ∨ x.state = .faulted → x.face = {} ∧ x.lane = {}
  table : slotTable x.face.state x.lane.state = true
  depth : x.depth = 0 → x.lane.state = .empty
  face : x.face.ok = true
  lane : x.lane.ok = true
  survey : x.surveyT.isSome = true → x.state = .closed ∨ x.state = .faulted

theorem SrcPos.slotsOk_iff (x : SrcPos) : x.slotsOk = true ↔ x.SlotsOk := by
  have cause : (x.cause.isSome == (x.state == .faulted)) = true ↔ (x.cause.isSome = true ↔ x.state = .faulted) := by
    rw [beq_iff_eq, Bool.eq_iff_iff, beq_iff_eq]
  have blank : ((x.state != .closed && x.state != .faulted) || (x.face == {} && x.lane == {})) = true ↔
      (x.state = .closed ∨ x.state = .faulted → x.face = {} ∧ x.lane = {}) := by
    simp only [Bool.or_eq_true, Bool.and_eq_true, bne_iff_ne, beq_iff_eq]
    tauto
  have depth : (x.depth != 0 || x.lane.state == .empty) = true ↔ (x.depth = 0 → x.lane.state = .empty) := by
    simp only [Bool.or_eq_true, bne_iff_ne, beq_iff_eq]
    tauto
  have survey : (x.surveyT.isNone || x.state == .closed || x.state == .faulted) = true ↔
      (x.surveyT.isSome = true → x.state = .closed ∨ x.state = .faulted) := by
    cases x.surveyT <;> simp
  unfold SrcPos.slotsOk
  constructor
  · intro h
    simp only [Bool.and_eq_true] at h
    obtain ⟨⟨⟨⟨⟨⟨⟨⟨c, b⟩, t⟩, d⟩, ft⟩, lt⟩, fn⟩, ln⟩, s⟩ := h
    exact ⟨cause.mp c, blank.mp b, t, depth.mp d, by simp [Face.ok, ft, fn], by simp [Lane.ok, lt, ln], survey.mp s⟩
  · intro ⟨c, b, t, d, f, l, s⟩
    rw [Face.ok, Bool.and_eq_true] at f
    rw [Lane.ok, Bool.and_eq_true] at l
    rw [cause.mpr c, blank.mpr b, t, depth.mpr d, f.1, f.2, l.1, l.2, survey.mpr s]
    rfl

/-- A position has slot states: it is OPEN or CLOSING. -/
def SrcPos.hasSlots (x : SrcPos) : Prop := x.state ≠ .closed ∧ x.state ≠ .faulted

theorem SrcPos.SlotsOk.hasSlots_of_face {x : SrcPos} (h : x.SlotsOk) (busy : x.face.state ≠ .empty) : x.hasSlots :=
  ⟨fun e => busy (by rw [(h.blank (.inl e)).1]), fun e => busy (by rw [(h.blank (.inr e)).1])⟩

theorem SrcPos.SlotsOk.hasSlots_of_lane {x : SrcPos} (h : x.SlotsOk) (busy : x.lane.state ≠ .empty) : x.hasSlots :=
  ⟨fun e => busy (by rw [(h.blank (.inl e)).2]), fun e => busy (by rw [(h.blank (.inr e)).2])⟩

/-- At a position that has slot states, slots that fit together may take the place of the old ones. -/
theorem SrcPos.SlotsOk.change {x : SrcPos} (h : x.SlotsOk) (slots : x.hasSlots) {f : Face} {l : Lane}
    (table : slotTable f.state l.state = true) (depth : x.depth = 0 → l.state = .empty) (face : f.ok = true)
    (lane : l.ok = true) : ({ x with face := f, lane := l } : SrcPos).SlotsOk where
  cause := h.cause
  blank := fun e => absurd e (not_or.mpr slots)
  table := table
  depth := depth
  face := face
  lane := lane
  survey := h.survey

/-- A position may always become one without slot states. -/
theorem SrcPos.slotsOk_blank {x : SrcPos} {st : SrcState} {c : Option Cause}
    (cause : c.isSome = true ↔ st = .faulted) (survey : x.surveyT = none ∨ st = .closed ∨ st = .faulted) :
    (x.blank st c).SlotsOk where
  cause := cause
  blank := fun _ => ⟨rfl, rfl⟩
  table := rfl
  depth := fun _ => rfl
  face := rfl
  lane := rfl
  survey := fun run => by
    rcases survey with none | st
    · rw [SrcPos.blank, none] at run; cases run
    · exact st

theorem slotTable_empty (f : FaceState) : slotTable f .empty = true := by cases f <;> rfl

theorem slotTable_present (l : LaneState) : slotTable .present l = true := by cases l <;> rfl

/-- The lane of a position is EMPTY but with a PRESENT, LEAVING or SETTLING face (R22). -/
theorem laneEmpty_of_slotTable {f : FaceState} {l : LaneState} (h : slotTable f l = true) (np : f ≠ .present)
    (nl : f ≠ .leaving) (ns : f ≠ .settling) : l = .empty := by
  cases f <;> cases l <;> simp_all [slotTable]

/-- A call timer runs at a CALLED or ADVANCING face alone, a settle timer at a SETTLING one (R23). -/
theorem Face.state_of_timers {f : Face} (h : f.ok = true) :
    (f.callT.isSome = true → f.state = .called ∨ f.state = .advancing) ∧
      (f.leaveT.isSome = true → f.state = .leaving) ∧ (f.settleT.isSome = true → f.state = .settling) ∧
      (f.orphanT.isSome = true → f.state = .present) ∧ (f.held.isSome = true → f.state = .advancing) := by
  simp only [Face.ok, Face.timersOk, Bool.and_eq_true, Bool.or_eq_true, beq_iff_eq, Option.isNone_iff_eq_none] at h
  obtain ⟨⟨⟨⟨⟨call, leave⟩, settle⟩, orphan⟩, held⟩, -⟩ := h
  refine ⟨fun k => ?_, fun k => ?_, fun k => ?_, fun k => ?_, fun k => ?_⟩
  · rcases call with (e | e) | e
    · simp [e] at k
    · exact .inl e
    · exact .inr e
  · exact leave.resolve_left fun e => by simp [e] at k
  · exact settle.resolve_left fun e => by simp [e] at k
  · exact orphan.resolve_left fun e => by simp [e] at k
  · exact held.resolve_left fun e => by simp [e] at k

theorem Lane.state_of_timers {l : Lane} (h : l.ok = true) :
    (l.callT.isSome = true → l.state = .called) ∧ (l.leaveT.isSome = true → l.state = .leaving) := by
  simp only [Lane.ok, Lane.timersOk, Bool.and_eq_true, Bool.or_eq_true, beq_iff_eq, Option.isNone_iff_eq_none] at h
  obtain ⟨⟨call, leave⟩, -⟩ := h
  exact ⟨fun k => call.resolve_left fun e => by simp [e] at k, fun k => leave.resolve_left fun e => by simp [e] at k⟩

section
variable {x : SrcPos}

theorem SrcPos.SlotsOk.orphanOff (h : x.SlotsOk) : (x.setOrphan none).SlotsOk where
  cause := h.cause
  blank := fun e => by
    obtain ⟨f, l⟩ := h.blank e
    exact ⟨by rw [SrcPos.setOrphan, f], l⟩
  table := h.table
  depth := h.depth
  face := by
    have ok := h.face
    simp only [Face.ok, Face.timersOk, Face.namesOk, SrcPos.setOrphan, Bool.and_eq_true] at ok ⊢
    exact ⟨⟨⟨ok.1.1.1, rfl⟩, ok.1.2⟩, ok.2⟩
  lane := h.lane
  survey := h.survey

theorem SrcPos.SlotsOk.orphanOn (h : x.SlotsOk) (here : x.face.state = .present) (t : Nat) :
    (x.setOrphan (some t)).SlotsOk := by
  refine h.change (h.hasSlots_of_face (by rw [here]; simp)) h.table h.depth ?_ h.lane
  have ok := h.face
  simp only [Face.ok, Face.timersOk, Face.namesOk, Bool.and_eq_true] at ok ⊢
  exact ⟨⟨⟨ok.1.1.1, by simp [here]⟩, ok.1.2⟩, ok.2⟩

theorem SrcPos.SlotsOk.synced (h : x.SlotsOk) (d : Nat) : (x.synced d).SlotsOk := by
  unfold SrcPos.synced
  split
  · next e => exact ⟨h.cause, h.blank, h.table, fun _ => e, h.face, h.lane, h.survey⟩
  · exact h

/-- A slot that a release is ordered for becomes LEAVING (R32). -/
theorem SrcPos.SlotsOk.leaving (h : x.SlotsOk) {sl : Slot} (out : x.releasable sl = true) (t time : Nat) :
    (x.leaving sl (some t) none time).SlotsOk := by
  cases sl with
  | face =>
    rw [SrcPos.releasable, beq_iff_eq] at out
    exact h.change (h.hasSlots_of_face (by rw [out]; simp)) (by cases x.lane.state <;> rfl) h.depth (by rfl) h.lane
  | lane =>
    rw [SrcPos.releasable, beq_iff_eq] at out
    have busy : x.lane.state ≠ .empty := by rw [out]; simp
    refine h.change (h.hasSlots_of_lane busy) ?_ (fun d => absurd (h.depth d) busy) h.face (by rfl)
    have table := h.table
    rw [out] at table
    cases e : x.face.state <;> simp_all [slotTable]

theorem SrcPos.SlotsOk.holdRelease (h : x.SlotsOk) (adv : x.face.state = .advancing) (r : HeldRelease) :
    (x.holdRelease r).SlotsOk := by
  refine h.change (h.hasSlots_of_face (by rw [adv]; simp)) h.table h.depth ?_ h.lane
  have ok := h.face
  simp only [Face.ok, Face.timersOk, Face.namesOk, Bool.and_eq_true] at ok ⊢
  exact ⟨⟨ok.1.1, by simp [adv]⟩, ok.2⟩

/-- A callable slot becomes CALLED (R27, R46). -/
theorem SrcPos.SlotsOk.called (h : x.SlotsOk) {sl : Slot} (opn : x.state = .opn)
    (free : match sl with
      | .face => x.face.state = .empty
      | .lane => x.depth = 1 ∧ x.face.state = .present ∧ x.lane.state = .empty) (t time : Nat) :
    (x.called sl t time).SlotsOk := by
  have slots : x.hasSlots := by rw [SrcPos.hasSlots, opn]; simp
  cases sl with
  | face =>
    have lane := laneEmpty_of_slotTable h.table (by rw [free]; simp) (by rw [free]; simp) (by rw [free]; simp)
    exact h.change slots (by rw [lane]; rfl) h.depth (by rfl) h.lane
  | lane =>
    obtain ⟨d, p, -⟩ := free
    exact h.change slots (by rw [p]; rfl) (fun z => by omega) h.face (by rfl)

/-- The awaited tote arrives at the face (R28). -/
theorem SrcPos.SlotsOk.presented (h : x.SlotsOk) {t : Nat} (aw : x.face.awaits t = true) : (x.presented t).SlotsOk := by
  have busy : x.face.state ≠ .empty := by
    intro e; rw [Face.awaits, e] at aw; simp at aw
  exact h.change (h.hasSlots_of_face busy) (slotTable_present _) h.depth (by rfl) h.lane

/-- The awaited tote arrives at the lane (R28). -/
theorem SrcPos.SlotsOk.staged (h : x.SlotsOk) (was : x.lane.state = .called) (t : Nat) : (x.staged t).SlotsOk := by
  have busy : x.lane.state ≠ .empty := by rw [was]; simp
  refine h.change (h.hasSlots_of_lane busy) ?_ (fun d => absurd (h.depth d) busy) h.face (by rfl)
  have table := h.table
  rw [was] at table
  cases e : x.face.state <;> simp_all [slotTable]

/-- A CALLED face becomes ADVANCING, its call timer running on (R29). -/
theorem SrcPos.SlotsOk.followed (h : x.SlotsOk) (was : x.face.state = .called) : x.followed.SlotsOk := by
  have lane := laneEmpty_of_slotTable h.table (by rw [was]; simp) (by rw [was]; simp) (by rw [was]; simp)
  refine h.change (h.hasSlots_of_face (by rw [was]; simp)) (by rw [lane]; rfl) h.depth ?_ h.lane
  have ok := h.face
  simp only [Face.ok, Face.timersOk, Face.namesOk, was] at ok ⊢
  simp_all

/-- A LEAVING face becomes SETTLING (R36). -/
theorem SrcPos.SlotsOk.settling (h : x.SlotsOk) (was : x.face.state = .leaving) (t : Nat) : (x.settling t).SlotsOk :=
  h.change (h.hasSlots_of_face (by rw [was]; simp)) (by cases x.lane.state <;> rfl) h.depth (by rfl) h.lane

theorem SrcPos.SlotsOk.laneGone (h : x.SlotsOk) (was : x.lane.state = .leaving) : x.laneGone.SlotsOk := by
  refine h.change (h.hasSlots_of_lane (by rw [was]; simp)) (slotTable_empty _) (fun _ => rfl) ?_ (by rfl)
  split
  · rfl
  · exact h.face

/-- A slot made EMPTY: its lane is EMPTY with it, or the face was one that no lane needs (R35, R55). -/
theorem SrcPos.SlotsOk.emptied (h : x.SlotsOk) {sl : Slot} (slots : x.hasSlots)
    (lane : sl = .face → x.lane.state = .empty) : (x.emptied sl).SlotsOk := by
  cases sl with
  | face => exact h.change slots (by rw [lane rfl]; rfl) h.depth (by rfl) h.lane
  | lane => exact h.change slots (slotTable_empty _) (fun _ => rfl) h.face (by rfl)

theorem SrcPos.SlotsOk.lapsed (h : x.SlotsOk) {sl : Slot} (run : (x.callTimer sl).isSome = true) :
    (x.emptied sl).SlotsOk := by
  cases sl with
  | face =>
    have st := (Face.state_of_timers h.face).1 run
    refine h.emptied (h.hasSlots_of_face ?_) fun _ => laneEmpty_of_slotTable h.table ?_ ?_ ?_ <;>
      rcases st with e | e <;> rw [e] <;> simp
  | lane =>
    have st := (Lane.state_of_timers h.lane).1 run
    exact h.emptied (h.hasSlots_of_lane (by rw [st]; simp)) fun e => by cases e

theorem SrcPos.SlotsOk.diverted (h : x.SlotsOk) (sl : Slot) : (x.diverted sl).SlotsOk := by
  cases sl with
  | face =>
    unfold SrcPos.diverted
    dsimp only
    split
    · next e =>
      exact h.emptied (sl := .face) (h.hasSlots_of_face (by rw [e]; simp)) fun _ =>
        laneEmpty_of_slotTable h.table (by rw [e]; simp) (by rw [e]; simp) (by rw [e]; simp)
    · exact h
  | lane =>
    unfold SrcPos.diverted
    dsimp only
    split
    · next e => exact h.emptied (sl := .lane) (h.hasSlots_of_lane (by rw [e]; simp)) fun e => by cases e
    · exact h

/-- The face of a position whose settle guard runs is SETTLING (R23). -/
theorem SrcPos.SlotsOk.hasSlots_of_guard (h : x.SlotsOk) (run : x.face.settleT.isSome = true) : x.hasSlots :=
  h.hasSlots_of_face (by rw [(Face.state_of_timers h.face).2.2.1 run]; simp)

/-- What a lane names and how long its call has left, in its state (R22, R23). -/
theorem Lane.names_of_state {l : Lane} (h : l.ok = true) :
    (l.state = .called → l.offer.isSome = true ∧ l.callT.isSome = true) ∧
      (l.state = .staged → l.offer.isSome = true) ∧ (l.state = .empty → l.offer = none) := by
  simp only [Lane.ok, Lane.namesOk, Bool.and_eq_true] at h
  obtain ⟨-, names⟩ := h
  refine ⟨fun e => ?_, fun e => ?_, fun e => ?_⟩ <;> rw [e] at names <;> simp at names
  · exact ⟨names.1.1, names.2⟩
  · exact names.1
  · exact names.1

theorem SrcPos.SlotsOk.advanced (h : x.SlotsOk) (run : x.face.settleT.isSome = true) (st : x.lane.state = .staged)
    (t : Nat) : (x.advanced t).SlotsOk := by
  refine h.change (h.hasSlots_of_guard run) rfl (fun _ => rfl) ?_ rfl
  have names := (Lane.names_of_state h.lane).2.1 st
  simp [Face.ok, Face.timersOk, Face.namesOk, names]

theorem SrcPos.SlotsOk.transferred (h : x.SlotsOk) (run : x.face.settleT.isSome = true) (st : x.lane.state = .called) :
    x.transferred.SlotsOk := by
  refine h.change (h.hasSlots_of_guard run) rfl (fun _ => rfl) ?_ rfl
  obtain ⟨offer, call⟩ := (Lane.names_of_state h.lane).1 st
  simp [Face.ok, Face.timersOk, Face.namesOk, offer, call]

theorem SrcPos.SlotsOk.stopGuard (h : x.SlotsOk) : x.stopGuard.SlotsOk where
  cause := h.cause
  blank := fun e => by
    obtain ⟨f, l⟩ := h.blank e
    exact ⟨by rw [SrcPos.stopGuard, f], l⟩
  table := h.table
  depth := h.depth
  face := by
    have ok := h.face
    simp only [Face.ok, Face.timersOk, Face.namesOk, SrcPos.stopGuard, Bool.and_eq_true] at ok ⊢
    exact ⟨⟨⟨⟨ok.1.1.1.1, rfl⟩, ok.1.1.2⟩, ok.1.2⟩, ok.2⟩
  lane := h.lane
  survey := h.survey

/-- An OPEN position becomes CLOSING and a CLOSING one OPEN (R39, R41). -/
theorem SrcPos.SlotsOk.putState (h : x.SlotsOk) (slots : x.hasSlots) {st : SrcState} (into : st = .opn ∨ st = .closing) :
    (x.putState st).SlotsOk where
  cause := by
    have none : x.cause.isSome = true ↔ False := h.cause.trans (by simp [slots.2])
    rcases into with e | e <;> simpa [SrcPos.putState, e] using none
  blank := fun e => by rcases into with k | k <;> simp [SrcPos.putState, k] at e
  table := h.table
  depth := h.depth
  face := h.face
  lane := h.lane
  survey := fun run => absurd (h.survey run) (not_or.mpr slots)

theorem SrcPos.SlotsOk.setSurvey (h : x.SlotsOk) {t : Option Nat} (at' : t = none ∨ x.state = .closed ∨ x.state = .faulted) :
    (x.setSurvey t).SlotsOk where
  cause := h.cause
  blank := h.blank
  table := h.table
  depth := h.depth
  face := h.face
  lane := h.lane
  survey := fun run => by
    rcases at' with e | e
    · rw [SrcPos.setSurvey, e] at run; cases run
    · exact e

/-- One tenth of a second leaves a running timer running and a stopped one stopped. -/
@[simp] theorem isSome_timerTick (t : Option Nat) : (timerTick t).isSome = t.isSome := by cases t <;> rfl
@[simp] theorem isNone_timerTick (t : Option Nat) : (timerTick t).isNone = t.isNone := by cases t <;> rfl

theorem SrcPos.SlotsOk.tick (h : x.SlotsOk) : x.tick.SlotsOk where
  cause := h.cause
  blank := fun e => by
    obtain ⟨f, l⟩ := h.blank e
    exact ⟨by rw [SrcPos.tick, f]; rfl, by rw [SrcPos.tick, l]; rfl⟩
  table := h.table
  depth := h.depth
  face := by
    have ok := h.face
    simpa only [Face.ok, Face.timersOk, Face.namesOk, SrcPos.tick, isSome_timerTick, isNone_timerTick] using ok
  lane := by
    have ok := h.lane
    simpa only [Lane.ok, Lane.timersOk, Lane.namesOk, SrcPos.tick, isSome_timerTick, isNone_timerTick] using ok
  survey := fun run => h.survey (by simpa [SrcPos.tick] using run)

end

/-! ## Field lines (R157, R158) -/

/-- `FieldLine.ordersOk` as named properties. -/
structure FieldLine.OrdersOk (l : FieldLine) : Prop where
  timer : l.ackT.isSome = true ↔ l.orders ≠ []
  next : l.nextSeq < 256
  seqs : ∀ o ∈ l.orders, o.seq < 256

theorem FieldLine.ordersOk_iff (l : FieldLine) : l.ordersOk = true ↔ l.OrdersOk := by
  have timer : (l.ackT.isSome == !l.orders.isEmpty) = true ↔ (l.ackT.isSome = true ↔ l.orders ≠ []) := by
    rw [beq_iff_eq, Bool.eq_iff_iff]; simp
  unfold FieldLine.ordersOk
  rw [Bool.and_eq_true, Bool.and_eq_true, timer, decide_eq_true_iff, List.all_eq_true]
  simp only [decide_eq_true_iff]
  exact ⟨fun ⟨⟨a, b⟩, c⟩ => ⟨a, b, c⟩, fun ⟨a, b, c⟩ => ⟨⟨a, b⟩, c⟩⟩

theorem mergeOrders_sublist (o : Order) (l : List FieldOrder) : (mergeOrders o l).Sublist l := by
  cases l with
  | nil => exact List.Sublist.refl _
  | cons x waiting => exact List.filter_sublist.cons_cons x

section
variable {l : FieldLine}

theorem FieldLine.OrdersOk.hand (h : l.OrdersOk) (o : Order) (dark : Bool) : (FieldLine.hand o dark l).OrdersOk where
  timer := by
    cases e : l.orders with
    | nil => simp [FieldLine.hand, e]
    | cons x xs => simp [FieldLine.hand, e, h.timer]
  next := Nat.mod_lt _ (by decide)
  seqs := fun x hx => by
    rcases List.mem_append.mp hx with old | new
    · exact h.seqs x ((mergeOrders_sublist o l.orders).subset old)
    · rw [List.mem_singleton.mp new]; exact h.next

theorem FieldLine.OrdersOk.sendNext (h : l.OrdersOk) {rest : List FieldOrder} (sub : ∀ o ∈ rest, o ∈ l.orders) :
    (l.sendNext rest).OrdersOk where
  timer := by cases rest <;> simp [FieldLine.sendNext]
  next := h.next
  seqs := fun x hx => h.seqs x (sub x hx)

theorem FieldLine.OrdersOk.emptied (h : l.OrdersOk) : l.emptied.OrdersOk where
  timer := by simp [FieldLine.emptied]
  next := h.next
  seqs := fun x hx => by cases hx

theorem FieldLine.OrdersOk.dropSurvey (h : l.OrdersOk) : l.dropSurvey.OrdersOk := by
  unfold FieldLine.dropSurvey
  split
  · exact h
  · next o rest e =>
    have sub : ∀ x ∈ rest.filter (fun w => w.order != .survey), x ∈ l.orders := fun x hx => by
      rw [e]; exact List.mem_cons_of_mem _ (List.mem_of_mem_filter hx)
    dsimp only
    split
    · exact h.sendNext sub
    · refine ⟨by simpa using h.timer.mpr (by rw [e]; simp), h.next, fun x hx => ?_⟩
      rcases List.mem_cons.mp hx with rfl | hx
      · exact h.seqs x (by rw [e]; exact List.mem_cons_self)
      · exact h.seqs x (sub x hx)

theorem FieldLine.OrdersOk.tick (h : l.OrdersOk) : l.tick.OrdersOk :=
  ⟨by simpa [FieldLine.tick] using h.timer, h.next, h.seqs⟩

theorem FieldLine.OrdersOk.started (h : l.OrdersOk) (b : Bool) (d : Display) : (l.started b d).OrdersOk := by
  unfold FieldLine.started
  split
  · exact h.hand ..
  · exact h.hand ..

end

theorem FieldLine.ordersOk_blank : ({} : FieldLine).OrdersOk := ⟨by simp, by decide, by simp⟩

/-- Every field line is that of one position (R155). -/
theorem exists_lineOf (i : Fin 16) : ∃ pos, lineOf pos = i := by
  by_cases h : i.val < 4
  · exact ⟨.src ⟨i.val, h⟩, rfl⟩
  · exact ⟨.ord ⟨i.val - 4, by omega⟩, Fin.ext (by simp only [lineOf]; omega)⟩

/-! ## Put lists (R6) -/

theorem sum_addPut (tote comp k : Nat) (es : List PutEntry) :
    ((addPut tote comp k es).map fun e => e.units).sum = (es.map fun e => e.units).sum + k := by
  induction es with
  | nil => simp [addPut]
  | cons e es ih =>
    unfold addPut
    split
    · simp only [List.map_cons, List.sum_cons]; omega
    · simp only [List.map_cons, List.sum_cons, ih]; omega

theorem OLine.putsOk_accept {l : OLine} (h : l.putsOk = true) (tote comp k : Nat) :
    (l.accept tote comp k).putsOk = true := by
  simp only [OLine.putsOk, beq_iff_eq] at h ⊢
  unfold OLine.accept
  by_cases z : k = 0
  · simp [z, h]
  · simp only [z, if_false, sum_addPut, h]

end Sys2Proof.Machine

namespace Sys2Proof.Machine

/-!
What each plain update keeps of an order position (R60, R61), and what the end of its survey makes of it (R162).
-/

/-! ## The end of a survey at an order position -/

/-- The position a good answer of an order module gives (R61, R161, R162). -/
def OrdPos.recovered (tote : Option (Option Nat)) (g : Gross) (ta : Nat) (x : OrdPos) : OrdPos :=
  match x.record with
  | none =>
    match tote with
    | none => x.reopened .empty g
    | some i => { x.reopened .occupied g with idRead := i }
  | some r =>
    match tote with
    | none =>
      if x.former = some .active then (x.reopened .empty g).withoutRecord none
      else { x.reopened .expected g with record := some { r with cond := .clean } }
    | some i =>
      if i ≠ some r.tote then (x.reopened .occupied g).withoutRecord i
      else if x.former = some .active then
        match disturbanceOf g (r.baseline.getD 0) ta with
        | none => { x.reopened .active g with record := some { r with cond := .clean } }
        | some _ => x.reopened .active g
      else
        match g with
        | .grams w =>
          { x.reopened .active g with record := some { r with cond := .clean, baseline := some w } }
        | .overload => { x.reopened .arrived g with record := some { r with cond := .clean } }

/-- The position the end of its survey gives (R61, R160). -/
def OrdPos.judged (e : SurveyEnd) (ta : Nat) (x : OrdPos) : OrdPos :=
  match e with
  | .failed c => x.surveyFailed c
  | .order t g => x.recovered t g ta
  | .source _ _ => x.surveyFailed .kind

@[simp] theorem notifySrc_src (p : Fin 4) (s : State) : (notifySrc p s).src = s.src := notify_src ..
@[simp] theorem notifySrc_wall (p : Fin 4) (s : State) : (notifySrc p s).wall = s.wall := notify_wall ..
@[simp] theorem notifySrc_bench (p : Fin 4) (s : State) : (notifySrc p s).bench = s.bench := notify_bench ..
@[simp] theorem notifySrc_prof (p : Fin 4) (s : State) : (notifySrc p s).prof = s.prof := notify_prof ..
@[simp] theorem notifySrc_lines (p : Fin 4) (s : State) : (notifySrc p s).lines = s.lines := notify_lines ..
@[simp] theorem notifyOrd_wall (q : Fin 12) (s : State) : (notifyOrd q s).wall = s.wall := notify_wall ..
@[simp] theorem notifyOrd_src (q : Fin 12) (s : State) : (notifyOrd q s).src = s.src := notify_src ..
@[simp] theorem notifyWall_wall (q : Fin 12) (e : WallEvent) (s : State) : (notifyWall q e s).wall = s.wall :=
  notify_wall ..
@[simp] theorem notifyWall_src (q : Fin 12) (e : WallEvent) (s : State) : (notifyWall q e s).src = s.src :=
  notify_src ..

@[simp] theorem notifyReleased_wall (q : Fin 12) (b : Bool) (s : State) : (notifyReleased q b s).wall = s.wall := by
  unfold notifyReleased
  split <;> exact notifyWall_wall ..

theorem reopenOrd_ord (q q' : Fin 12) (st : OrdState) (g : Gross) (f : OrdPos → OrdPos) (s : State) :
    (reopenOrd q st g f s).wall.pos[q'] =
      if q = q' then f (s.wall.pos[q'].reopened st g) else s.wall.pos[q'] := by
  unfold reopenOrd
  rw [notifyOrd_wall, modOrd_getElem]

theorem giveUpRecord_ord (q q' : Fin 12) (i : Option Nat) (s : State) :
    (giveUpRecord q i s).wall.pos[q'] =
      if q = q' then s.wall.pos[q'].withoutRecord i else s.wall.pos[q'] := by
  unfold giveUpRecord
  rw [modOrd_getElem, notifyReleased_wall]

/-- A survey that ends with an answer of an order module changes the position alone (R162). -/
theorem surveyedOrd_ord (q q' : Fin 12) (t : Option (Option Nat)) (g : Gross) (s : State) :
    (surveyedOrd q t g s).wall.pos[q'] =
      if q = q' then s.wall.pos[q'].recovered t g s.prof.profile.ta else s.wall.pos[q'] := by
  by_cases h : q = q'
  · subst h
    unfold surveyedOrd OrdPos.recovered
    cases record : s.wall.pos[q].record with
    | none => cases t <;> simp [reopenOrd_ord, -Fin.getElem_fin]
    | some r =>
      cases t with
      | none =>
        by_cases was : s.wall.pos[q].former = some .active <;>
          simp [was, reopenOrd_ord, giveUpRecord_ord, -Fin.getElem_fin]
      | some i =>
        by_cases other : i = some r.tote
        · by_cases was : s.wall.pos[q].former = some .active
          · cases d : disturbanceOf g (r.baseline.getD 0) s.prof.profile.ta <;>
              simp [other, was, d, reopenOrd_ord, -Fin.getElem_fin]
          · cases g <;> simp [other, was, reopenOrd_ord, -Fin.getElem_fin]
        · simp [other, reopenOrd_ord, giveUpRecord_ord, -Fin.getElem_fin]
  · rw [if_neg h]
    have opened : ∀ st f, (reopenOrd q st g f s).wall.pos[q'] = s.wall.pos[q'] := fun st f => by
      rw [reopenOrd_ord, if_neg h]
    have given : ∀ st i, (giveUpRecord q i (reopenOrd q st g id s)).wall.pos[q'] = s.wall.pos[q'] := fun st i => by
      rw [giveUpRecord_ord, if_neg h, opened]
    have told : ∀ e st f, (notifyWall q e (reopenOrd q st g f s)).wall.pos[q'] = s.wall.pos[q'] := fun e st f => by
      simp only [notifyWall_wall, opened]
    unfold surveyedOrd
    split
    · split <;> exact opened ..
    · dsimp only
      split
      · split
        · exact given ..
        · exact told ..
      · split
        · exact given ..
        · split
          · split
            · exact told ..
            · exact opened ..
          · split
            · exact told ..
            · exact opened ..

@[simp] theorem clearLine_wall (pos : Pos) (s : State) : (clearLine pos s).wall = s.wall := rfl
@[simp] theorem clearLine_src (pos : Pos) (s : State) : (clearLine pos s).src = s.src := rfl

theorem surveyFailedOrd_ord (q q' : Fin 12) (c : Cause) (s : State) :
    (surveyFailedOrd q c s).wall.pos[q'] = if q = q' then s.wall.pos[q'].surveyFailed c else s.wall.pos[q'] := by
  have wall : (surveyFailedOrd q c s).wall = (modOrd q (OrdPos.surveyFailed c) s).wall := by
    unfold surveyFailedOrd
    dsimp only
    split
    · rfl
    · exact notifyOrd_wall ..
  rw [wall, modOrd_getElem]

/-- The end of the survey of an order position changes that position alone. -/
theorem applySurvey_ord (q q' : Fin 12) (e : SurveyEnd) (s : State) :
    (applySurvey (.ord q) e s).wall.pos[q'] =
      if q = q' then s.wall.pos[q'].judged e s.prof.profile.ta else s.wall.pos[q'] := by
  cases e with
  | failed c => exact surveyFailedOrd_ord q q' c s
  | source f l => exact surveyFailedOrd_ord q q' .kind s
  | order t g => exact surveyedOrd_ord q q' t g s

/-! ## The items of an order position (R60) -/

/-- `OrdPos.itemsOk` as named properties. -/
structure OrdPos.ItemsOk (x : OrdPos) : Prop where
  holds : x.state.holds = true → x.record.isSome = true
  bare : x.state = .closed ∨ x.state = .empty ∨ x.state = .occupied → x.record = none
  idRead : x.idRead.isSome = true → x.state = .occupied
  leaveT : x.leaveT.isSome = true → x.state = .leaving
  settleT : x.settleT.isSome = true → x.state = .settling
  light : x.removeLight = true → x.state = .active
  former : x.former.isSome = true → x.state = .faulted
  cause : x.cause.isSome = true ↔ x.state = .faulted
  survey : x.surveyT.isSome = true → x.state = .closed ∨ x.state = .faulted

theorem OrdPos.itemsOk_iff (x : OrdPos) : x.itemsOk = true ↔ x.ItemsOk := by
  have bare : ((x.state != .closed && x.state != .empty && x.state != .occupied) || x.record.isNone) = true ↔
      (x.state = .closed ∨ x.state = .empty ∨ x.state = .occupied → x.record = none) := by
    simp only [Bool.or_eq_true, Bool.and_eq_true, bne_iff_ne, Option.isNone_iff_eq_none]
    tauto
  have only : ∀ (b c : Bool), ((!b) || c) = true ↔ (b = true → c = true) := by decide
  have opt : ∀ {α : Type} (o : Option α) (st : OrdState),
      (o.isNone || x.state == st) = true ↔ (o.isSome = true → x.state = st) := by
    intro α o st; cases o <;> simp
  have cause : (x.cause.isSome == (x.state == .faulted)) = true ↔ (x.cause.isSome = true ↔ x.state = .faulted) := by
    rw [beq_iff_eq, Bool.eq_iff_iff, beq_iff_eq]
  have survey : (x.surveyT.isNone || x.state == .closed || x.state == .faulted) = true ↔
      (x.surveyT.isSome = true → x.state = .closed ∨ x.state = .faulted) := by
    cases x.surveyT <;> simp
  unfold OrdPos.itemsOk
  rw [Bool.and_eq_true, Bool.and_eq_true, Bool.and_eq_true, Bool.and_eq_true, Bool.and_eq_true, Bool.and_eq_true,
    Bool.and_eq_true, Bool.and_eq_true, only, only, bare, opt, opt, opt, opt, cause, survey, beq_iff_eq]
  exact ⟨fun ⟨⟨⟨⟨⟨⟨⟨⟨a, b⟩, c⟩, d⟩, e⟩, f⟩, g⟩, h⟩, i⟩ => ⟨a, b, c, d, e, f, g, h, i⟩,
    fun ⟨a, b, c, d, e, f, g, h, i⟩ => ⟨⟨⟨⟨⟨⟨⟨⟨a, b⟩, c⟩, d⟩, e⟩, f⟩, g⟩, h⟩, i⟩⟩

/-- What an order position has absent, stopped or off where its state asks for it. -/
structure OrdPos.Bare (x : OrdPos) : Prop where
  idRead : x.idRead = none
  leaveT : x.leaveT = none
  settleT : x.settleT = none
  light : x.removeLight = false

section
variable {x : OrdPos}

theorem OrdPos.ItemsOk.idRead_none (h : x.ItemsOk) (ne : x.state ≠ .occupied) : x.idRead = none :=
  Option.not_isSome_iff_eq_none.mp fun e => ne (h.idRead e)

theorem OrdPos.ItemsOk.leaveT_none (h : x.ItemsOk) (ne : x.state ≠ .leaving) : x.leaveT = none :=
  Option.not_isSome_iff_eq_none.mp fun e => ne (h.leaveT e)

theorem OrdPos.ItemsOk.settleT_none (h : x.ItemsOk) (ne : x.state ≠ .settling) : x.settleT = none :=
  Option.not_isSome_iff_eq_none.mp fun e => ne (h.settleT e)

theorem OrdPos.ItemsOk.light_off (h : x.ItemsOk) (ne : x.state ≠ .active) : x.removeLight = false :=
  Bool.eq_false_iff.mpr fun e => ne (h.light e)

theorem OrdPos.ItemsOk.former_none (h : x.ItemsOk) (ne : x.state ≠ .faulted) : x.former = none :=
  Option.not_isSome_iff_eq_none.mp fun e => ne (h.former e)

theorem OrdPos.ItemsOk.cause_none (h : x.ItemsOk) (ne : x.state ≠ .faulted) : x.cause = none :=
  Option.not_isSome_iff_eq_none.mp fun e => ne (h.cause.mp e)

theorem OrdPos.ItemsOk.survey_none (h : x.ItemsOk) (ne : x.state ≠ .closed) (ne' : x.state ≠ .faulted) :
    x.surveyT = none :=
  Option.not_isSome_iff_eq_none.mp fun e => (h.survey e).elim ne ne'

theorem OrdPos.ItemsOk.bare_of_survey (h : x.ItemsOk) (at' : x.state = .closed ∨ x.state = .faulted) : x.Bare := by
  rcases at' with e | e
  · exact ⟨h.idRead_none (by simp [e]), h.leaveT_none (by simp [e]), h.settleT_none (by simp [e]),
      h.light_off (by simp [e])⟩
  · exact ⟨h.idRead_none (by simp [e]), h.leaveT_none (by simp [e]), h.settleT_none (by simp [e]),
      h.light_off (by simp [e])⟩

/-- A change of the record of a position, one kept where there was one. -/
theorem OrdPos.ItemsOk.record (h : x.ItemsOk) (f : Rec → Rec) : ({ x with record := x.record.map f } : OrdPos).ItemsOk where
  holds := fun e => by simpa using h.holds e
  bare := fun e => by simp [h.bare e]
  idRead := h.idRead
  leaveT := h.leaveT
  settleT := h.settleT
  light := h.light
  former := h.former
  cause := h.cause
  survey := h.survey

theorem OrdPos.itemsOk_shutDown (x : OrdPos) : x.shutDown.ItemsOk := by
  constructor <;> simp [OrdPos.shutDown, OrdState.holds]

theorem OrdPos.ItemsOk.setLight (h : x.ItemsOk) {b : Bool} (at' : b = true → x.state = .active) :
    (x.setLight b).ItemsOk :=
  ⟨h.holds, h.bare, h.idRead, h.leaveT, h.settleT, at', h.former, h.cause, h.survey⟩

/-- A fault keeps a record from EXPECTED, ARRIVED and ACTIVE alone (R75). -/
theorem OrdPos.itemsOk_faulted (x : OrdPos) (c : Cause) : (x.faulted c).ItemsOk := by
  constructor <;> simp [OrdPos.faulted, OrdState.holds]

theorem OrdPos.ItemsOk.setSurvey (h : x.ItemsOk) {t : Option Nat}
    (at' : t = none ∨ x.state = .closed ∨ x.state = .faulted) : (x.setSurvey t).ItemsOk :=
  ⟨h.holds, h.bare, h.idRead, h.leaveT, h.settleT, h.light, h.former, h.cause, fun run => by
    rcases at' with e | e
    · rw [OrdPos.setSurvey, e] at run; cases run
    · exact e⟩

theorem OrdPos.ItemsOk.emptied (h : x.ItemsOk) (at' : x.settleT = some 0 ∨ x.state = .expected) :
    x.emptied.ItemsOk := by
  have st : x.state = .settling ∨ x.state = .expected := at'.imp (fun e => h.settleT (by rw [e]; rfl)) id
  have light := h.light_off (by rcases st with e | e <;> simp [e])
  have former := h.former_none (by rcases st with e | e <;> simp [e])
  have cause := h.cause_none (by rcases st with e | e <;> simp [e])
  have survey := h.survey_none (by rcases st with e | e <;> simp [e]) (by rcases st with e | e <;> simp [e])
  constructor <;> simp [OrdPos.emptied, OrdState.holds, light, former, cause, survey]

/-- A position with a record goes on to another state that holds one (R68). -/
theorem OrdPos.ItemsOk.putState (h : x.ItemsOk) (holds : x.state.holds = true) {st : OrdState} (to' : st.holds = true)
    (dark : x.state ≠ .active) : (x.putState st).ItemsOk := by
  have ne : x.state ≠ .occupied ∧ x.state ≠ .leaving ∧ x.state ≠ .settling ∧ x.state ≠ .faulted ∧ x.state ≠ .closed := by
    cases e : x.state <;> simp [e, OrdState.holds] at holds ⊢
  obtain ⟨occ, lea, set, fau, clo⟩ := ne
  have light := h.light_off dark
  constructor <;> simp only [OrdPos.putState, h.idRead_none occ, h.leaveT_none lea, h.settleT_none set, light,
    h.former_none fau, h.cause_none fau, h.survey_none clo fau, h.holds holds] <;>
    (cases st <;> simp [OrdState.holds] at to' ⊢)

theorem OrdPos.ItemsOk.departed (h : x.ItemsOk) (was : x.state = .leaving) (t : Nat) : (x.departed t).ItemsOk := by
  have light := h.light_off (by simp [was])
  have former := h.former_none (by simp [was])
  have cause := h.cause_none (by simp [was])
  have survey := h.survey_none (by simp [was]) (by simp [was])
  have idRead := h.idRead_none (by simp [was])
  constructor <;> simp [OrdPos.departed, OrdState.holds, light, former, cause, survey, idRead]

theorem OrdPos.ItemsOk.weighed (h : x.ItemsOk) (g : Gross) : (x.weighed g).ItemsOk :=
  ⟨h.holds, h.bare, h.idRead, h.leaveT, h.settleT, h.light, h.former, h.cause, h.survey⟩

theorem OrdPos.ItemsOk.leave (h : x.ItemsOk) (was : x.state = .arrived ∨ x.state = .active ∨ x.state = .occupied)
    (t : Nat) : (x.leave t).ItemsOk := by
  have settleT := h.settleT_none (by rcases was with e | e | e <;> simp [e])
  have former := h.former_none (by rcases was with e | e | e <;> simp [e])
  have cause := h.cause_none (by rcases was with e | e | e <;> simp [e])
  have survey := h.survey_none (by rcases was with e | e | e <;> simp [e]) (by rcases was with e | e | e <;> simp [e])
  constructor <;> simp [OrdPos.leave, OrdState.holds, settleT, former, cause, survey]

theorem OrdPos.ItemsOk.registered (h : x.ItemsOk) (was : x.state = .empty ∨ x.state = .occupied) (r : Rec)
    (pr : Profile) (cs : List (Nat × Nat)) : (registered x r pr cs).ItemsOk := by
  have leaveT := h.leaveT_none (by rcases was with e | e <;> simp [e])
  have settleT := h.settleT_none (by rcases was with e | e <;> simp [e])
  have light := h.light_off (by rcases was with e | e <;> simp [e])
  have former := h.former_none (by rcases was with e | e <;> simp [e])
  have cause := h.cause_none (by rcases was with e | e <;> simp [e])
  have survey := h.survey_none (by rcases was with e | e <;> simp [e]) (by rcases was with e | e <;> simp [e])
  unfold Machine.registered
  split
  · constructor <;> simp [OrdState.holds, leaveT, settleT, light, former, cause, survey]
  · constructor <;> simp [OrdState.holds, leaveT, settleT, light, former, cause, survey]
  · next other =>
    have idRead := h.idRead_none fun e => by
      cases latest : x.latest with
      | none => simp_all
      | some g => simp_all
    constructor <;> simp [OrdState.holds, leaveT, settleT, light, former, cause, survey, idRead]

theorem OrdPos.ItemsOk.tick (h : x.ItemsOk) : x.tick.ItemsOk where
  holds := h.holds
  bare := h.bare
  idRead := h.idRead
  leaveT := fun run => h.leaveT (by simpa [OrdPos.tick] using run)
  settleT := fun run => h.settleT (by simpa [OrdPos.tick] using run)
  light := h.light
  former := h.former
  cause := h.cause
  survey := fun run => h.survey (by simpa [OrdPos.tick] using run)

/-- The end of its survey leaves an order position with the items of its new state (R61, R162). -/
theorem OrdPos.ItemsOk.judged (h : x.ItemsOk) (at' : x.state = .closed ∨ x.state = .faulted) (ended : x.surveyT = none)
    (e : SurveyEnd) (ta : Nat) : (x.judged e ta).ItemsOk := by
  obtain ⟨idRead, leaveT, settleT, light⟩ := h.bare_of_survey at'
  have failed : ∀ c, (x.surveyFailed c).ItemsOk := fun c => by
    constructor <;> simp [OrdPos.surveyFailed, OrdState.holds, idRead, leaveT, settleT, light]
  cases e with
  | failed c => exact failed c
  | source f l => exact failed .kind
  | order t g =>
    unfold OrdPos.judged OrdPos.recovered
    dsimp only
    split
    · next none =>
      split
      · constructor <;> simp [OrdPos.reopened, OrdState.holds, idRead, leaveT, settleT, light, ended, none]
      · constructor <;> simp [OrdPos.reopened, OrdState.holds, leaveT, settleT, light, ended, none]
    · next r some =>
      split
      · split
        · constructor <;>
            simp [OrdPos.reopened, OrdPos.withoutRecord, OrdState.holds, leaveT, settleT, light, ended]
        · constructor <;> simp [OrdPos.reopened, OrdState.holds, idRead, leaveT, settleT, light, ended]
      · split
        · constructor <;>
            simp [OrdPos.reopened, OrdPos.withoutRecord, OrdState.holds, leaveT, settleT, light, ended]
        · split
          · split
            · constructor <;> simp [OrdPos.reopened, OrdState.holds, idRead, leaveT, settleT, light, ended]
            · constructor <;> simp [OrdPos.reopened, OrdState.holds, idRead, leaveT, settleT, light, ended, some]
          · split
            · constructor <;> simp [OrdPos.reopened, OrdState.holds, idRead, leaveT, settleT, light, ended]
            · constructor <;> simp [OrdPos.reopened, OrdState.holds, idRead, leaveT, settleT, light, ended]

end

end Sys2Proof.Machine

namespace Sys2Proof.Machine

/-!
The profile and its image stay in their ranges (R145, R147): what a setting and a spoiled store can leave, and the ladder
after a grant (R45).
-/

/-! ## Settings -/

/-- Every field stands in the list of R145. -/
theorem mem_profileFields (f : ProfileField) : f ∈ profileFields := by cases f <;> decide

theorem Profile.inRange_iff (p : Profile) : p.inRange = true ↔
    (∀ (f : ProfileField) (lo hi n : Nat), f.range = some (lo, hi) → f.read p = .num n → lo ≤ n ∧ n ≤ hi) ∧
      (∀ i : Fin 4, p.laneDepth[i] ≤ 1) ∧ isLadder p.ladder = true ∧ p.lock ≠ .shift := by
  have nums : (profileFields.all fun f =>
      match f.range, f.read p with
      | some (lo, hi), .num n => decide (lo ≤ n) && decide (n ≤ hi)
      | _, _ => true) = true ↔
      ∀ (f : ProfileField) (lo hi n : Nat), f.range = some (lo, hi) → f.read p = .num n → lo ≤ n ∧ n ≤ hi := by
    rw [List.all_eq_true]
    constructor
    · intro h f lo hi n range read
      have hf := h f (mem_profileFields f)
      rw [range, read] at hf
      simpa using hf
    · intro h f _
      split
      · next range read => simpa using h f _ _ _ range read
      · rfl
  have depths : (srcIndices.all fun i => decide (p.laneDepth[i] ≤ 1)) = true ↔ ∀ i : Fin 4, p.laneDepth[i] ≤ 1 := by
    rw [List.all_eq_true]
    exact ⟨fun h i => of_decide_eq_true (h i (mem_srcIndices i)), fun h i _ => decide_eq_true (h i)⟩
  unfold Profile.inRange
  rw [Bool.and_eq_true, Bool.and_eq_true, Bool.and_eq_true, depths, bne_iff_ne]
  constructor
  · rintro ⟨⟨⟨a, b⟩, c⟩, d⟩
    exact ⟨nums.mp a, b, c, d⟩
  · rintro ⟨a, b, c, d⟩
    exact ⟨⟨⟨nums.mpr a, b⟩, c⟩, d⟩

theorem Profile.inRange_default : ({} : Profile).inRange = true := by decide

/-- A number stored in a numeric field is what that field reads, and no other field changes (R147). -/
theorem read_setNum {f : ProfileField} (num : f.range.isSome = true) (g : ProfileField) (n : Nat) (p : Profile) :
    g.read (f.setNum n p) = if g = f then .num n else g.read p := by
  cases f with
  | coldCapable | laneDepth | ladder | rotate | coldAlternation | mask | lock => exact absurd num (by decide)
  | _ => cases g <;> rfl

theorem setNum_ladder (f : ProfileField) (n : Nat) (p : Profile) : (f.setNum n p).ladder = p.ladder := by
  cases f <;> rfl

theorem setNum_lock (f : ProfileField) (n : Nat) (p : Profile) : (f.setNum n p).lock = p.lock := by
  cases f <;> rfl

theorem setNum_laneDepth (f : ProfileField) (n : Nat) (p : Profile) : (f.setNum n p).laneDepth = p.laneDepth := by
  cases f <;> rfl

theorem range_le {f : ProfileField} {lo hi : Nat} (h : f.range = some (lo, hi)) : lo ≤ hi := by
  cases f <;> simp only [ProfileField.range, Option.some.injEq, Prod.mk.injEq, reduceCtorEq] at h <;> omega

theorem lockOf_ne_shift {b : Byte} {l : Lock} (h : lockOf b = some l) : l ≠ .shift := by
  unfold lockOf at h
  split at h
  · cases h; simp
  · split at h
    · cases h; simp
    · split at h
      · cases h; simp
      · cases h

/-- New values of the fields without a numeric range leave the profile in range when they are in theirs. -/
theorem Profile.inRange_enumerated {p : Profile} (ok : p.inRange = true) {cold : Vector Bool 4} {depths : Vector Nat 4}
    {l : List ReqClass} {rot alt : Bool} {m : Mask} {k : Lock} (depth : ∀ i : Fin 4, depths[i] ≤ 1)
    (ladder : isLadder l = true) (lock : k ≠ .shift) :
    ({ p with coldCapable := cold, laneDepth := depths, ladder := l, rotate := rot, coldAlternation := alt, mask := m,
              lock := k } : Profile).inRange = true := by
  obtain ⟨nums, -⟩ := (inRange_iff p).mp ok
  refine (inRange_iff _).mpr ⟨fun f lo hi v range read => nums f lo hi v range ?_, depth, ladder, lock⟩
  rw [← read]
  cases f <;> simp_all [ProfileField.range, ProfileField.read]

theorem toNat_bool_le (b : Bool) : b.toNat ≤ 1 := by cases b <;> decide

/-- Whatever a PROFILE-SET stores lies in its range (R147). -/
theorem store_inRange {f : ProfileField} {v : List Byte} {p p' : Profile} {c : Bool} (h : f.store v p = some (p', c))
    (ok : p.inRange = true) : p'.inRange = true := by
  obtain ⟨nums, depth, ladder, lock⟩ := (Profile.inRange_iff p).mp ok
  unfold ProfileField.store at h
  split at h
  · next lo hi range =>
    simp only [Option.some.injEq, Prod.mk.injEq] at h
    obtain ⟨rfl, -⟩ := h
    have num : f.range.isSome = true := by rw [range]; rfl
    refine (Profile.inRange_iff _).mpr ⟨fun g lo' hi' n range' read => ?_, ?_, ?_, ?_⟩
    · rw [read_setNum num] at read
      split at read
      · next same =>
        subst same
        cases range.symm.trans range'
        cases read
        exact clampTo_bounds (range_le range)
      · exact nums g lo' hi' n range' read
    · rw [setNum_laneDepth]; exact depth
    · rw [setNum_ladder]; exact ladder
    · rw [setNum_lock]; exact lock
  · split at h
    · cases h; exact Profile.inRange_enumerated ok depth ladder lock
    · next a b c d _ =>
      cases h
      refine Profile.inRange_enumerated ok (fun i => ?_) ladder lock
      fin_cases i <;> exact toNat_bool_le _
    · cases h; exact Profile.inRange_enumerated ok depth ladder lock
    · cases h; exact Profile.inRange_enumerated ok depth ladder lock
    · cases h; exact Profile.inRange_enumerated ok depth ladder lock
    · dsimp only at h
      split at h
      · next is =>
        cases h
        exact Profile.inRange_enumerated ok depth is lock
      · cases h
    · simp only [Option.map_eq_some_iff, Prod.mk.injEq] at h
      obtain ⟨l, hl, rfl, -⟩ := h
      exact Profile.inRange_enumerated ok depth ladder
        (lockOf_ne_shift hl)
    · cases h

/-- What an image holds after a spoiled store lies in the ranges too (log entry 39). -/
theorem spoiledImage_inRange (n : Nat) {p : Profile} (ok : p.inRange = true) : (spoiledImage n p).inRange = true := by
  have field : ∀ (p : Profile) (f : ProfileField), p.inRange = true → (spoilField n p f).inRange = true := by
    intro p f ok
    unfold spoilField
    split
    · next e => exact store_inRange e ok
    · exact ok
  unfold spoiledImage
  induction profileFields generalizing p with
  | nil => exact ok
  | cons f fs ih => exact ih (field p f ok)

/-! ## The running ladder (R45) -/

/-- A ladder with a class moved to the bottom names the same classes (R45). -/
theorem isLadder_rotated {l : List ReqClass} (h : isLadder l = true) (c : ReqClass) : isLadder (rotated c l) = true := by
  simp only [isLadder, Bool.and_eq_true, decide_eq_true_eq] at h
  obtain ⟨len, all⟩ := h
  match l, len with
  | [a, b, d, e], _ =>
    revert all
    cases a <;> cases b <;> cases d <;> cases e <;> cases c <;> decide

theorem isLadder_afterGrant {a : Arbiter} (h : isLadder a.ladder = true) (rotate : Bool) (c : ReqClass) (t : Temp) :
    isLadder (a.afterGrant rotate c t).ladder = true := by
  cases rotate
  · exact h
  · exact isLadder_rotated h c

/-! ## The profile store, update by update (R144, R150, R151) -/

theorem ProfileStore.started_profile (k : Bool) (x : ProfileStore) :
    (x.started k).profile = if (x.started k).imageValid then x.image else {} := by
  unfold ProfileStore.started ProfileStore.loadedFrom
  dsimp only
  rw [ProfileStore.abandoned_image]

/-- The state a start-up leaves keeps the profile invariant. -/
theorem startUp_profileOk (k : Bool) {s : State} (ok : s.profileOk) : (startUp k s).profileOk := by
  have frame := startUp_frame k s
  have prof : (startUp k s).prof = s.prof.started k := frame.prof
  have arb : (startUp k s).arb = { ladder := (s.prof.started k).profile.ladder } := frame.arb
  obtain ⟨-, image, -⟩ := ok
  have range : (s.prof.started k).profile.inRange = true := by
    rw [ProfileStore.started_profile]
    split
    · exact image
    · exact Profile.inRange_default
  refine ⟨prof ▸ range, by rw [prof, ProfileStore.started_image]; exact image, ?_, by rw [prof]; rfl, ?_, ?_⟩
  · rw [arb]; exact ((Profile.inRange_iff _).mp range).2.2.1
  · rw [prof, ProfileStore.started_imageValid, ProfileStore.started_image, ProfileStore.started_check]
    intro valid
    simp only [Bool.and_eq_true, Bool.not_eq_true', beq_iff_eq] at valid
    obtain ⟨idle, agrees⟩ := valid
    simp [ProfileStore.abandoned, idle, agrees]
  · rw [prof, ProfileStore.started_storing]
    intro e; cases e

/-- The profile store at the completion of a store that was in progress (R151). -/
theorem completed_profileOk (o : StoreOutcome) {s : State} (storing : s.prof.storing = true) (ok : s.profileOk) :
    (setProf (s.prof.completed o) s).profileOk := by
  obtain ⟨range, image, ladder, -, -, store⟩ := ok
  obtain ⟨-, -, check⟩ := store storing
  cases o with
  | ok => exact ⟨range, image, ladder, rfl, fun _ => check, fun e => (by cases e)⟩
  | failed => exact ⟨range, spoiledImage_inRange _ range, ladder, rfl, fun e => (by cases e), fun e => (by cases e)⟩

end Sys2Proof.Machine

namespace Sys2Proof.Machine

/-!
The invariants that need nothing but themselves (R1, R5, R6, R22, R23, R60, R139, R145, R157): one relation holds them, it is
closed under the plain updates, and so every command and every step keeps them.
-/

/-- The invariants kept from one state to a later one. -/
structure Keeps (s t : State) : Prop where
  slots : s.slotsOk → t.slotsOk
  drained : s.drainedOk → t.drainedOk
  wall : s.wallOk → t.wallOk
  lines : s.linesOk → t.linesOk
  profile : s.profileOk → t.profileOk
  puts : s.putListsOk → t.putListsOk

theorem Keeps.refl (s : State) : Keeps s s := ⟨id, id, id, id, id, id⟩

theorem Keeps.trans {s t u : State} (h : Keeps s t) (k : Keeps t u) : Keeps s u :=
  ⟨fun x => k.slots (h.slots x), fun x => k.drained (h.drained x), fun x => k.wall (h.wall x),
    fun x => k.lines (h.lines x), fun x => k.profile (h.profile x), fun x => k.puts (h.puts x)⟩

/-! ## One part changes, the others stay -/

theorem State.slotsOk_congr {s t : State} (h : t.src = s.src) (ok : s.slotsOk) : t.slotsOk := fun p => by
  simpa only [h] using ok p

theorem State.drainedOk_congr {s t : State} (h : t.src = s.src) (m : t.bench.mode = s.bench.mode) (ok : s.drainedOk) :
    t.drainedOk := fun e p => by
  simpa only [h] using ok (m ▸ e) p

theorem State.wallOk_congr {s t : State} (h : t.wall.pos = s.wall.pos) (ok : s.wallOk) : t.wallOk := fun q => by
  simpa only [h] using ok q

theorem State.linesOk_congr {s t : State} (h : t.lines = s.lines) (ok : s.linesOk) : t.linesOk := fun i => by
  simpa only [h] using ok i

theorem State.profileOk_congr {s t : State} (h : t.prof = s.prof) (a : t.arb = s.arb) (ok : s.profileOk) :
    t.profileOk := by
  unfold State.profileOk at *
  rwa [h, a]

theorem State.putListsOk_congr {s t : State} (h : t.offers = s.offers) (ok : s.putListsOk) : t.putListsOk := by
  unfold State.putListsOk at *
  rwa [h]

/-- An update of the parts that no invariant here speaks of. -/
theorem Keeps.same {s t : State} (src : t.src = s.src) (wall : t.wall.pos = s.wall.pos) (lines : t.lines = s.lines)
    (mode : t.bench.mode = s.bench.mode) (offers : t.offers = s.offers) (arb : t.arb = s.arb) (prof : t.prof = s.prof) :
    Keeps s t :=
  ⟨State.slotsOk_congr src, State.drainedOk_congr src mode, State.wallOk_congr wall, State.linesOk_congr lines,
    State.profileOk_congr prof arb, State.putListsOk_congr offers⟩

/-- An update of one source position that keeps it in step with R22 and R23, and EMPTY while DRAINED. -/
theorem Keeps.src {p : Fin 4} {f : SrcPos → SrcPos} {s : State} (keep : s.src[p].SlotsOk → (f s.src[p]).SlotsOk)
    (empty : s.bench.mode = .drained → s.src[p].bothEmpty = true → (f s.src[p]).bothEmpty = true) :
    Keeps s (modSrc p f s) where
  slots ok p' := by
    rw [modSrc_getElem]
    split
    · next e => subst e; exact (SrcPos.slotsOk_iff _).mpr (keep ((SrcPos.slotsOk_iff _).mp (ok p)))
    · exact ok p'
  drained ok m p' := by
    rw [modSrc_getElem]
    split
    · next e => subst e; exact empty m (ok m p)
    · exact ok m p'
  wall := id
  lines := id
  profile := id
  puts := id

/-- An update of one order position that keeps its items in their states. -/
theorem Keeps.ord {q : Fin 12} {f : OrdPos → OrdPos} {s : State} (keep : s.wall.pos[q].ItemsOk → (f s.wall.pos[q]).ItemsOk) :
    Keeps s (modOrd q f s) where
  slots := id
  drained := id
  wall ok q' := by
    rw [modOrd_getElem]
    split
    · next e => subst e; exact (OrdPos.itemsOk_iff _).mpr (keep ((OrdPos.itemsOk_iff _).mp (ok q)))
    · exact ok q'
  lines := id
  profile := id
  puts := id

/-- An update of one field line that keeps its timer and sequences. -/
theorem Keeps.line {i : Fin 16} {f : FieldLine → FieldLine} {s : State}
    (keep : s.lines[i].OrdersOk → (f s.lines[i]).OrdersOk) : Keeps s (modLine i f s) where
  slots := id
  drained := id
  wall := id
  lines ok j := by
    rw [modLine_getElem]
    split
    · next e => subst e; exact (FieldLine.ordersOk_iff _).mpr (keep ((FieldLine.ordersOk_iff _).mp (ok i)))
    · exact ok j
  profile := id
  puts := id

/-- An update of the offer list, or of the profile or the ladder, that keeps what belongs to it. -/
theorem Keeps.rest {s t : State} (src : t.src = s.src) (wall : t.wall.pos = s.wall.pos) (lines : t.lines = s.lines)
    (mode : t.bench.mode = s.bench.mode) (profile : s.profileOk → t.profileOk) (puts : s.putListsOk → t.putListsOk) :
    Keeps s t :=
  ⟨State.slotsOk_congr src, State.drainedOk_congr src mode, State.wallOk_congr wall, State.linesOk_congr lines,
    profile, puts⟩

/-- An offer list made of old records with the lines they had. -/
theorem State.putListsOk_of_lines {s t : State} (h : ∀ o ∈ t.offers, ∃ o' ∈ s.offers, o.lines = o'.lines)
    (ok : s.putListsOk) : t.putListsOk := fun o ho l hl => by
  obtain ⟨o', ho', e⟩ := h o ho
  exact ok o' ho' l (e ▸ hl)

/-! ## Slots that stay EMPTY -/

theorem SrcPos.bothEmpty_iff (x : SrcPos) : x.bothEmpty = true ↔ x.face.state = .empty ∧ x.lane.state = .empty := by
  rw [SrcPos.bothEmpty, Bool.and_eq_true, beq_iff_eq, beq_iff_eq]

/-- A guard that asks for a slot in use is not met where both are EMPTY. -/
theorem SrcPos.not_face_of_bothEmpty {x : SrcPos} (h : x.bothEmpty = true) {st : FaceState} (e : x.face.state = st)
    (ne : st ≠ .empty) : False := ne (e.symm.trans ((bothEmpty_iff x).mp h).1)

theorem SrcPos.not_lane_of_bothEmpty {x : SrcPos} (h : x.bothEmpty = true) {st : LaneState} (e : x.lane.state = st)
    (ne : st ≠ .empty) : False := ne (e.symm.trans ((bothEmpty_iff x).mp h).2)

theorem SrcPos.bothEmpty_emptied {x : SrcPos} (h : x.bothEmpty = true) (sl : Slot) : (x.emptied sl).bothEmpty = true := by
  obtain ⟨f, l⟩ := (bothEmpty_iff x).mp h
  cases sl
  · exact (bothEmpty_iff _).mpr ⟨rfl, l⟩
  · exact (bothEmpty_iff _).mpr ⟨f, rfl⟩

theorem SrcPos.bothEmpty_synced {x : SrcPos} (h : x.bothEmpty = true) (d : Nat) : (x.synced d).bothEmpty = true := by
  unfold SrcPos.synced
  split
  · exact h
  · exact h

theorem SrcPos.bothEmpty_diverted {x : SrcPos} (h : x.bothEmpty = true) (sl : Slot) :
    (x.diverted sl).bothEmpty = true := by
  cases sl with
  | face =>
    unfold SrcPos.diverted
    dsimp only
    split
    · exact bothEmpty_emptied h .face
    · exact h
  | lane =>
    unfold SrcPos.diverted
    dsimp only
    split
    · exact bothEmpty_emptied h .lane
    · exact h

theorem SrcPos.not_releasable_of_bothEmpty {x : SrcPos} (h : x.bothEmpty = true) {sl : Slot}
    (r : x.releasable sl = true) : False := by
  cases sl
  · exact not_face_of_bothEmpty h (beq_iff_eq.mp r) (by decide)
  · exact not_lane_of_bothEmpty h (beq_iff_eq.mp r) (by decide)

/-! ## Callability, orders, offers -/

/-- What a callable slot is like (R46). -/
theorem callable_iff {p : Fin 4} {sl : Slot} {s : State} : callable p sl s = true ↔
    s.bench.mode = .service ∧ s.picker.cond ≠ .held ∧ noticeCount s < Config.noticeThreshold ∧ s.src[p].state = .opn ∧
      match sl with
      | .face => s.src[p].face.state = .empty
      | .lane => s.src[p].depth = 1 ∧ s.src[p].face.state = .present ∧ s.src[p].lane.state = .empty := by
  unfold callable
  cases sl <;> simp [and_assoc, -Fin.getElem_fin]

theorem Keeps.hand (pos : Pos) (o : Order) (s : State) : Keeps s (handOrder pos o s) := by
  unfold handOrder
  split
  · exact Keeps.refl s
  · exact Keeps.line fun ok => ok.hand o false

theorem clearServed_fields (t : Nat) (s : State) :
    (clearServed t s).src = s.src ∧ (clearServed t s).wall = s.wall ∧ (clearServed t s).lines = s.lines ∧
      (clearServed t s).bench = s.bench ∧ (clearServed t s).offers = s.offers ∧ (clearServed t s).arb = s.arb ∧
      (clearServed t s).prof = s.prof ∧ (clearServed t s).link = s.link ∧ (clearServed t s).picker = s.picker ∧
      (clearServed t s).inputs = s.inputs ∧ (clearServed t s).pending = s.pending := by
  unfold clearServed
  split <;> exact ⟨rfl, rfl, rfl, rfl, rfl, rfl, rfl, rfl, rfl, rfl, rfl⟩

theorem Keeps.served (t : Nat) (s : State) : Keeps s (clearServed t s) := by
  obtain ⟨src, wall, lines, bench, offers, arb, prof, -⟩ := clearServed_fields t s
  exact Keeps.same src (by rw [wall]) lines (by rw [bench]) offers arb prof

theorem Keeps.offers {s : State} {offers : List Offer} (h : ∀ o ∈ offers, ∃ o' ∈ s.offers, o.lines = o'.lines) :
    Keeps s { s with offers := offers } :=
  Keeps.rest rfl rfl rfl rfl id (State.putListsOk_of_lines h)

theorem Keeps.modOffer {t : Nat} {f : Offer → Offer} {s : State} (h : ∀ o, (f o).lines = o.lines) :
    Keeps s (modOffer t f s) := by
  refine Keeps.offers fun o ho => ?_
  obtain ⟨o', ho', rfl⟩ := List.mem_map.mp ho
  refine ⟨o', ho', ?_⟩
  split
  · exact h o'
  · rfl

theorem Keeps.drop (t : Nat) (s : State) : Keeps s (dropOffer t s) := by
  refine Keeps.trans (Keeps.offers (offers := s.offers.filter fun o => o.tote != t) fun o ho => ?_) (Keeps.served t _)
  exact ⟨o, List.mem_of_mem_filter ho, rfl⟩

theorem mem_modify {α : Type} {f : α → α} {i : Nat} {l : List α} {x : α} (h : x ∈ l.modify i f) :
    x ∈ l ∨ ∃ y ∈ l, x = f y := by
  obtain ⟨j, hj, rfl⟩ := List.mem_iff_getElem.mp h
  rw [List.length_modify] at hj
  rw [List.getElem_modify]
  split
  · exact .inr ⟨_, List.getElem_mem hj, rfl⟩
  · exact .inl (List.getElem_mem hj)

/-- Writing accepted units into a line keeps its put list adding up (R6). -/
theorem Keeps.writeLine {c : Cycle} {f : OLine → OLine} {s : State}
    (h : ∀ l, (f l).fixed = l.fixed ∧ (f l).done = l.done ∧ (f l).puts = l.puts) : Keeps s (writeLine c f s) := by
  refine Keeps.rest rfl rfl rfl rfl id fun ok o ho l hl => ?_
  obtain ⟨o', ho', rfl⟩ := List.mem_map.mp ho
  split at hl
  · rcases mem_modify hl with old | ⟨l', hl', rfl⟩
    · exact ok o' ho' l old
    · obtain ⟨-, done, puts⟩ := h (l'.accept c.tgtTote c.comp c.acc)
      have accepted := OLine.putsOk_accept (ok o' ho' l' hl') c.tgtTote c.comp c.acc
      unfold OLine.putsOk at *
      rw [done, puts]
      exact accepted
  · exact ok o' ho' l hl

/-! ## The end of a survey -/

/-- The source position a survey of it ends with (R25, R160). -/
def SrcPos.judged (e : SurveyEnd) (time : Nat) (x : SrcPos) : SrcPos :=
  match e with
  | .failed c => x.blank .faulted (some c)
  | .order _ _ => x.blank .faulted (some .kind)
  | .source f l =>
    { x with
      state := .opn
      cause := none
      face :=
        match f with
        | some id => { state := .leaving, idRead := id, leaveT := some time }
        | none => if l.isSome then { state := .settling } else {}
      lane :=
        match l with
        | some id => { state := .leaving, idRead := id, leaveT := some time }
        | none => {} }

theorem handOrder_frame (pos : Pos) (o : Order) (s : State) :
    (handOrder pos o s).src = s.src ∧ (handOrder pos o s).wall = s.wall ∧ (handOrder pos o s).bench = s.bench ∧
      (handOrder pos o s).offers = s.offers ∧ (handOrder pos o s).arb = s.arb ∧ (handOrder pos o s).prof = s.prof ∧
      (handOrder pos o s).put = s.put ∧ (handOrder pos o s).picker = s.picker ∧ (handOrder pos o s).link = s.link ∧
      (handOrder pos o s).inputs = s.inputs ∧ (handOrder pos o s).pending = s.pending := by
  unfold handOrder
  split <;> exact ⟨rfl, rfl, rfl, rfl, rfl, rfl, rfl, rfl, rfl, rfl, rfl⟩

@[simp] theorem handOrder_src (pos : Pos) (o : Order) (s : State) : (handOrder pos o s).src = s.src :=
  (handOrder_frame pos o s).1
@[simp] theorem handOrder_wall (pos : Pos) (o : Order) (s : State) : (handOrder pos o s).wall = s.wall :=
  (handOrder_frame pos o s).2.1
@[simp] theorem handOrder_bench (pos : Pos) (o : Order) (s : State) : (handOrder pos o s).bench = s.bench :=
  (handOrder_frame pos o s).2.2.1
@[simp] theorem handOrder_offers (pos : Pos) (o : Order) (s : State) : (handOrder pos o s).offers = s.offers :=
  (handOrder_frame pos o s).2.2.2.1
@[simp] theorem handOrder_arb (pos : Pos) (o : Order) (s : State) : (handOrder pos o s).arb = s.arb :=
  (handOrder_frame pos o s).2.2.2.2.1
@[simp] theorem handOrder_prof (pos : Pos) (o : Order) (s : State) : (handOrder pos o s).prof = s.prof :=
  (handOrder_frame pos o s).2.2.2.2.2.1
@[simp] theorem handOrder_put (pos : Pos) (o : Order) (s : State) : (handOrder pos o s).put = s.put :=
  (handOrder_frame pos o s).2.2.2.2.2.2.1
@[simp] theorem handOrder_picker (pos : Pos) (o : Order) (s : State) : (handOrder pos o s).picker = s.picker :=
  (handOrder_frame pos o s).2.2.2.2.2.2.2.1
@[simp] theorem handOrder_link (pos : Pos) (o : Order) (s : State) : (handOrder pos o s).link = s.link :=
  (handOrder_frame pos o s).2.2.2.2.2.2.2.2.1
@[simp] theorem handOrder_inputs (pos : Pos) (o : Order) (s : State) : (handOrder pos o s).inputs = s.inputs :=
  (handOrder_frame pos o s).2.2.2.2.2.2.2.2.2.1
@[simp] theorem handOrder_pending (pos : Pos) (o : Order) (s : State) : (handOrder pos o s).pending = s.pending :=
  (handOrder_frame pos o s).2.2.2.2.2.2.2.2.2.2

theorem releaseUnknown_src (p p' : Fin 4) (sl : Slot) (id : Option Nat) (s : State) :
    (releaseUnknown p sl id s).src[p'] =
      if p = p' then s.src[p'].leaving sl none id (s.prof.profile.leaveTimeout * 10) else s.src[p'] := by
  unfold releaseUnknown
  simp only [notify_src, handOrder_src, modSrc_getElem]

theorem releaseUnknown_prof (p : Fin 4) (sl : Slot) (id : Option Nat) (s : State) :
    (releaseUnknown p sl id s).prof = s.prof := by
  unfold releaseUnknown
  simp only [notify_prof, handOrder_prof, modSrc_prof]

theorem surveyFailedSrc_src (p p' : Fin 4) (c : Cause) (s : State) :
    (surveyFailedSrc p c s).src[p'] = if p = p' then s.src[p'].blank .faulted (some c) else s.src[p'] := by
  have src : (surveyFailedSrc p c s).src = (modSrc p (fun x => x.blank .faulted (some c)) s).src := by
    unfold surveyFailedSrc
    dsimp only
    split
    · rfl
    · exact notifySrc_src ..
  rw [src, modSrc_getElem]

theorem surveyedSrc_src (p p' : Fin 4) (f l : Option (Option Nat)) (s : State) :
    (surveyedSrc p f l s).src[p'] =
      if p = p' then s.src[p'].judged (.source f l) (s.prof.profile.leaveTimeout * 10) else s.src[p'] := by
  by_cases h : p = p'
  · subst h
    cases f <;> cases l <;>
      simp [surveyedSrc, releaseFound, releaseUnknown_src, releaseUnknown_prof, SrcPos.judged, SrcPos.blank,
        SrcPos.leaving, SrcPos.waitLane, -Fin.getElem_fin, -modSrc_src]
  · rw [if_neg h]
    cases f <;> cases l <;>
      simp [surveyedSrc, releaseFound, releaseUnknown_src, modSrc_getElem, h, -Fin.getElem_fin, -modSrc_src]

/-- The end of the survey of a source position changes that position alone. -/
theorem applySurvey_src (p p' : Fin 4) (e : SurveyEnd) (s : State) :
    (applySurvey (.src p) e s).src[p'] =
      if p = p' then s.src[p'].judged e (s.prof.profile.leaveTimeout * 10) else s.src[p'] := by
  cases e with
  | failed c => exact surveyFailedSrc_src p p' c s
  | source f l => exact surveyedSrc_src p p' f l s
  | order t g => exact surveyFailedSrc_src p p' .kind s

/-- The end of its survey leaves a source position as R22 and R23 allow it. -/
theorem SrcPos.slotsOk_judged {x : SrcPos} (ended : x.surveyT = none) (e : SurveyEnd) (time : Nat)
    (depth : ∀ f l, e = .source f l → x.depth = 0 → l = none) : (x.judged e time).SlotsOk := by
  cases e with
  | failed c => exact slotsOk_blank (by simp) (.inr (.inr rfl))
  | order t g => exact slotsOk_blank (by simp) (.inr (.inr rfl))
  | source f l =>
    refine ⟨by simp [SrcPos.judged], by simp [SrcPos.judged], ?_, fun d => ?_, ?_, ?_, by simp [SrcPos.judged, ended]⟩
    · cases f <;> cases l <;> rfl
    · rw [depth f l rfl d]; rfl
    · cases f with
      | none => cases l <;> rfl
      | some i => simp [SrcPos.judged, Face.ok, Face.timersOk, Face.namesOk]
    · cases l with
      | none => rfl
      | some i => simp [SrcPos.judged, Lane.ok, Lane.timersOk, Lane.namesOk]

end Sys2Proof.Machine

namespace Sys2Proof.Machine

/-!
The relation `Keeps` is closed under the plain updates; the invariants of every step that need nothing but themselves.
-/

/-! ## The end of a survey -/

/-- What the end of a survey leaves alone, positions and notices apart. -/
structure SurveyApart (s t : State) : Prop where
  lines : s.linesOk → t.linesOk
  offers : t.offers = s.offers
  arb : t.arb = s.arb
  prof : t.prof = s.prof
  put : t.put = s.put
  picker : t.picker = s.picker
  bench : t.bench = s.bench

theorem SurveyApart.refl (s : State) : SurveyApart s s := ⟨id, rfl, rfl, rfl, rfl, rfl, rfl⟩

theorem SurveyApart.trans {s t u : State} (h : SurveyApart s t) (k : SurveyApart t u) : SurveyApart s u :=
  ⟨fun x => k.lines (h.lines x), k.offers.trans h.offers, k.arb.trans h.arb, k.prof.trans h.prof, k.put.trans h.put,
    k.picker.trans h.picker, k.bench.trans h.bench⟩

theorem notify_apart (b : NoticeBody) (s : State) : SurveyApart s (notify b s) :=
  ⟨State.linesOk_congr (notify_lines ..), notify_offers .., notify_arb .., notify_prof .., notify_put ..,
    notify_picker .., notify_bench ..⟩

theorem notifySrc_apart (p : Fin 4) (s : State) : SurveyApart s (notifySrc p s) := notify_apart ..

theorem modSrc_apart (p : Fin 4) (f : SrcPos → SrcPos) (s : State) : SurveyApart s (modSrc p f s) :=
  ⟨id, rfl, rfl, rfl, rfl, rfl, rfl⟩

theorem modOrd_apart (q : Fin 12) (f : OrdPos → OrdPos) (s : State) : SurveyApart s (modOrd q f s) :=
  ⟨id, rfl, rfl, rfl, rfl, rfl, rfl⟩

theorem modLine_apart {i : Fin 16} {f : FieldLine → FieldLine} {s : State}
    (keep : s.lines[i].OrdersOk → (f s.lines[i]).OrdersOk) : SurveyApart s (modLine i f s) :=
  ⟨(Keeps.line keep).lines, rfl, rfl, rfl, rfl, rfl, rfl⟩

theorem clearLine_apart (pos : Pos) (s : State) : SurveyApart s (clearLine pos s) :=
  modLine_apart FieldLine.OrdersOk.emptied

theorem handOrder_apart (pos : Pos) (o : Order) (s : State) : SurveyApart s (handOrder pos o s) :=
  ⟨(Keeps.hand pos o s).lines, handOrder_offers .., handOrder_arb .., handOrder_prof .., handOrder_put ..,
    handOrder_picker .., handOrder_bench ..⟩

theorem stopSurvey_apart (pos : Pos) (s : State) : SurveyApart s (stopSurvey pos s) := by
  cases pos
  · exact (modSrc_apart ..).trans (modLine_apart FieldLine.OrdersOk.dropSurvey)
  · exact (modOrd_apart ..).trans (modLine_apart FieldLine.OrdersOk.dropSurvey)

theorem releaseFound_apart (p : Fin 4) (sl : Slot) (x : Option (Option Nat)) (s : State) :
    SurveyApart s (releaseFound p sl x s) := by
  unfold releaseFound releaseUnknown
  split
  · exact SurveyApart.refl s
  · exact (modSrc_apart ..).trans ((handOrder_apart ..).trans (notify_apart ..))

theorem surveyFailedSrc_apart (p : Fin 4) (c : Cause) (s : State) : SurveyApart s (surveyFailedSrc p c s) := by
  unfold surveyFailedSrc
  have h := (modSrc_apart p (fun x => x.blank .faulted (some c)) s).trans (clearLine_apart (.src p) _)
  dsimp only
  split
  · exact h
  · exact h.trans (notify_apart ..)

theorem surveyFailedOrd_apart (q : Fin 12) (c : Cause) (s : State) : SurveyApart s (surveyFailedOrd q c s) := by
  unfold surveyFailedOrd
  have h := (modOrd_apart q (OrdPos.surveyFailed c) s).trans (clearLine_apart (.ord q) _)
  dsimp only
  split
  · exact h
  · exact h.trans (notify_apart ..)

theorem surveyedSrc_apart (p : Fin 4) (f l : Option (Option Nat)) (s : State) :
    SurveyApart s (surveyedSrc p f l s) := by
  unfold surveyedSrc
  have h := (modSrc_apart p (fun x => x.blank .opn none) s).trans
    ((notifySrc_apart p _).trans (releaseFound_apart p .face f _))
  dsimp only
  split
  · exact h.trans ((modSrc_apart ..).trans (releaseFound_apart ..))
  · exact h.trans (releaseFound_apart ..)

theorem reopenOrd_apart (q : Fin 12) (st : OrdState) (g : Gross) (f : OrdPos → OrdPos) (s : State) :
    SurveyApart s (reopenOrd q st g f s) := (modOrd_apart ..).trans (notify_apart ..)

theorem giveUpRecord_apart (q : Fin 12) (i : Option Nat) (s : State) : SurveyApart s (giveUpRecord q i s) := by
  refine SurveyApart.trans ?_ (modOrd_apart ..)
  unfold notifyReleased
  split
  · exact notify_apart ..
  · exact notify_apart ..

theorem surveyedOrd_apart (q : Fin 12) (t : Option (Option Nat)) (g : Gross) (s : State) :
    SurveyApart s (surveyedOrd q t g s) := by
  unfold surveyedOrd
  split
  · split
    · exact reopenOrd_apart ..
    · exact reopenOrd_apart ..
  · dsimp only
    split
    · split
      · exact (reopenOrd_apart ..).trans (giveUpRecord_apart ..)
      · exact (reopenOrd_apart ..).trans (notify_apart ..)
    · split
      · exact (reopenOrd_apart ..).trans (giveUpRecord_apart ..)
      · split
        · split
          · exact (reopenOrd_apart ..).trans (notify_apart ..)
          · exact reopenOrd_apart ..
        · split
          · exact (reopenOrd_apart ..).trans (notify_apart ..)
          · exact reopenOrd_apart ..

theorem applySurvey_apart (pos : Pos) (e : SurveyEnd) (s : State) : SurveyApart s (applySurvey pos e s) := by
  unfold applySurvey
  split
  · exact surveyFailedSrc_apart ..
  · exact surveyedSrc_apart ..
  · exact surveyFailedSrc_apart ..
  · exact surveyFailedOrd_apart ..
  · exact surveyedOrd_apart ..
  · exact surveyFailedOrd_apart ..

/-! A survey of a source position leaves the wall alone, and one of an order position the source positions. -/

@[simp] theorem releaseUnknown_wall (p : Fin 4) (sl : Slot) (id : Option Nat) (s : State) :
    (releaseUnknown p sl id s).wall = s.wall := by
  unfold releaseUnknown
  simp only [notify_wall, handOrder_wall, modSrc_wall]

@[simp] theorem releaseFound_wall (p : Fin 4) (sl : Slot) (x : Option (Option Nat)) (s : State) :
    (releaseFound p sl x s).wall = s.wall := by
  unfold releaseFound
  split
  · rfl
  · exact releaseUnknown_wall ..

theorem surveyFailedSrc_wall (p : Fin 4) (c : Cause) (s : State) : (surveyFailedSrc p c s).wall = s.wall := by
  unfold surveyFailedSrc
  dsimp only
  split
  · rfl
  · exact notifySrc_wall ..

theorem applySurvey_src_wall (p : Fin 4) (e : SurveyEnd) (s : State) : (applySurvey (.src p) e s).wall = s.wall := by
  cases e with
  | failed c => exact surveyFailedSrc_wall ..
  | order t g => exact surveyFailedSrc_wall ..
  | source f l =>
    show (surveyedSrc p f l s).wall = s.wall
    unfold surveyedSrc
    dsimp only
    split
    · simp only [releaseFound_wall, modSrc_wall, notifySrc_wall]
    · simp only [releaseFound_wall, modSrc_wall, notifySrc_wall]

@[simp] theorem reopenOrd_src (q : Fin 12) (st : OrdState) (g : Gross) (f : OrdPos → OrdPos) (s : State) :
    (reopenOrd q st g f s).src = s.src := by
  unfold reopenOrd
  rw [notifyOrd_src, modOrd_src]

@[simp] theorem giveUpRecord_src (q : Fin 12) (i : Option Nat) (s : State) : (giveUpRecord q i s).src = s.src := by
  unfold giveUpRecord notifyReleased
  rw [modOrd_src]
  split
  · exact notifyWall_src ..
  · exact notifyWall_src ..

theorem surveyFailedOrd_src (q : Fin 12) (c : Cause) (s : State) : (surveyFailedOrd q c s).src = s.src := by
  unfold surveyFailedOrd
  dsimp only
  split
  · rfl
  · exact notifyOrd_src ..

theorem applySurvey_ord_src (q : Fin 12) (e : SurveyEnd) (s : State) : (applySurvey (.ord q) e s).src = s.src := by
  cases e with
  | failed c => exact surveyFailedOrd_src ..
  | source f l => exact surveyFailedOrd_src ..
  | order t g =>
    show (surveyedOrd q t g s).src = s.src
    unfold surveyedOrd
    split
    · split
      · exact reopenOrd_src ..
      · exact reopenOrd_src ..
    · dsimp only
      split
      · split
        · simp only [giveUpRecord_src, reopenOrd_src]
        · simp only [notifyWall_src, reopenOrd_src]
      · split
        · simp only [giveUpRecord_src, reopenOrd_src]
        · split
          · split
            · simp only [notifyWall_src, reopenOrd_src]
            · exact reopenOrd_src ..
          · split
            · simp only [notifyWall_src, reopenOrd_src]
            · exact reopenOrd_src ..

theorem stopSurvey_src (p p' : Fin 4) (s : State) :
    (stopSurvey (.src p) s).src[p'] = if p = p' then s.src[p'].setSurvey none else s.src[p'] := modSrc_getElem ..

theorem stopSurvey_ord (q q' : Fin 12) (s : State) :
    (stopSurvey (.ord q) s).wall.pos[q'] = if q = q' then s.wall.pos[q'].setSurvey none else s.wall.pos[q'] :=
  modOrd_getElem ..

theorem reopenDrain_fields (pos : Pos) (s : State) :
    (reopenDrain pos s).src = s.src ∧ (reopenDrain pos s).wall = s.wall ∧ (reopenDrain pos s).lines = s.lines ∧
      (reopenDrain pos s).offers = s.offers ∧ (reopenDrain pos s).arb = s.arb ∧ (reopenDrain pos s).prof = s.prof ∧
      (reopenDrain pos s).put = s.put ∧ (reopenDrain pos s).picker = s.picker := by
  unfold reopenDrain setMode
  split
  · split
    · simp only [notify_src, notify_wall, notify_lines, notify_offers, notify_arb, notify_prof, notify_put,
        notify_picker]
      exact ⟨rfl, rfl, rfl, rfl, rfl, rfl, rfl, rfl⟩
    · exact ⟨rfl, rfl, rfl, rfl, rfl, rfl, rfl, rfl⟩
  · exact ⟨rfl, rfl, rfl, rfl, rfl, rfl, rfl, rfl⟩

/-- At a source position a tote found makes DRAINED DRAINING again (R139). -/
theorem reopenDrain_mode (p : Fin 4) (s : State) (h : (reopenDrain (.src p) s).bench.mode = .drained) :
    s.bench.mode = .drained ∧ s.src[p].bothEmpty = true := by
  unfold reopenDrain setMode at h
  dsimp only at h
  split at h
  · rw [notify_bench] at h; cases h
  · next n =>
    refine ⟨h, ?_⟩
    by_contra e
    exact n ⟨h, Bool.eq_false_iff.mpr e⟩

theorem Keeps.surveyed (pos : Pos) (e : SurveyEnd) (s : State) (run : inSurvey pos s = true)
    (depth : ∀ p f l, pos = .src p → e = .source f l → s.src[p].depth = 0 → l = none) :
    Keeps s (reopenDrain pos (applySurvey pos e (stopSurvey pos s))) := by
  have apart := (stopSurvey_apart pos s).trans (applySurvey_apart pos e _)
  obtain ⟨src, wall, lines, offers, arb, prof, -⟩ := reopenDrain_fields pos (applySurvey pos e (stopSurvey pos s))
  refine ⟨fun ok => State.slotsOk_congr src ?_, fun ok => ?_, fun ok => State.wallOk_congr (congrArg Wall.pos wall) ?_,
    fun ok => State.linesOk_congr lines (apart.lines ok),
    fun ok => State.profileOk_congr (prof.trans apart.prof) (arb.trans apart.arb) ok,
    fun ok => State.putListsOk_congr (offers.trans apart.offers) ok⟩
  · cases pos with
    | src p =>
      intro p'
      rw [applySurvey_src, stopSurvey_src]
      split
      · next same =>
        subst same
        exact (SrcPos.slotsOk_iff _).mpr (SrcPos.slotsOk_judged rfl e _ fun f l h d => depth p f l rfl h d)
      · exact ok p'
    | ord q => exact State.slotsOk_congr (applySurvey_ord_src ..) ok
  · cases pos with
    | src p =>
      intro mode p'
      obtain ⟨was, empty⟩ := reopenDrain_mode p _ mode
      simp only [src]
      rw [apart.bench] at was
      by_cases same : p = p'
      · subst same; exact empty
      · rw [applySurvey_src, stopSurvey_src, if_neg same, if_neg same]
        exact ok was p'
    | ord q =>
      have same : (reopenDrain (.ord q) (applySurvey (.ord q) e (stopSurvey (.ord q) s))).bench = s.bench := apart.bench
      exact State.drainedOk_congr (s := s) (src.trans (applySurvey_ord_src ..)) (congrArg Bench.mode same) ok
  · cases pos with
    | src p => exact State.wallOk_congr (t := applySurvey (.src p) e _) (by rw [applySurvey_src_wall]; rfl) ok
    | ord q =>
      intro q'
      rw [applySurvey_ord, stopSurvey_ord]
      split
      · next same =>
        subst same
        have items := (OrdPos.itemsOk_iff _).mp (ok q)
        exact (OrdPos.itemsOk_iff _).mpr ((items.setSurvey (.inl rfl)).judged (items.survey run) rfl e _)
      · exact ok q'

/-! ## Start-up and time -/

theorem startUp_slotsOk (k : Bool) (s : State) : (startUp k s).slotsOk := fun p => by
  rw [startUp_src, SrcPos.slotsOk_iff]
  constructor <;> simp [slotTable, Face.ok, Face.timersOk, Face.namesOk, Lane.ok, Lane.timersOk, Lane.namesOk]

theorem startUp_wallOk (k : Bool) (s : State) : (startUp k s).wallOk := fun q => by
  rw [startUp_ord, OrdPos.itemsOk_iff]
  constructor <;> simp [OrdState.holds]

theorem startUp_linesOk (k : Bool) (s : State) : (startUp k s).linesOk := fun i => by
  rw [FieldLine.ordersOk_iff]
  obtain ⟨pos, rfl⟩ := exists_lineOf i
  cases pos with
  | src p => rw [startUp_lineSrc]; exact FieldLine.ordersOk_blank.started ..
  | ord q => rw [startUp_lineOrd]; exact FieldLine.ordersOk_blank.started ..

theorem Keeps.startUp (k : Bool) (s : State) : Keeps s (startUp k s) := by
  have frame := startUp_frame k s
  refine ⟨fun _ => startUp_slotsOk k s, fun _ mode => ?_, fun _ => startUp_wallOk k s, fun _ => startUp_linesOk k s,
    startUp_profileOk k, fun _ o ho => ?_⟩
  · rw [frame.bench] at mode; cases mode
  · rw [frame.offers] at ho; cases ho

theorem tick_fixed_lines (o : Offer) : o.tick.fixed = o.fixed ∧ o.tick.lines = o.lines := by
  unfold Offer.tick
  split
  · cases e : o.exposure <;> simp [Offer.fixed, e]
  · exact ⟨rfl, rfl⟩

theorem Keeps.tick (s : State) : Keeps s (tick s) := by
  obtain ⟨-, -, offers, arb, -, -, -, bench, prof, -⟩ := tick_frame s
  refine ⟨fun ok p => ?_, fun ok mode p => ?_, fun ok q => ?_, fun ok i => ?_, State.profileOk_congr prof arb,
    State.putListsOk_of_lines fun o ho => ?_⟩
  · rw [tick_src]
    exact (SrcPos.slotsOk_iff _).mpr ((SrcPos.slotsOk_iff _).mp (ok p)).tick
  · rw [tick_src]
    rw [bench] at mode
    exact ok mode p
  · rw [tick_ord]
    exact (OrdPos.itemsOk_iff _).mpr ((OrdPos.itemsOk_iff _).mp (ok q)).tick
  · rw [tick_line]
    exact (FieldLine.ordersOk_iff _).mpr ((FieldLine.ordersOk_iff _).mp (ok i)).tick
  · rw [offers] at ho
    obtain ⟨o', ho', rfl⟩ := List.mem_map.mp ho
    exact ⟨o', ho', (tick_fixed_lines o').2⟩

end Sys2Proof.Machine

namespace Sys2Proof.Machine

/-! ## Relations that leave the put sequencer and the picker free -/

theorem Closed.handOver_of_free {R : State → State → Prop} (C : Closed R)
    (free : ∀ (s : State) put picker, R s { s with put := put, picker := picker }) (c : Cycle) (b : Bool) {s t : State}
    (deleted : t = deleteCycle s ∨ ∃ x, t = clearServed x (deleteCycle s)) : R s (handOver c b t) := by
  have start : R s t := by
    rcases deleted with rfl | ⟨x, rfl⟩
    · exact free _ _ _
    · exact C.trans (free s { s.put with cycle := none } s.picker) (C.served x _)
  have grace : R t (endGrace c b t) := by
    have stop : R t (setGraceT none t) := free _ _ _
    unfold endGrace
    dsimp only
    split
    · split
      · exact stop
      · exact C.trans stop (C.askRelease ..)
    · exact C.refl t
  have idle : ∀ u, R u (stopIdle u) := fun u => free _ _ _
  refine C.trans start (C.trans ?_ (idle _))
  split
  · exact grace
  · exact C.trans grace (C.judgeFace ..)

/-- For a relation that says nothing of the cycle record, its timers and the picker, the updates of a cycle ask nothing
more than those below it. -/
theorem Closed.cycle_of_free {R : State → State → Prop} (C : Closed R)
    (free : ∀ (s : State) put picker, R s { s with put := put, picker := picker }) : ClosedCycle R where
  toClosed := C
  start _ _ _ _ _ := free _ _ _
  change _ _ _ _ := free _ _ _; ended c b _ _ _ deleted := C.handOver_of_free free c b deleted
  idleOn s := by
    unfold startIdle
    split
    · exact free _ _ _
    · exact C.refl s
  idleOff _ := free _ _ _
  cond _ _ _ := free _ _ _
  grace _ _ _ _ := free _ _ _

/-! ## The plain updates keep the invariants that need nothing but themselves -/

theorem keepsClosed : Closed Keeps where
  refl := Keeps.refl
  trans := Keeps.trans
  notice b s := Keeps.same rfl rfl rfl rfl rfl rfl rfl
  lost s := Keeps.same rfl rfl rfl rfl rfl rfl rfl
  full q t s := Keeps.ord fun ok => ok.record _
  orphanOff p s := Keeps.src SrcPos.SlotsOk.orphanOff fun _ => id
  orphanOn p t s here := Keeps.src (fun ok => ok.orphanOn here t) fun _ => id
  keep t f s same := Keeps.modOffer fun o => (same o).2
  write c f s same := Keeps.writeLine same
  drop := Keeps.drop
  served := Keeps.served
  hand := Keeps.hand
  clear pos s := Keeps.line FieldLine.OrdersOk.emptied
  blank p st c s cause bare := Keeps.src (fun _ => SrcPos.slotsOk_blank cause (.inr bare)) fun _ _ => rfl
  sync p d s := Keeps.src (fun ok => ok.synced d) fun _ empty => SrcPos.bothEmpty_synced empty d
  leave p sl t time s out :=
    Keeps.src (fun ok => ok.leaving out t time) fun _ empty => (SrcPos.not_releasable_of_bothEmpty empty out).elim
  holdRelease p h s adv := Keeps.src (fun ok => ok.holdRelease adv h) fun _ => id
  called p sl t time s free := by
    obtain ⟨mode, -, -, opn, slot⟩ := callable_iff.mp free
    exact Keeps.src (fun ok => ok.called opn slot t time) fun m _ => by rw [mode] at m; cases m
  arb b c t s := Keeps.rest rfl rfl rfl rfl
    (fun ⟨range, image, ladder, rest⟩ => ⟨range, image, isLadder_afterGrant ladder b c t, rest⟩) id
  drained s mode empty := ⟨id, fun _ _ => empty, id, id, id, id⟩
  record q f s := Keeps.ord fun ok => ok.record f
  shut q s := Keeps.ord fun _ => OrdPos.itemsOk_shutDown _
  light q b s at' := Keeps.ord fun ok => ok.setLight at'
  failed q c s := Keeps.ord fun _ => OrdPos.itemsOk_faulted _ c

theorem keepsClosedCycle : ClosedCycle Keeps :=
  keepsClosed.cycle_of_free fun _ _ _ => Keeps.same rfl rfl rfl rfl rfl rfl rfl

/-- Each plain update of a command keeps the invariants by its guard: a move of a slot by the state it starts from. -/
theorem keepsClosedStep : ClosedStep Keeps where
  toClosedCycle := keepsClosedCycle
  same s t src wall lines mode _ _ offers arb prof := Keeps.same src wall lines mode offers arb prof
  startup := Keeps.startUp
  ticked := Keeps.tick
  presented p t s aw := Keeps.src (fun ok => ok.presented aw) fun _ empty => by
    rw [Face.awaits, ((SrcPos.bothEmpty_iff _).mp empty).1] at aw; simp at aw
  staged p t s was := Keeps.src (fun ok => ok.staged was t) fun _ empty =>
    (SrcPos.not_lane_of_bothEmpty empty was (by decide)).elim
  followed p s was := Keeps.src (fun ok => ok.followed was) fun _ empty =>
    (SrcPos.not_face_of_bothEmpty empty was (by decide)).elim
  settling p t s was := Keeps.src (fun ok => ok.settling was t) fun _ empty =>
    (SrcPos.not_face_of_bothEmpty empty was (by decide)).elim
  laneGone p s was := Keeps.src (fun ok => ok.laneGone was) fun _ empty =>
    (SrcPos.not_lane_of_bothEmpty empty was (by decide)).elim
  lapsed p sl s run := Keeps.src (fun ok => ok.lapsed (by rw [run]; rfl)) fun _ empty =>
    SrcPos.bothEmpty_emptied empty sl
  faceFree p s guard lane :=
    Keeps.src (fun ok => ok.emptied (ok.hasSlots_of_guard (by rw [guard]; rfl)) fun _ => lane)
      fun _ empty => SrcPos.bothEmpty_emptied empty .face
  advanced p t s guard was := Keeps.src (fun ok => ok.advanced (by rw [guard]; rfl) was t) fun _ empty =>
    (SrcPos.not_lane_of_bothEmpty empty was (by decide)).elim
  transferred p s guard was := Keeps.src (fun ok => ok.transferred (by rw [guard]; rfl) was) fun _ empty =>
    (SrcPos.not_lane_of_bothEmpty empty was (by decide)).elim
  stopGuard p s := Keeps.src SrcPos.SlotsOk.stopGuard fun _ => id
  closing p s was := Keeps.src (fun ok => ok.putState (by rw [SrcPos.hasSlots, was]; simp) (.inr rfl)) fun _ => id
  reopening p s was := Keeps.src (fun ok => ok.putState (by rw [SrcPos.hasSlots, was]; simp) (.inl rfl)) fun _ => id
  diverted p sl s := Keeps.src (fun ok => ok.diverted sl) fun _ empty => SrcPos.bothEmpty_diverted empty sl
  surveySrc p t s at' := Keeps.src (fun ok => ok.setSurvey (.inr at')) fun _ => id
  surveyOrd q t s at' := Keeps.ord fun ok => ok.setSurvey (.inr at')
  surveyed := Keeps.surveyed
  sent pos o rest s e := Keeps.line fun ok => ok.sendNext fun x hx => by rw [e]; exact List.mem_cons_of_mem _ hx
  emptied q s at' := Keeps.ord fun ok => ok.emptied at'
  arrived q s was := Keeps.ord fun ok => ok.putState (by rw [was]; rfl) rfl (by rw [was]; decide)
  active q s was := Keeps.ord fun ok => ok.putState (by rw [was]; rfl) rfl (by rw [was]; decide)
  departed q t s was := Keeps.ord fun ok => ok.departed was t
  weighed q g s := Keeps.ord fun ok => ok.weighed g
  leaveOrd q t s was := Keeps.ord fun ok => ok.leave was t
  registered q r pr cs s was := Keeps.ord (f := fun _ => registered s.wall.pos[q] r pr cs)
    fun ok => ok.registered was r pr cs
  mode m s ne := ⟨id, fun _ e => absurd e ne, id, id, id, id⟩
  warnings s := Keeps.offers fun o ho => by
    obtain ⟨o', ho', rfl⟩ := List.mem_map.mp ho
    exact ⟨o', ho', rfl⟩
  setting f v p c s idle h := Keeps.rest rfl rfl rfl rfl
    (fun ⟨range, image, ladder, eff, valid, store⟩ =>
      ⟨store_inRange h range, image, ladder, eff, valid, fun run => absurd run (by simp [setProfile, idle])⟩) id
  ladder s := Keeps.rest rfl rfl rfl rfl
    (fun ⟨range, image, _, rest⟩ => ⟨range, image, ((Profile.inRange_iff _).mp range).2.2.1, rest⟩) id
  storing s := Keeps.rest rfl rfl rfl rfl
    (fun ⟨range, _, ladder, eff, _⟩ =>
      ⟨range, range, ladder, eff, fun valid => (by cases valid), fun _ => ⟨rfl, rfl, rfl⟩⟩) id
  shift s := Keeps.rest rfl rfl rfl rfl
    (fun ⟨range, image, ladder, _, rest⟩ => ⟨range, image, ladder, rfl, rest⟩) id
  completed o s run := Keeps.rest rfl rfl rfl rfl (completed_profileOk o run) id

/-! ## The append of an accepted OFFER -/

/-- An accepted OFFER makes a record from its lines, WAITING, with nothing done yet (R13). -/
theorem judgeOffer_ok {s : State} {bs : List Byte} {o : Offer} (h : judgeOffer s bs = .ok o) :
    s.bench.mode = .service ∧ findOffer o.tote s = none ∧ s.offers.length < Config.offerCapacity ∧
      ∃ (t : Temp) (budget used : Nat) (ls : List OfferLine), (t.isCold = true → used < clampBudget t budget) ∧
        (∀ l ∈ ls, l.qty ≠ 0) ∧ o = makeOffer s.prof.profile t o.tote budget used ls := by
  unfold judgeOffer at h
  dsimp only at h
  split at h
  · cases h
  next mode =>
  split at h
  · cases h
  split at h
  · cases h
  split at h
  · cases h
  split at h
  · cases h
  split at h
  · cases h
  split at h
  · cases h
  next t _ =>
  split at h
  · cases h
  next qty =>
  split at h
  · cases h
  split at h
  · cases h
  split at h
  · cases h
  next fresh =>
  split at h
  · cases h
  next exposed =>
  split at h
  · cases h
  next room =>
  split at h
  · cases h
  cases h
  refine ⟨not_not.mp mode, Option.not_isSome_iff_eq_none.mp fresh, Nat.lt_of_not_le room, t, _, _, _, fun cold => ?_, fun l hl => ?_, rfl⟩
  · exact Nat.lt_of_not_le fun le => exposed ⟨cold, le⟩
  · rw [firstBad, List.findIdx?_eq_none_iff] at qty
    have := qty l hl
    simp only [Bool.or_eq_false_iff, beq_eq_false_iff_ne] at this
    exact this.1

theorem makeLine_putsOk (m : Nat) (l : OfferLine) : (makeLine m l).putsOk = true := by
  simp [OLine.putsOk, makeLine]

theorem Keeps.append {o : Offer} {bs : List Byte} {s : State} (h : judgeOffer s bs = .ok o) :
    Keeps s (appendOffer o s) := by
  refine Keeps.rest rfl rfl rfl rfl id fun ok x hx l hl => ?_
  obtain ⟨-, -, -, t, budget, used, ls, -, -, e⟩ := judgeOffer_ok h
  rcases List.mem_append.mp hx with old | new
  · exact ok x old l hl
  · rw [List.mem_singleton.mp new, e] at hl
    obtain ⟨l', -, rfl⟩ := List.mem_map.mp hl
    exact makeLine_putsOk ..

/-- Every step keeps the invariants that need nothing but themselves. -/
theorem step_keepsAll {s t : State} (h : step s = .next t) : Keeps s t :=
  keepsClosedStep.step (fun _ _ _ => Keeps.append) h

/-- Settles O11: the profile, its image and the ladder change by the settings, the store, the start-up and the grants. -/
theorem stepKeepsProfileInRange : Obligations.StepKeepsProfileInRange := fun _ _ ok h => (step_keepsAll h).profile ok

end Sys2Proof.Machine

namespace Sys2Proof.Machine

/-!
What ACCEPT fixed in a record stays as it is, and records leave the list but never change places in it (R1, R5).
-/

/-- The later list is the earlier one with records removed, what ACCEPT fixed in the others being as it was. -/
def FixedKept (s t : State) : Prop := (t.offers.map Offer.fixed).Sublist (s.offers.map Offer.fixed)

theorem FixedKept.refl (s : State) : FixedKept s s := List.Sublist.refl _

theorem FixedKept.trans {s t u : State} (h : FixedKept s t) (k : FixedKept t u) : FixedKept s u := List.Sublist.trans k h

theorem FixedKept.of_offers {s t : State} (h : t.offers = s.offers) : FixedKept s t := by
  unfold FixedKept
  rw [h]

theorem FixedKept.of_map {s t : State} {f : Offer → Offer} (offers : t.offers = s.offers.map f)
    (h : ∀ o, (f o).fixed = o.fixed) : FixedKept s t := by
  unfold FixedKept
  rw [offers, List.map_map, show Offer.fixed ∘ f = Offer.fixed from funext h]

theorem FixedKept.modOffer {t : Nat} {f : Offer → Offer} {s : State} (h : ∀ o, (f o).fixed = o.fixed) :
    FixedKept s (modOffer t f s) :=
  FixedKept.of_map rfl fun o => by split <;> simp only [h]

theorem FixedKept.served (t : Nat) (s : State) : FixedKept s (clearServed t s) := by
  obtain ⟨-, -, -, -, offers, -⟩ := clearServed_fields t s
  exact FixedKept.of_offers offers

theorem FixedKept.drop (t : Nat) (s : State) : FixedKept s (dropOffer t s) :=
  FixedKept.trans (t := { s with offers := s.offers.filter fun o => o.tote != t })
    (List.Sublist.map _ List.filter_sublist) (FixedKept.served t _)

/-- Accepted units change the progress of a line alone. -/
theorem OLine.accept_fixed (l : OLine) (t j n : Nat) : (l.accept t j n).fixed = l.fixed := rfl

theorem FixedKept.writeLine {c : Cycle} {f : OLine → OLine} {s : State} (h : ∀ l, (f l).fixed = l.fixed) :
    FixedKept s (writeLine c f s) := by
  refine FixedKept.modOffer fun o => ?_
  have lines : (o.lines.modify c.line fun l => f (l.accept c.tgtTote c.comp c.acc)).map OLine.fixed =
      o.lines.map OLine.fixed := by
    refine List.ext_getElem (by simp) fun i _ _ => ?_
    simp only [List.getElem_map, List.getElem_modify]
    split
    · rw [h, OLine.accept_fixed]
    · rfl
  exact congrArg (fun ls => ({ o.fixed with lines := ls } : Offer)) lines

theorem Offer.judgeWarning_fixed (m : Nat) (o : Offer) :
    ({ o with exposure := o.exposure.map fun e => Exposure.judged e m } : Offer).fixed = o.fixed := by
  cases e : o.exposure <;> simp [Offer.fixed, e, Exposure.judged]

theorem fixedKeptClosed : Closed FixedKept where
  refl := FixedKept.refl
  trans := FixedKept.trans
  notice _ _ := FixedKept.of_offers rfl
  lost _ := FixedKept.of_offers rfl
  full _ _ _ := FixedKept.of_offers rfl
  orphanOff _ _ := FixedKept.of_offers rfl
  orphanOn _ _ _ _ := FixedKept.of_offers rfl
  keep t f s same := FixedKept.modOffer fun o => (same o).1
  write c f s same := FixedKept.writeLine fun l => (same l).1
  drop := FixedKept.drop
  served := FixedKept.served
  hand pos o s := FixedKept.of_offers (handOrder_offers pos o s)
  clear _ _ := FixedKept.of_offers rfl
  blank _ _ _ _ _ _ := FixedKept.of_offers rfl
  sync _ _ _ := FixedKept.of_offers rfl
  leave _ _ _ _ _ _ := FixedKept.of_offers rfl
  holdRelease _ _ _ _ := FixedKept.of_offers rfl
  called _ _ _ _ _ _ := FixedKept.of_offers rfl
  arb _ _ _ _ := FixedKept.of_offers rfl
  drained _ _ _ := FixedKept.of_offers rfl
  record _ _ _ := FixedKept.of_offers rfl
  shut _ _ := FixedKept.of_offers rfl
  light _ _ _ _ := FixedKept.of_offers rfl
  failed _ _ _ := FixedKept.of_offers rfl

theorem fixedKeptClosedStep : ClosedStep FixedKept where
  toClosedCycle := fixedKeptClosed.cycle_of_free fun _ _ _ => FixedKept.of_offers rfl
  same s t _ _ _ _ _ _ offers _ _ := FixedKept.of_offers offers
  startup k s := by
    unfold FixedKept
    rw [show (startUp k s).offers = [] from (startUp_frame k s).offers]
    exact List.nil_sublist _
  ticked s := by
    obtain ⟨-, -, offers, -⟩ := tick_frame s
    exact FixedKept.of_map offers fun o => (tick_fixed_lines o).1
  presented _ _ _ _ := FixedKept.of_offers rfl
  staged _ _ _ _ := FixedKept.of_offers rfl
  followed _ _ _ := FixedKept.of_offers rfl
  settling _ _ _ _ := FixedKept.of_offers rfl
  laneGone _ _ _ := FixedKept.of_offers rfl
  lapsed _ _ _ _ := FixedKept.of_offers rfl
  faceFree _ _ _ _ := FixedKept.of_offers rfl
  advanced _ _ _ _ _ := FixedKept.of_offers rfl
  transferred _ _ _ _ := FixedKept.of_offers rfl
  stopGuard _ _ := FixedKept.of_offers rfl
  closing _ _ _ := FixedKept.of_offers rfl
  reopening _ _ _ := FixedKept.of_offers rfl
  diverted _ _ _ := FixedKept.of_offers rfl
  surveySrc _ _ _ _ := FixedKept.of_offers rfl
  surveyOrd _ _ _ _ := FixedKept.of_offers rfl
  surveyed pos e s _ _ := by
    obtain ⟨-, -, -, offers, -⟩ := reopenDrain_fields pos (applySurvey pos e (stopSurvey pos s))
    exact FixedKept.of_offers (offers.trans ((stopSurvey_apart pos s).trans (applySurvey_apart pos e _)).offers)
  sent _ _ _ _ _ := FixedKept.of_offers rfl
  emptied _ _ _ := FixedKept.of_offers rfl
  arrived _ _ _ := FixedKept.of_offers rfl
  active _ _ _ := FixedKept.of_offers rfl
  departed _ _ _ _ := FixedKept.of_offers rfl
  weighed _ _ _ := FixedKept.of_offers rfl
  leaveOrd _ _ _ _ := FixedKept.of_offers rfl
  registered _ _ _ _ _ _ := FixedKept.of_offers rfl
  mode _ _ _ := FixedKept.of_offers rfl
  warnings s := FixedKept.of_map rfl fun o => Offer.judgeWarning_fixed _ o
  setting _ _ _ _ _ _ _ := FixedKept.of_offers rfl
  ladder _ := FixedKept.of_offers rfl
  storing _ := FixedKept.of_offers rfl
  shift _ := FixedKept.of_offers rfl
  completed _ _ _ := FixedKept.of_offers rfl

/-! ## OFFER -/

/-- What OFFER does to the list: it stays but for removals, or gets the accepted record at its end first. -/
theorem runOffer_cases (s : State) : FixedKept s (runRequest .offer (fun _ bs => some bs) ownOffer s) ∨
    ∃ (r : Request) (o : Offer), s.link.inbox.head? = some r ∧ judgeOffer (popRequest s) r.body = .ok o ∧
      FixedKept (appendOffer o s) (runRequest .offer (fun _ bs => some bs) ownOffer s) := by
  unfold runRequest
  split
  · exact .inl (FixedKept.refl s)
  · next r front =>
    have head : s.link.inbox.head? = some r := by
      unfold frontRequest at front
      split at front
      · split at front
        · cases front
        · next e => split at front
                    · cases front; rw [e]; rfl
                    · cases front
      · cases front
    dsimp only
    split
    · exact .inl (FixedKept.of_offers rfl)
    · unfold ownOffer
      split
      · exact .inl (FixedKept.of_offers rfl)
      · next o accepted =>
        exact .inr ⟨r, o, head, accepted,
          FixedKept.trans (FixedKept.of_offers rfl) (fixedKeptClosed.arbitrate _)⟩

theorem fixed_appendOffer (o : Offer) (s : State) :
    (appendOffer o s).offers.map Offer.fixed = s.offers.map Offer.fixed ++ [o.fixed] := List.map_append ..

/-- Settles O14: records leave the list or stay as ACCEPT fixed them, and only OFFER appends. -/
theorem onlyOfferAddsRecordsAndNoneChangesFixedParts : Obligations.OnlyOfferAddsRecordsAndNoneChangesFixedParts := by
  refine ⟨fun c s t other h => fixedKeptClosedStep.exec c (fun e => absurd e other) h, fun s t h => ?_, fun s t none h => ?_⟩
  · change live _ s = _ at h
    by_cases reset : s.inputs.reset = true
    · rw [live_of_on reset] at h
      cases h
      exact .inl (FixedKept.refl s)
    · rw [live_of_off (by simpa using reset)] at h
      cases h
      refine (runOffer_cases s).imp id ?_
      rintro ⟨r, o, head, accepted, kept⟩
      exact ⟨r, o, head, accepted, fixed_appendOffer o s ▸ kept⟩
  · unfold step at h
    rw [none] at h
    cases h
    unfold idle
    split
    · rfl
    · split
      · rfl
      · obtain ⟨-, -, offers, -⟩ := tick_frame s
        rw [offers, List.map_map]
        exact List.map_congr_left fun o _ => (tick_fixed_lines o).1

/-! ## Tote ids -/

/-- A list kept but for removals keeps its bound and its distinct tote ids. -/
theorem State.offersOk_of_fixedKept {s t : State} (h : FixedKept s t) (ok : s.offersOk) : t.offersOk := by
  obtain ⟨bound, distinct⟩ := ok
  have totes : ∀ u : State, (u.offers.map Offer.fixed).map (fun o => o.tote) = u.offers.map fun o => o.tote := fun u => by
    rw [List.map_map]; rfl
  constructor
  · have := h.length_le
    simp only [List.length_map] at this
    exact this.trans bound
  · have sub := h.map fun o => o.tote
    rw [totes, totes] at sub
    exact distinct.sublist sub

/-- An accepted record has a tote id not in the list, and the list has room for it (R9). -/
theorem State.offersOk_appendOffer {s : State} {bs : List Byte} {o : Offer} (h : judgeOffer s bs = .ok o)
    (ok : s.offersOk) : (appendOffer o s).offersOk := by
  obtain ⟨-, fresh, room, -⟩ := judgeOffer_ok h
  refine ⟨?_, ?_⟩
  · unfold appendOffer
    rw [List.length_append]
    exact room
  · unfold appendOffer
    rw [List.map_append, List.nodup_append]
    refine ⟨ok.2, List.nodup_singleton _, fun a ha b hb => ?_⟩
    obtain ⟨x, hx, rfl⟩ := List.mem_map.mp ha
    rw [List.mem_singleton.mp hb]
    unfold findOffer at fresh
    rw [List.find?_eq_none] at fresh
    simpa using fresh x hx

/-- Settles O6: records are only removed, but for an accepted OFFER, whose tote id is new. -/
theorem stepKeepsOfferIdsDistinct : Obligations.StepKeepsOfferIdsDistinct := by
  refine fun s t ok h => step_keeps (fun _ _ ok => ok) (fun s => State.offersOk_of_fixedKept (fixedKeptClosedStep.ticked s))
    (fun c s t h ok => ?_) h ok
  obtain ⟨others, offer, -⟩ := onlyOfferAddsRecordsAndNoneChangesFixedParts
  by_cases e : c = .offer
  · subst e
    rcases offer s t h with kept | ⟨r, o, -, accepted, kept⟩
    · exact State.offersOk_of_fixedKept kept ok
    · exact State.offersOk_of_fixedKept (s := appendOffer o s) (by unfold FixedKept; rwa [fixed_appendOffer])
        (State.offersOk_appendOffer (s := popRequest s) accepted ok)
  · exact State.offersOk_of_fixedKept (others c s t e h) ok

end Sys2Proof.Machine

namespace Sys2Proof.Machine

/-!
The machine as a whole: the passing of time, the start-up, the RESET input, the state right after reset.
-/

/-! ## The passing of time -/

/-- Settles O2: `tick_frame` and the laws of the positions and lines give each part after one tenth. -/
theorem emptyQueueComesToDueCommandOrTicks : Obligations.EmptyQueueComesToDueCommandOrTicks := by
  refine ⟨fun s none => ⟨fun on => ?_, fun off c cs first => ?_, fun off quiet => ?_⟩, fun s => ?_⟩
  · simp [step, none, idle, on]
  · simp [step, none, idle, off, first]
  · simp [step, none, idle, off, quiet]
  · obtain ⟨inputs, link, offers, arb, counter, put, picker, bench, prof, pending⟩ := tick_frame s
    exact ⟨bench, offers, tick_src s, tick_ord s, counter, put, picker, tick_line s, inputs, link, arb, prof, pending⟩

/-! ## The start-up -/

/-- A start-up makes what its rules say, whatever the state it is made in. -/
theorem startUp_made (k : Bool) (s : State) : startUpMade k s (startUp k s) := by
  have frame := startUp_frame k s
  have prof : (startUp k s).prof = s.prof.started k := frame.prof
  have valid := s.prof.started_imageValid k
  unfold startUpMade
  rw [prof]
  refine ⟨frame.inputs, frame.pending, frame.link, frame.offers, frame.put, frame.counter, frame.bench, frame.picker,
    ProfileStore.started_image .., valid, fun idle => ?_, fun busy => ?_, rfl, ProfileStore.started_profile .., ?_,
    ProfileStore.started_shift .., rfl, rfl, frame.arb, startUp_src k s, startUp_ord k s, fun p => ?_, fun q => ?_⟩
  · simp [ProfileStore.abandoned, idle]
  · simpa [ProfileStore.abandoned, busy] using badCheck_ne _ _
  · unfold ProfileStore.started ProfileStore.loadedFrom
    dsimp only
    rw [ProfileStore.abandoned_image]
  · rw [startUp_lineSrc]
    by_cases h : p.val < (s.prof.started k).profile.sourceCount <;> simp [h] <;> rfl
  · rw [startUp_lineOrd]
    by_cases h : q.val < (s.prof.started k).profile.orderCount <;> simp [h] <;> rfl

theorem reset_src (p : Fin 4) : State.reset.src[p] = { surveyT := some 20 } := by fin_cases p <;> rfl

theorem reset_ord (q : Fin 12) : State.reset.wall.pos[q] = { surveyT := if q.val < 8 then some 20 else none } := by
  fin_cases q <;> rfl

theorem reset_lineSrc (p : Fin 4) : State.reset.lines[lineOf (.src p)] = .surveyed := by fin_cases p <;> rfl

theorem reset_lineOrd (q : Fin 12) :
    State.reset.lines[lineOf (.ord q)] = if q.val < 8 then .surveyed else .darkened := by
  fin_cases q <;> rfl

/-- An image with a check of 0 is not loaded: the profile store starts from the defaults. -/
theorem ProfileStore.started_blank {x : ProfileStore} (image : x.image = {}) (check : x.check = 0)
    (spoiled : x.spoiled = 0) (storing : x.storing = false) : x.started false = {} := by
  have bad : (Profile.check {} == 0) = false := beq_eq_false_iff_ne.mpr check_default_ne_zero
  simp [ProfileStore.started, ProfileStore.abandoned, ProfileStore.loadedFrom, storing, image, check, spoiled, bad,
    effectiveLock]

theorem Wall.eq_of_fields {x y : Wall} (pos : x.pos = y.pos) (counter : x.counter = y.counter) : x = y := by
  cases x; cases y; simp_all

section
variable {s : State} (prof : s.prof.started false = {})
include prof

theorem startUp_src_eq_reset : (startUp false s).src = State.reset.src := Vector.ext fun p hp => by
  have blank := startUp_src false s ⟨p, hp⟩
  rw [prof] at blank
  refine blank.trans ((reset_src ⟨p, hp⟩).trans ?_).symm
  interval_cases p <;> rfl

theorem startUp_pos_eq_reset : (startUp false s).wall.pos = State.reset.wall.pos := Vector.ext fun q hq => by
  have blank := startUp_ord false s ⟨q, hq⟩
  rw [prof] at blank
  exact blank.trans (reset_ord ⟨q, hq⟩).symm

theorem startUp_lines_eq_reset : (startUp false s).lines = State.reset.lines := Vector.ext fun i hi => by
  obtain ⟨pos, e⟩ := exists_lineOf ⟨i, hi⟩
  have line : (startUp false s).lines[lineOf pos] = State.reset.lines[lineOf pos] := by
    cases pos with
    | src p =>
      rw [startUp_lineSrc, prof, reset_lineSrc]
      fin_cases p <;> rfl
    | ord q =>
      rw [startUp_lineOrd, prof, reset_lineOrd]
      show FieldLine.started (decide (q.val < 8)) _ _ = _
      by_cases h : q.val < 8
      · rw [if_pos h, decide_eq_true h]; rfl
      · rw [if_neg h, decide_eq_false h]; rfl
  simp only [e] at line
  exact line

end

/-- A start-up from a bench at rest with an image whose check is 0 makes the state after reset. -/
theorem startUp_eq_reset {s : State} (hold : s.inputs.hold = false) (key : s.inputs.key = false)
    (image : s.prof.image = {}) (check : s.prof.check = 0) (spoiled : s.prof.spoiled = 0)
    (storing : s.prof.storing = false) (pending : s.pending = []) : startUp false s = State.reset := by
  have frame := startUp_frame false s
  have prof : s.prof.started false = {} := ProfileStore.started_blank image check spoiled storing
  have counter : (startUp false s).wall.counter = 0 := frame.counter
  have wall : (startUp false s).wall = State.reset.wall := Wall.eq_of_fields (startUp_pos_eq_reset prof) counter
  refine State.eq_of_fields ?_ frame.link frame.offers ?_ (startUp_src_eq_reset prof) wall frame.put ?_ frame.bench
    (frame.prof.trans prof) (startUp_lines_eq_reset prof) (frame.pending.trans pending)
  · rw [frame.inputs]
    simp [blankStart, State.reset, hold, key]
  · rw [frame.arb]
    show ({ ladder := (s.prof.started false).profile.ladder } : Arbiter) = {}
    rw [prof]
  · rw [frame.picker]
    simp [blankStart, State.reset, hold]

/-- Settles O3: RESET_LINE and POWER_UP both make `startUp false`. -/
theorem startUpClearsTheParts : Obligations.StartUpClearsTheParts := by
  refine ⟨fun s => ⟨startUp false s, rfl, fun off => live_of_off off (startUp false), startUp_made false s⟩,
    fun s hold key image check spoiled storing pending => ?_⟩
  rw [← startUp_eq_reset hold key image check spoiled storing pending]
  rfl

/-! ## The RESET input -/

/-- Settles O4: with the RESET input on every command but the levels and RESET_LINE is `live` of something. -/
theorem resetInputHoldsThePart : Obligations.ResetInputHoldsThePart := by
  refine ⟨fun s => rfl, fun s on => ⟨live_of_on (s := setHold true s) on holdGoesOn,
    live_of_on (s := setHold false s) on holdGoesOff, fun c line holdOn holdOff key => ?_⟩⟩
  have off : ∀ f : State → State, live f s = .next s := live_of_on on
  cases c
  case resetLine => exact absurd rfl line
  case holdOn => exact absurd rfl holdOn
  case holdOff => exact absurd rfl holdOff
  case keyInputChange b => exact absurd rfl (key b)
  case resetOn =>
    have same : ({ s.inputs with reset := true } : Inputs) = s.inputs := by rw [← on]
    exact congrArg (fun i => Host.Outcome.next { s with inputs := i }) same
  all_goals exact off (fun s => _)

/-! ## The start-up meets every invariant -/

theorem startUp_listsOk (k : Bool) (s : State) : (startUp k s).listsOk := fun pos => by
  have one : ∀ (o : FieldOrder) (t : Option Nat) (n : Nat), o.order.fits pos = true →
      ({ orders := [o], ackT := t, nextSeq := n } : FieldLine).listOk pos := fun o t n fits =>
    ⟨by simp, by simpa using fits, by simp, List.countP_le_length⟩
  obtain ⟨-, -, -, -, -, -, -, -, -, -, -, -, -, -, -, -, -, -, -, src, ord, lineSrc, lineOrd⟩ := startUp_made k s
  cases pos with
  | src p =>
    simp only [inSurvey, lineSrc, src]
    split
    · exact ⟨one _ _ _ rfl, fun _ _ _ => rfl⟩
    · exact ⟨one _ _ _ rfl, fun o ho e => by rw [List.mem_singleton.mp ho] at e; cases e⟩
  | ord q =>
    simp only [inSurvey, lineOrd, ord]
    split
    · exact ⟨one _ _ _ rfl, fun _ _ _ => rfl⟩
    · exact ⟨one _ _ _ rfl, fun o ho e => by rw [List.mem_singleton.mp ho] at e; cases e⟩

theorem startUp_consistent (k : Bool) {s : State} (ok : s.profileOk) : (startUp k s).consistent := by
  obtain ⟨-, -, -, offers, put, -, bench, picker, -, -, -, -, -, -, -, -, -, -, -, src, ord, -, -⟩ := startUp_made k s
  have noOffer : ∀ P : Offer → Prop, ∀ o ∈ (startUp k s).offers, P o := fun P o ho => by rw [offers] at ho; cases ho
  have noRecord : ∀ (q : Fin 12), (startUp k s).wall.pos[q].record = none := fun q => by rw [ord]
  have noRecords : allRecords (startUp k s) = [] := List.filterMap_eq_nil_iff.mpr fun q _ => noRecord q
  have noName : ∀ (p : Fin 4) (sl : Slot), (startUp k s).src[p].named sl = none := fun p sl => by
    rw [src]; cases sl <;> rfl
  refine ⟨⟨by rw [offers]; decide, by rw [offers]; exact List.nodup_nil⟩, startUp_slotsOk k s, ?_,
    ⟨noOffer _, ?_, ?_⟩, startUp_wallOk k s, ⟨?_, ?_, ?_, ?_⟩, ⟨?_, ?_⟩, ?_, startUp_linesOk k s, ?_, startUp_listsOk k s,
    startUp_profileOk k ok, noOffer _, noOffer _⟩
  · intro mode; rw [bench] at mode; cases mode
  · intro p sl t h; rw [noName] at h; cases h
  · intro p p' sl sl' t h; rw [noName] at h; cases h
  · intro q q' r r' h; rw [noRecord] at h; cases h
  · intro r h; rw [noRecords] at h; cases h
  · intro r h; rw [noRecords] at h; cases h
  · intro q r h; rw [noRecord] at h; cases h
  · intro h; rw [picker] at h; cases h
  · intro h; rw [put] at h; cases h
  · intro c h; rw [put] at h; cases h
  · intro pos _; left; rw [bench]

/-- The profile store right after reset holds the defaults, with an image whose check does not agree. -/
theorem reset_profileOk : State.reset.profileOk :=
  ⟨Profile.inRange_default, Profile.inRange_default, by decide, rfl, fun h => (by cases h), fun h => (by cases h)⟩

/-- Settles O13: the state after reset is that of a start-up. -/
theorem resetMeetsInvariants : Obligations.ResetMeetsInvariants := by
  have reset : startUp false State.reset = State.reset := startUp_eq_reset rfl rfl rfl rfl rfl rfl rfl
  have ok := startUp_consistent false reset_profileOk
  rw [reset] at ok
  have whole := ok
  obtain ⟨offers, slots, drained, -, wall, -, timers, -, lines, -, -, profile, puts, -⟩ := ok
  have queues := startUp_queuesOk false State.reset
  rw [reset] at queues
  exact ⟨queues, offers, slots, drained, wall, lines, timers, profile, puts, whole⟩

end Sys2Proof.Machine

namespace Sys2Proof.Machine

/-!
Windows, allocation and full marks (R14, R44, R63, R77, R79), and the verdict against the floor (R103, R104).
-/

/-! ## The verdict and the delta -/

theorem stateAfter_negative : stateAfter .negative = .check := rfl
theorem stateAfter_noChange : stateAfter .noChange = .lit := rfl

/-- The classification of stage 4 is none of the verdicts of stage 2. -/
theorem classify_ne (b : Basis) (d r ta tp : Nat) :
    classify b d r ta tp ≠ .negative ∧ classify b d r ta tp ≠ .noChange := by
  unfold classify
  dsimp only
  split
  · exact ⟨nofun, nofun⟩
  · split
    · exact ⟨nofun, nofun⟩
    · split
      · exact ⟨nofun, nofun⟩
      · split <;> exact ⟨nofun, nofun⟩

theorem verdict_grams (w base r : Nat) (b : Basis) (ta tp : Nat) : verdict (.grams w) base r b ta tp =
    if (w : Int) - base < -(ta : Int) then .negative
    else if (w : Int) - base ≤ ta then .noChange
    else classify b ((w : Int) - base).toNat r ta tp := rfl

/-- Settles O15: the verdict looks at the weights through their difference alone. -/
theorem verdictComparesDeltaWithFloor : Obligations.VerdictComparesDeltaWithFloor := by
  refine ⟨⟨fun _ _ _ _ _ => rfl, fun g g' base base' r ta tp b same => by rw [verdict_grams, verdict_grams, same]⟩,
    fun g base r ta tp b => ?_⟩
  obtain ⟨notNegative, notStill⟩ := classify_ne b ((g : Int) - base).toNat r ta tp
  rw [verdict_grams]
  refine ⟨⟨fun h => if_pos h, fun h => ?_⟩, ⟨fun ⟨lo, hi⟩ => ?_, fun h => ?_⟩, fun up => ?_, fun _ _ => by omega, rfl, rfl⟩
  · split at h
    · assumption
    · split at h
      · cases h
      · exact absurd h notNegative
  · rw [if_neg (by omega), if_pos hi]
  · split at h
    · cases h
    · split at h
      · omega
      · exact absurd h notStill
  · rw [if_neg (by omega), if_neg (by omega)]
    congr 1
    omega

/-! ## Put mode and request class -/

/-- Settles O21: the bounds of a line decide before its unit weight. -/
theorem putModeAndChargeWeight : Obligations.PutModeAndChargeWeight := by
  intro m w
  by_cases bounds : w.umin = 0
  · by_cases unit : w.unit = 0
    · simp [makeLine, putModeOf, bounds, unit]
    · by_cases light : m ≤ w.unit
      · simp [makeLine, putModeOf, OLine.basis, bounds, unit, light, Nat.not_lt.mpr light]
      · simp [makeLine, putModeOf, OLine.basis, bounds, unit, light]
  · by_cases light : m ≤ w.umin
    · simp [makeLine, putModeOf, OLine.basis, bounds, light, Nat.not_lt.mpr light]
    · simp [makeLine, putModeOf, OLine.basis, bounds, light]

/-- Some record EXPECTED, ARRIVED or ACTIVE holds the ref and meets the test. -/
theorem wallHolds_iff (ref : Nat) (test : Rec → Bool) (s : State) : wallHolds ref test s = true ↔
    ∃ (q : Fin 12) (r : Rec), s.wall.pos[q].record = some r ∧
      (s.wall.pos[q].state = .expected ∨ s.wall.pos[q].state = .arrived ∨ s.wall.pos[q].state = .active) ∧
      r.ref = ref ∧ test r = true := by
  unfold wallHolds
  rw [List.any_eq_true]
  refine ⟨fun ⟨q, _, h⟩ => ?_, fun ⟨q, r, rec', st, e, t⟩ => ⟨q, mem_ordIndices q, ?_⟩⟩
  · split at h
    · cases h
    · next r e =>
      simp only [Bool.and_eq_true, Bool.or_eq_true, beq_iff_eq] at h
      obtain ⟨⟨st, ref⟩, t⟩ := h
      exact ⟨q, r, e, or_assoc.mp st, ref, t⟩
  · rw [rec']
    simp only [Bool.and_eq_true, Bool.or_eq_true, beq_iff_eq]
    exact ⟨⟨or_assoc.mpr st, e⟩, t⟩

/-- An OPEN line whose order is held by an urgent record (R44). -/
theorem any_urgent_iff (o : Offer) (s : State) :
    (o.lines.any fun l => l.state == .opn && wallHolds l.ref (fun r => r.urgent) s) = true ↔
      ∃ l ∈ o.lines, l.state = .opn ∧ ∃ (q : Fin 12) (r : Rec), s.wall.pos[q].record = some r ∧
        (s.wall.pos[q].state = .expected ∨ s.wall.pos[q].state = .arrived ∨ s.wall.pos[q].state = .active) ∧
        r.ref = l.ref ∧ r.urgent = true := by
  simp only [List.any_eq_true, Bool.and_eq_true, beq_iff_eq, wallHolds_iff]

theorem isCold_iff (t : Temp) : t.isCold = true ↔ t = .chilled ∨ t = .frozen := by cases t <;> decide

/-- Settles O22: the rows in their order. -/
theorem requestClassIsFirstRowSatisfied : Obligations.RequestClassIsFirstRowSatisfied := by
  intro o s urgent
  have rows : reqClass o s = if o.ret then .ret else
      if o.lines.any fun l => l.state == .opn && wallHolds l.ref (fun r => r.urgent) s then .expedite
      else if o.temp.isCold then .cold else .ambient := rfl
  refine ⟨fun ret => ?_, fun ret u => ?_, fun ret u cold => ?_, fun ret u amb => ?_⟩
  · rw [rows, if_pos ret]
  · rw [rows, if_neg (by simp [ret]), if_pos ((any_urgent_iff o s).mpr u)]
  · rw [rows, if_neg (by simp [ret]), if_neg (fun h => u ((any_urgent_iff o s).mp h)), if_pos ((isCold_iff _).mpr cold)]
  · rw [rows, if_neg (by simp [ret]), if_neg (fun h => u ((any_urgent_iff o s).mp h)), amb]
    rfl

/-! ## Windows (R63) -/

theorem Window.comps_front (C c : Nat) : (Window.mk .front c false).comps C = List.range c := rfl

/-- Settles O19: the four lists by their entries. -/
theorem windowListsCompartmentsInOrder : Obligations.WindowListsCompartmentsInOrder := by
  refine ⟨fun C c le => ⟨rfl, ?_, ?_, rfl⟩, fun C w => rfl, fun C => rfl, fun q r t l none => ?_⟩
  · refine List.ext_getElem (by simp [Window.comps]; omega) fun i h k => ?_
    simp [Window.comps] at h k ⊢
    omega
  · refine List.ext_getElem (by simp [Window.comps]) fun i h k => ?_
    simp [Window.comps] at h k ⊢
    omega
  · unfold Rec.firstRoom
    rw [none]
    rfl

/-! ## Room in a compartment (R77) -/

theorem le_assignable_iff (m r wl w vl v : Nat) :
    m ≤ assignable r wl w vl v ↔ m ≤ r ∧ m * w ≤ wl ∧ m * v ≤ vl := by
  unfold assignable
  by_cases hw : w = 0 <;> by_cases hv : v = 0
  · simp [hw, hv]
  · simp [hw, hv, Nat.le_div_iff_mul_le (Nat.pos_of_ne_zero hv)]
  · simp [hw, hv, Nat.le_div_iff_mul_le (Nat.pos_of_ne_zero hw)]
  · simp [hw, hv, Nat.le_div_iff_mul_le (Nat.pos_of_ne_zero hw), Nat.le_div_iff_mul_le (Nat.pos_of_ne_zero hv)]

/-- A compartment takes `m` units of a line: it exists, is not shut, is named by a full put list, and the units owed, the
weight left and the volume left allow `m` (R77). -/
def Rec.takes (r : Rec) (l : OLine) (j m : Nat) : Prop :=
  ∃ c : Comp, r.comps[j]? = some c ∧ c.shut = false ∧
    (12 ≤ l.puts.length → ∃ e ∈ l.puts, e.tote = r.tote ∧ e.comp = j) ∧ m ≤ l.qty - l.done ∧
    m * l.charge ≤ r.weightCap - c.weight ∧ m * l.volume ≤ r.volumeCap - c.volume

theorem OLine.barred_eq_false_iff (l : OLine) (tote j : Nat) : l.barred tote j = false ↔
    (12 ≤ l.puts.length → ∃ e ∈ l.puts, e.tote = tote ∧ e.comp = j) := by
  show (decide (12 ≤ l.puts.length) && !(l.puts.any fun e => e.tote == tote && e.comp == j)) = false ↔ _
  simp only [Bool.and_eq_false_iff, decide_eq_false_iff_not, Bool.not_eq_false', List.any_eq_true, Bool.and_eq_true,
    beq_iff_eq, imp_iff_not_or]

/-- The count given for a compartment is the greatest it takes. -/
theorem Rec.takes_iff {r : Rec} {l : OLine} {j m : Nat} (pos : 1 ≤ m) : r.takes l j m ↔ m ≤ r.roomFor l j := by
  unfold Rec.takes Rec.roomFor
  cases r.comps[j]? with
  | none => simp; omega
  | some c =>
    simp only [Option.some.injEq, exists_eq_left', ← OLine.barred_eq_false_iff]
    cases c.shut <;> cases l.barred r.tote j <;> simp [le_assignable_iff, OLine.owed] <;> omega

theorem Rec.takes_zero_of {r : Rec} {l : OLine} {j m : Nat} (h : r.takes l j m) : m ≤ r.roomFor l j := by
  rcases Nat.eq_zero_or_pos m with rfl | pos
  · exact Nat.zero_le _
  · exact (takes_iff pos).mp h

/-- The first compartment of the window that takes a unit, with the greatest count it takes. -/
theorem Rec.firstRoom_eq_some {q : Fin 12} {r : Rec} {t : Temp} {l : OLine} {a : Answer} (h : r.firstRoom q t l = some a) :
    a.q = q ∧ a.tote = r.tote ∧ ∃ before after, (r.windows.get t).comps r.count = before ++ a.comp :: after ∧
      (∀ j ∈ before, ¬ r.takes l j 1) ∧ 1 ≤ a.n ∧ r.takes l a.comp a.n ∧ ∀ m, r.takes l a.comp m → m ≤ a.n := by
  unfold Rec.firstRoom at h
  rw [List.findSome?_eq_some_iff] at h
  obtain ⟨before, j, after, list, found, none⟩ := h
  split at found
  · next room =>
    cases found
    refine ⟨rfl, rfl, before, after, list, fun i hi => ?_, room, (takes_iff room).mpr (Nat.le_refl _),
      fun m => takes_zero_of⟩
    rw [takes_iff (Nat.le_refl 1)]
    intro h
    simpa [h] using none i hi
  · cases found

theorem Rec.firstRoom_eq_none {q : Fin 12} {r : Rec} {t : Temp} {l : OLine} : r.firstRoom q t l = none ↔
    ∀ j ∈ (r.windows.get t).comps r.count, ¬ r.takes l j 1 := by
  unfold Rec.firstRoom
  rw [List.findSome?_eq_none_iff]
  refine forall₂_congr fun j _ => ?_
  rw [takes_iff (Nat.le_refl 1)]
  split <;> simp_all

/-! ## The candidates for an order ref, in registration order (R77) -/

theorem mem_insertBySeq (x y : Fin 12 × Rec) (l : List (Fin 12 × Rec)) : x ∈ insertBySeq y l ↔ x = y ∨ x ∈ l := by
  induction l with
  | nil => simp [insertBySeq]
  | cons z l ih =>
    unfold insertBySeq
    split
    · simp
    · simp [ih]; tauto

/-- Registration order: the earlier sequence first. -/
def InSeqOrder (l : List (Fin 12 × Rec)) : Prop := l.Pairwise fun x y => x.2.seq ≤ y.2.seq

theorem InSeqOrder.insert {l : List (Fin 12 × Rec)} (h : InSeqOrder l) (y : Fin 12 × Rec) : InSeqOrder (insertBySeq y l) := by
  unfold InSeqOrder at *
  induction l with
  | nil => simp [insertBySeq]
  | cons z l ih =>
    obtain ⟨first, rest⟩ := List.pairwise_cons.mp h
    unfold insertBySeq
    split
    · next lt =>
      refine List.pairwise_cons.mpr ⟨fun x hx => ?_, h⟩
      rcases List.mem_cons.mp hx with rfl | hx
      · exact Nat.le_of_lt lt
      · exact (Nat.le_of_lt lt).trans (first x hx)
    · next ge =>
      refine List.pairwise_cons.mpr ⟨fun x hx => ?_, ih rest⟩
      rcases (mem_insertBySeq x y l).mp hx with rfl | hx
      · exact Nat.le_of_not_lt ge
      · exact first x hx

theorem perm_insertBySeq (y : Fin 12 × Rec) (l : List (Fin 12 × Rec)) : (insertBySeq y l).Perm (y :: l) := by
  induction l with
  | nil => exact .refl _
  | cons z l ih =>
    unfold insertBySeq
    split
    · exact .refl _
    · exact (ih.cons z).trans (.swap ..)

theorem perm_sortBySeq (l : List (Fin 12 × Rec)) : (l.foldr insertBySeq []).Perm l := by
  induction l with
  | nil => exact .refl _
  | cons x l ih => exact (perm_insertBySeq x _).trans (ih.cons x)

theorem inSeqOrder_sortBySeq (l : List (Fin 12 × Rec)) : InSeqOrder (l.foldr insertBySeq []) := by
  induction l with
  | nil => exact List.Pairwise.nil
  | cons x l ih => exact ih.insert x

/-- A record that an allocation for an order ref asks: ACTIVE and CLEAN, with that ref (R77). -/
def asked (ref : Nat) (s : State) (q : Fin 12) (r : Rec) : Prop :=
  s.wall.pos[q].state = .active ∧ s.wall.pos[q].record = some r ∧ r.cond = .clean ∧ r.ref = ref

theorem mem_candidateRecords {ref : Nat} {s : State} {q : Fin 12} {r : Rec} :
    (q, r) ∈ candidateRecords ref s ↔ asked ref s q r := by
  unfold candidateRecords asked
  rw [(perm_sortBySeq _).mem_iff, List.mem_filterMap]
  refine ⟨fun ⟨q', _, h⟩ => ?_, fun ⟨st, rec', cond, e⟩ => ⟨q, mem_ordIndices q, ?_⟩⟩
  · split at h
    · cases h
    · next r' e =>
      split at h
      · next c =>
        cases h
        obtain ⟨st, cond, ref⟩ := c
        exact ⟨st, e, cond, ref⟩
      · cases h
  · rw [rec']
    exact if_pos ⟨st, cond, e⟩

theorem inSeqOrder_candidateRecords (ref : Nat) (s : State) : InSeqOrder (candidateRecords ref s) :=
  inSeqOrder_sortBySeq _

/-- Each order position is a candidate at most once. -/
theorem nodup_candidateRecords (ref : Nat) (s : State) : ((candidateRecords ref s).map fun c => c.1).Nodup := by
  unfold candidateRecords
  rw [((perm_sortBySeq _).map _).nodup_iff, List.map_filterMap]
  have sub : ∀ l : List (Fin 12), (l.filterMap fun q => (match s.wall.pos[q].record with
      | none => none
      | some r => if s.wall.pos[q].state = .active ∧ r.cond = .clean ∧ r.ref = ref then some (q, r) else none :
        Option (Fin 12 × Rec)).map fun c => c.1).Sublist l := fun l => by
    induction l with
    | nil => exact .slnil
    | cons q l ih =>
      rw [List.filterMap_cons]
      split
      · exact ih.cons q
      · next x e =>
        have : x = q := by
          split at e
          · cases e
          · split at e
            · exact (Option.some.inj e).symm
            · cases e
        exact this ▸ ih.cons_cons q
  exact (sub ordIndices).nodup (by decide)

/-! ## The answer of an allocation (R77) -/

theorem findRoom_eq_some {t : Temp} {l : OLine} {s : State} {a : Answer} (h : findRoom t l s = some a) :
    ∃ r before after, asked l.ref s a.q r ∧ r.tote = a.tote ∧
      (r.windows.get t).comps r.count = before ++ a.comp :: after ∧ (∀ j ∈ before, ¬ r.takes l j 1) ∧
      1 ≤ a.n ∧ r.takes l a.comp a.n ∧ (∀ m, r.takes l a.comp m → m ≤ a.n) ∧
      ∀ (q : Fin 12) (r' : Rec), asked l.ref s q r' → (∃ j ∈ (r'.windows.get t).comps r'.count, r'.takes l j 1) →
        r.seq ≤ r'.seq := by
  unfold findRoom at h
  rw [List.findSome?_eq_some_iff] at h
  obtain ⟨earlier, ⟨q, r⟩, later, list, found, none⟩ := h
  obtain ⟨eq, tote, before, after, window, noRoom, pos, takes, greatest⟩ := Rec.firstRoom_eq_some found
  subst eq
  have cand : asked l.ref s a.q r := mem_candidateRecords.mp (list ▸ by simp)
  refine ⟨r, before, after, cand, tote.symm, window, noRoom, pos, takes, greatest, fun q' r' cand' ⟨j, hj, room⟩ => ?_⟩
  have member : (q', r') ∈ earlier ++ (a.q, r) :: later := list ▸ mem_candidateRecords.mpr cand'
  rcases List.mem_append.mp member with old | new
  · exact absurd room (Rec.firstRoom_eq_none.mp (none _ old) j hj)
  · have order := inSeqOrder_candidateRecords l.ref s
    rw [list] at order
    rcases List.mem_cons.mp new with e | new
    · cases e
      exact Nat.le_refl _
    · exact (List.pairwise_cons.mp (List.pairwise_append.mp order).2.1).1 _ new

theorem findRoom_eq_none {t : Temp} {l : OLine} {s : State} : findRoom t l s = none ↔
    ∀ (q : Fin 12) (r : Rec), asked l.ref s q r → ∀ j ∈ (r.windows.get t).comps r.count, ¬ r.takes l j 1 := by
  unfold findRoom
  rw [List.findSome?_eq_none_iff]
  refine ⟨fun h q r cand => Rec.firstRoom_eq_none.mp (h _ (mem_candidateRecords.mpr cand)), fun h c hc => ?_⟩
  exact Rec.firstRoom_eq_none.mpr (h c.1 c.2 (mem_candidateRecords.mp hc))

/-! ## Full marks (R79) -/

/-- The notice of a FULL mark, from the record as `s` holds it. -/
def fullNotice (t : Temp) (s v : State) (q : Fin 12) : State :=
  match s.wall.pos[q].record with
  | none => v
  | some r => notify (.wall q (some (r.ref, r.tote)) (.full t (r.roomLeft t))) v

/-- A record whose mark for a class is clear. -/
def unset (t : Temp) (s : State) (q : Fin 12) : Bool :=
  match s.wall.pos[q].record with
  | none => false
  | some r => !r.full.get t

theorem fullNotice_wall (t : Temp) (s v : State) (q : Fin 12) : (fullNotice t s v q).wall = v.wall := by
  unfold fullNotice
  split
  · rfl
  · exact notify_wall ..

theorem fullNotice_bench (t : Temp) (s v : State) (q : Fin 12) : (fullNotice t s v q).bench = v.bench := by
  unfold fullNotice
  split
  · rfl
  · exact notify_bench ..

theorem fullNotice_prof (t : Temp) (s v : State) (q : Fin 12) : (fullNotice t s v q).prof = v.prof := by
  unfold fullNotice
  split
  · rfl
  · exact notify_prof ..

theorem notify_link_congr {x y : State} (link : x.link = y.link) (bench : x.bench = y.bench) (prof : x.prof = y.prof)
    (b : NoticeBody) : (notify b x).link = (notify b y).link := by
  have count : noticeCount x = noticeCount y := by unfold noticeCount; rw [link]
  unfold notify
  rw [prof, count]
  split
  · exact link
  · split
    · unfold pushNotice; rw [link, bench]
    · unfold setLost; rw [link]
  · split
    · unfold pushNotice; rw [link, bench]
    · unfold setLost; rw [link]

/-- FULL notices depend on the records they name and on the link alone. -/
theorem foldl_fullNotice_congr {t : Temp} {s s' : State} {qs : List (Fin 12)} {x y : State}
    (same : ∀ q ∈ qs, s.wall.pos[q].record = s'.wall.pos[q].record) (link : x.link = y.link) (bench : x.bench = y.bench)
    (prof : x.prof = y.prof) : (qs.foldl (fullNotice t s) x).link = (qs.foldl (fullNotice t s') y).link := by
  induction qs generalizing x y with
  | nil => exact link
  | cons q qs ih =>
    rw [List.foldl_cons, List.foldl_cons]
    have here := same q List.mem_cons_self
    refine ih (fun q' hq => same q' (List.mem_cons_of_mem _ hq)) ?_ ?_ ?_
    · unfold fullNotice
      rw [← here]
      cases s.wall.pos[q].record with
      | none => exact link
      | some r => exact notify_link_congr link bench prof _
    · rw [fullNotice_bench, fullNotice_bench, bench]
    · rw [fullNotice_prof, fullNotice_prof, prof]

theorem unset_of_some {t : Temp} {s : State} {q : Fin 12} {r : Rec} (e : s.wall.pos[q].record = some r) :
    unset t s q = !r.full.get t := by
  unfold unset
  rw [e]

theorem unset_of_none {t : Temp} {s : State} {q : Fin 12} (e : s.wall.pos[q].record = none) : unset t s q = false := by
  unfold unset
  rw [e]

theorem markFull_of_set {t : Temp} {s : State} {q : Fin 12} (h : unset t s q = false) : markFull t s q = s := by
  unfold markFull
  cases e : s.wall.pos[q].record with
  | none => rfl
  | some r =>
    rw [unset_of_some e, Bool.not_eq_false'] at h
    exact if_pos h

theorem markFull_of_unset {t : Temp} {s : State} {q : Fin 12} (h : unset t s q = true) :
    markFull t s q = modRec q (fun r => { r with full := r.full.set t true }) (fullNotice t s s q) := by
  unfold markFull fullNotice
  cases e : s.wall.pos[q].record with
  | none =>
    rw [unset_of_none e] at h
    cases h
  | some r =>
    rw [unset_of_some e, Bool.not_eq_true'] at h
    have clear : ¬ r.full.get t = true := by rw [h]; exact Bool.false_ne_true
    have notice : ∀ b, notifyWall q b s = notify (.wall q (some (r.ref, r.tote)) b) s := fun b => by
      unfold notifyWall
      rw [e, Option.map_some]
    dsimp only
    rw [if_neg clear, notice]

/-- Full marking marks the positions whose mark is clear, each with its notice, in the order given. -/
theorem foldl_markFull (t : Temp) {qs : List (Fin 12)} (distinct : qs.Nodup) (s : State) :
    (∀ q : Fin 12, (qs.foldl (markFull t) s).wall.pos[q] = if q ∈ qs.filter (unset t s) then { s.wall.pos[q] with
        record := s.wall.pos[q].record.map fun r => { r with full := r.full.set t true } } else s.wall.pos[q]) ∧
      (qs.foldl (markFull t) s).link = ((qs.filter (unset t s)).foldl (fullNotice t s) s).link := by
  induction qs generalizing s with
  | nil => simp
  | cons a qs ih =>
    obtain ⟨new, distinct⟩ := List.nodup_cons.mp distinct
    rw [List.foldl_cons]
    by_cases clear : unset t s a = true
    · have others : ∀ q, q ≠ a → (markFull t s a).wall.pos[q] = s.wall.pos[q] := fun q ne => by
        rw [markFull_of_unset clear, modRec, modOrd_getElem, if_neg (Ne.symm ne), fullNotice_wall]
      have here : (markFull t s a).wall.pos[a] = { s.wall.pos[a] with
          record := s.wall.pos[a].record.map fun r => { r with full := r.full.set t true } } := by
        rw [markFull_of_unset clear, modRec, modOrd_getElem, if_pos rfl, fullNotice_wall]
      have filters : qs.filter (unset t (markFull t s a)) = qs.filter (unset t s) :=
        List.filter_congr fun q hq => by
          unfold unset
          rw [others q fun e => new (e ▸ hq)]
      obtain ⟨pos, link⟩ := ih distinct (markFull t s a)
      rw [filters] at pos link
      rw [List.filter_cons_of_pos clear]
      constructor
      · intro q
        rw [pos q]
        by_cases e : q = a
        · subst e
          rw [if_neg (fun h => new (List.mem_of_mem_filter h)), if_pos List.mem_cons_self, here]
        · rw [others q e]
          simp [e]
      · rw [link, List.foldl_cons]
        refine foldl_fullNotice_congr (fun q hq => ?_) ?_ ?_ ?_
        · rw [others q fun e => new (e ▸ List.mem_of_mem_filter hq)]
        · rw [markFull_of_unset clear]; rfl
        · rw [markFull_of_unset clear]; rfl
        · rw [markFull_of_unset clear]; rfl
    · have set : unset t s a = false := by simpa using clear
      rw [markFull_of_set set, List.filter_cons_of_neg clear]
      exact ih distinct s

/-- The positions an allocation answered "none" marks, in registration order (R79). -/
def toMark (t : Temp) (l : OLine) (s : State) : List (Fin 12) :=
  ((candidateRecords l.ref s).map fun c => c.1).filter (unset t s)

theorem mem_toMark {t : Temp} {l : OLine} {s : State} {q : Fin 12} :
    q ∈ toMark t l s ↔ ∃ r, asked l.ref s q r ∧ r.full.get t = false := by
  unfold toMark
  simp only [List.mem_filter, List.mem_map, Prod.exists, exists_and_right, exists_eq_right]
  refine ⟨fun ⟨⟨r, h⟩, clear⟩ => ?_, fun ⟨r, cand, clear⟩ => ⟨⟨r, mem_candidateRecords.mpr cand⟩, ?_⟩⟩
  · have cand := mem_candidateRecords.mp h
    refine ⟨r, cand, ?_⟩
    unfold unset at clear
    rw [cand.2.1] at clear
    simpa using clear
  · unfold unset
    rw [cand.2.1]
    simpa using clear

theorem inSeqOrder_toMark (t : Temp) (l : OLine) (s : State) : (toMark t l s).Pairwise fun q q' =>
    ∀ r r' : Rec, s.wall.pos[q].record = some r → s.wall.pos[q'].record = some r' → r.seq ≤ r'.seq := by
  refine List.Pairwise.filter _ (List.pairwise_map.mpr ?_)
  refine (inSeqOrder_candidateRecords l.ref s).imp_of_mem fun {x y} hx hy le r r' e e' => ?_
  obtain ⟨-, recx, -⟩ := mem_candidateRecords.mp hx
  obtain ⟨-, recy, -⟩ := mem_candidateRecords.mp hy
  rw [recx] at e
  rw [recy] at e'
  cases e
  cases e'
  exact le

/-- Settles O20: the answer is that of the first candidate with room, and without one the clear marks are set. -/
theorem allocationAnswersExactlyTheRoom : Obligations.AllocationAnswersExactlyTheRoom := by
  intro t l s room asked'
  refine ⟨fun a h => findRoom_eq_some h, fun h q r => findRoom_eq_none.mp h q r, fun a h => ?_, fun h => ?_⟩
  · unfold allocate
    rw [h]
  · have answer : allocate t l s = (none, ((candidateRecords l.ref s).map fun c => c.1).foldl (markFull t) s) := by
      unfold allocate
      rw [h]
    have frame := noteFrame.foldl (noteFrame.markFull t) ((candidateRecords l.ref s).map fun c => c.1) s
    obtain ⟨pos, link⟩ := foldl_markFull t (nodup_candidateRecords l.ref s) s
    refine ⟨toMark t l s, _, answer, fun q => mem_toMark, (nodup_candidateRecords l.ref s).filter _,
      inSeqOrder_toMark t l s, ?_, pos, link⟩
    obtain ⟨inputs, offers, arb, src, put, picker, bench, prof, lines, pending, counter, -⟩ := frame
    exact State.eq_of_fields inputs rfl offers arb src (Wall.eq_of_fields rfl counter) put picker bench prof lines pending

end Sys2Proof.Machine

namespace Sys2Proof.Machine

/-!
A grant and a release, each with what it leaves as it was (R17, R32, R52).
-/

/-! ## One offer changed -/

theorem modOffer_getElem? (t : Nat) (f : Offer → Offer) (s : State) (i : Nat) :
    (modOffer t f s).offers[i]? = s.offers[i]?.map fun o => if o.tote = t then f o else o := List.getElem?_map ..

/-- The record of an offer after a change of the one with that tote id. -/
theorem findOffer_modOffer {t : Nat} {f : Offer → Offer} (keep : ∀ o, (f o).tote = o.tote) (s : State) (x : Nat) :
    findOffer x (modOffer t f s) = (findOffer x s).map fun o => if o.tote = t then f o else o := by
  unfold findOffer modOffer
  dsimp only
  rw [List.find?_map]
  congr 1
  refine congrArg (fun p => s.offers.find? p) (funext fun o => ?_)
  simp only [Function.comp]
  split
  · rw [keep]
  · rfl

theorem findOffer_tote {t : Nat} {s : State} {o : Offer} (h : findOffer t s = some o) : o.tote = t := by
  simpa using List.find?_some h

theorem findOffer_mem {t : Nat} {s : State} {o : Offer} (h : findOffer t s = some o) : o ∈ s.offers :=
  List.mem_of_find?_eq_some h

/-- No two records carry the same tote id, so the record with a tote id is the one of the list. -/
theorem State.offersOk.eq_of_tote {s : State} (ok : s.offersOk) {o o' : Offer} (h : o ∈ s.offers) (h' : o' ∈ s.offers)
    (e : o.tote = o'.tote) : o = o' := List.inj_on_of_nodup_map ok.2 h h' e

theorem State.offersOk.findOffer_eq {s : State} (ok : s.offersOk) {o : Offer} (h : o ∈ s.offers) :
    findOffer o.tote s = some o := by
  cases e : findOffer o.tote s with
  | none => exact absurd (beq_self_eq_true _) (List.find?_eq_none.mp e o h)
  | some o' => rw [ok.eq_of_tote (findOffer_mem e) h (findOffer_tote e)]

/-! ## A grant (R52) -/

theorem Offer.granted_tote (o : Offer) (p : Fin 4) (sl : Slot) (pr : Profile) : (o.granted p sl pr).tote = o.tote := rfl

theorem grant_src (p : Fin 4) (sl : Slot) (o : Offer) (c : ReqClass) (s : State) :
    (grant p sl o c s).src = (modSrc p (SrcPos.called sl o.tote (s.prof.profile.callTimeout * 10)) s).src :=
  notify_src ..

theorem grant_offers (p : Fin 4) (sl : Slot) (o : Offer) (c : ReqClass) (s : State) :
    (grant p sl o c s).offers = (modOffer o.tote (fun x => x.granted p sl s.prof.profile) s).offers :=
  notify_offers ..

theorem grant_link (p : Fin 4) (sl : Slot) (o : Offer) (c : ReqClass) (s : State) :
    (grant p sl o c s).link = (notify (.call o.tote p sl o.temp c o.lapses
      (o.granted p sl s.prof.profile).remainingSeconds (s.prof.profile.callTimeout * 10)) s).link := by
  show (notify _ (modOffer _ _ (modSrc _ _ s))).link = _
  exact notify_link_congr (x := modOffer _ _ (modSrc _ _ s)) (y := s) rfl rfl rfl _

theorem grant_arb (p : Fin 4) (sl : Slot) (o : Offer) (c : ReqClass) (s : State) :
    (grant p sl o c s).arb = s.arb.afterGrant s.prof.profile.rotate c o.temp := by
  show (notify _ _).arb.afterGrant _ _ _ = _
  rw [notify_arb]
  rfl

theorem grant_frame (p : Fin 4) (sl : Slot) (o : Offer) (c : ReqClass) (s : State) :
    (grant p sl o c s).inputs = s.inputs ∧ (grant p sl o c s).wall = s.wall ∧ (grant p sl o c s).put = s.put ∧
      (grant p sl o c s).picker = s.picker ∧ (grant p sl o c s).bench = s.bench ∧ (grant p sl o c s).prof = s.prof ∧
      (grant p sl o c s).lines = s.lines ∧ (grant p sl o c s).pending = s.pending :=
  ⟨notify_inputs .., notify_wall .., notify_put .., notify_picker .., notify_bench .., notify_prof .., notify_lines ..,
    notify_pending ..⟩

/-- Settles O23: the four steps one after the other. -/
theorem grantTakesFourSteps : Obligations.GrantTakesFourSteps := by
  intro p sl o c s pr o' t
  obtain ⟨inputs, wall, put, picker, bench, prof, lines, pending⟩ := grant_frame p sl o c s
  refine ⟨fun p' ne => ?_, ?_, fun i h e => ?_, fun i h ne => ?_, ?_, grant_link p sl o c s, ?_, ?_, inputs, wall, put,
    picker, bench, prof, lines, pending⟩
  · rw [grant_src, modSrc_other (Ne.symm ne)]
  · rw [grant_src, modSrc_self]
    rfl
  · rw [grant_offers, modOffer_getElem?, List.getElem?_eq_getElem h, e, Option.map_some, if_pos rfl]
    rfl
  · rw [grant_offers, modOffer_getElem?, List.getElem?_eq_getElem h, Option.map_some, if_neg ne]
  · rw [grant_offers]
    exact List.length_map ..
  · rw [grant_arb]
    rfl
  · rw [grant_arb]
    unfold Arbiter.afterGrant
    simp only [isCold_iff]

/-! ## A release (R17, R32) -/

theorem clearServed_put (t : Nat) (s : State) :
    (clearServed t s).put = { s.put with lastServed := if s.put.lastServed = some t then none else s.put.lastServed } := by
  unfold clearServed
  split <;> rfl

theorem clearServed_offers (t : Nat) (s : State) : (clearServed t s).offers = s.offers := by
  obtain ⟨-, -, -, -, offers, -⟩ := clearServed_fields t s
  exact offers

theorem findOffer_congr {s s' : State} (h : s'.offers = s.offers) (t : Nat) : findOffer t s' = findOffer t s := by
  unfold findOffer
  rw [h]

/-- An offer whose tote has been ordered out (R17). -/
def Offer.orderedOut (r : Reason) (o : Offer) : Offer := { o with state := .leaving, reason := some r }

/-- The part after the tote of a slot has been ordered out, before its RELEASE notice (R17, R32). -/
def orderedOut (p : Fin 4) (sl : Slot) (t : Nat) (r : Reason) (s : State) : State :=
  clearServed t (modOffer t (Offer.orderedOut r)
    (handOrder (.src p) (.gate (exitGate sl))
      (modSrc p (SrcPos.leaving sl (some t) none (s.prof.profile.leaveTimeout * 10)) s)))

theorem orderedOut_src (p : Fin 4) (sl : Slot) (t : Nat) (r : Reason) (s : State) : (orderedOut p sl t r s).src =
    (modSrc p (SrcPos.leaving sl (some t) none (s.prof.profile.leaveTimeout * 10)) s).src := by
  unfold orderedOut
  rw [(clearServed_fields ..).1]
  exact handOrder_src ..

theorem orderedOut_offers (p : Fin 4) (sl : Slot) (t : Nat) (r : Reason) (s : State) : (orderedOut p sl t r s).offers =
    (modOffer t (Offer.orderedOut r) s).offers := by
  unfold orderedOut
  rw [clearServed_offers, modOffer_offers, handOrder_offers]
  rfl

theorem orderedOut_lines (p : Fin 4) (sl : Slot) (t : Nat) (r : Reason) (s : State) : (orderedOut p sl t r s).lines =
    (handOrder (.src p) (.gate (exitGate sl)) s).lines := by
  unfold orderedOut
  rw [(clearServed_fields ..).2.2.1]
  have faulted : isFaulted (.src p) (modSrc p (SrcPos.leaving sl (some t) none (s.prof.profile.leaveTimeout * 10)) s) =
      isFaulted (.src p) s := by
    unfold isFaulted
    dsimp only
    rw [modSrc_self]
    cases sl <;> rfl
  show (handOrder _ _ _).lines = _
  unfold handOrder
  rw [faulted]
  split <;> rfl

/-- What ordering a tote out leaves as it was. -/
theorem orderedOut_frame (p : Fin 4) (sl : Slot) (t : Nat) (r : Reason) (s : State) :
    (orderedOut p sl t r s).put = { s.put with lastServed := if s.put.lastServed = some t then none else s.put.lastServed } ∧
      (orderedOut p sl t r s).inputs = s.inputs ∧ (orderedOut p sl t r s).link = s.link ∧
      (orderedOut p sl t r s).arb = s.arb ∧ (orderedOut p sl t r s).wall = s.wall ∧
      (orderedOut p sl t r s).picker = s.picker ∧ (orderedOut p sl t r s).bench = s.bench ∧
      (orderedOut p sl t r s).prof = s.prof ∧ (orderedOut p sl t r s).pending = s.pending := by
  unfold orderedOut
  obtain ⟨-, wall, -, bench, -, arb, prof, link, picker, inputs, pending⟩ := clearServed_fields t
    (modOffer t (Offer.orderedOut r) (handOrder (.src p) (.gate (exitGate sl))
      (modSrc p (SrcPos.leaving sl (some t) none (s.prof.profile.leaveTimeout * 10)) s)))
  rw [wall, bench, arb, prof, link, picker, inputs, pending, clearServed_put]
  simp [modOffer, modSrc]

/-- The release of a tote that a record of the list is for: ordered out, then the RELEASE notice with the record's
figures (R17, R32). -/
theorem releaseSlot_eq {p : Fin 4} {sl : Slot} {t : Nat} {s : State} {o : Offer} (out : s.src[p].releasable sl = true)
    (found : findOffer t s = some o) (r : Reason) : releaseSlot p sl t r s =
      notify (.release (some t) r (some (p, sl)) o.remainingSeconds o.summary) (orderedOut p sl t r s) := by
  have left : findOffer t (orderedOut p sl t r s) = some (o.orderedOut r) := by
    rw [findOffer_congr (orderedOut_offers p sl t r s), findOffer_modOffer (f := Offer.orderedOut r) (fun _ => rfl), found, Option.map_some,
      if_pos (findOffer_tote found)]
  unfold releaseSlot
  rw [if_pos out]
  show (match findOffer t (orderedOut p sl t r s) with
    | none => orderedOut p sl t r s
    | some o => notifyRelease o r (some (p, sl)) (orderedOut p sl t r s)) = _
  rw [left]
  have tote : (o.orderedOut r).tote = t := findOffer_tote (o := o) found
  rw [← tote]
  rfl

/-- A tote without a record is ordered out without a notice. -/
theorem releaseSlot_of_none {p : Fin 4} {sl : Slot} {t : Nat} {s : State} (out : s.src[p].releasable sl = true)
    (missing : findOffer t s = none) (r : Reason) : releaseSlot p sl t r s = orderedOut p sl t r s := by
  have left : findOffer t (orderedOut p sl t r s) = none := by
    rw [findOffer_congr (orderedOut_offers p sl t r s), findOffer_modOffer (f := Offer.orderedOut r) (fun _ => rfl), missing]
    rfl
  unfold releaseSlot
  rw [if_pos out]
  show (match findOffer t (orderedOut p sl t r s) with
    | none => orderedOut p sl t r s
    | some o => notifyRelease o r (some (p, sl)) (orderedOut p sl t r s)) = _
  rw [left]

theorem releaseSlot_of_not {p : Fin 4} {sl : Slot} {t : Nat} {s : State} (out : s.src[p].releasable sl = false)
    (r : Reason) : releaseSlot p sl t r s = s := by
  unfold releaseSlot
  exact if_neg (by rw [out]; decide)

theorem releasable_iff (x : SrcPos) (sl : Slot) : x.releasable sl = true ↔
    match sl with
      | .face => x.face.state = .present
      | .lane => x.lane.state = .staged := by
  cases sl <;> exact beq_iff_eq

/-- An order for a position that is not FAULTED goes to its line alone (R157). -/
theorem handOrder_of_sound {pos : Pos} {s : State} (sound : isFaulted pos s = false) (o : Order) :
    handOrder pos o s = modLine (lineOf pos) (FieldLine.hand o false) s := by
  unfold handOrder
  rw [sound]
  rfl

/-- Settles O29: the slot, the line, the record and the notice, in that order. -/
theorem releaseOrdersToteOut : Obligations.ReleaseOrdersToteOut := by
  intro p sl r o s ok sound out found t
  have eq : t = notify (.release (some o.tote) r (some (p, sl)) o.remainingSeconds o.summary)
      (orderedOut p sl o.tote r s) := releaseSlot_eq ((releasable_iff _ _).mpr out) found r
  obtain ⟨put, inputs, link, arb, wall, picker, bench, prof, pending⟩ := orderedOut_frame p sl o.tote r s
  have src : t.src = (modSrc p (SrcPos.leaving sl (some o.tote) none (s.prof.profile.leaveTimeout * 10)) s).src := by
    rw [eq, notify_src, orderedOut_src]
  have offers : t.offers = (modOffer o.tote (Offer.orderedOut r) s).offers := by
    rw [eq, notify_offers, orderedOut_offers]
  have lines : t.lines = (modLine (lineOf (.src p)) (FieldLine.hand (.gate (exitGate sl)) false) s).lines := by
    rw [eq, notify_lines, orderedOut_lines, handOrder_of_sound (by simpa [isFaulted] using sound)]
  refine ⟨?_, fun p' ne => ?_, ?_, fun i ne => ?_, ?_, fun i ne => ?_, ?_, ?_, ?_, ?_, ?_, ?_, ?_, ?_, ?_⟩
  · rw [src, modSrc_self]
    cases sl <;> rfl
  · rw [src, modSrc_other (Ne.symm ne)]
  · rw [findOffer_congr offers, findOffer_modOffer (f := Offer.orderedOut r) (fun _ => rfl), found, Option.map_some, if_pos rfl]
    rfl
  · rw [offers, modOffer_getElem?]
    cases e : s.offers[i]? with
    | none => rfl
    | some o' =>
      rw [Option.map_some, if_neg fun same => ne ?_]
      rw [e, ok.eq_of_tote (List.mem_of_getElem? e) (findOffer_mem found) same]
  · rw [lines, modLine_getElem, if_pos rfl]
    cases sl <;> rfl
  · rw [lines, modLine_getElem, if_neg (Ne.symm ne)]
  · rw [eq, notify_link_congr link bench prof]
  · rw [eq, notify_put, put]
  · rw [eq, notify_inputs, inputs]
  · rw [eq, notify_arb, arb]
  · rw [eq, notify_wall, wall]
  · rw [eq, notify_picker, picker]
  · rw [eq, notify_bench, bench]
  · rw [eq, notify_prof, prof]
  · rw [eq, notify_pending, pending]

end Sys2Proof.Machine

namespace Sys2Proof.Machine

/-!
The arbitration (R46 to R51): what is callable and eligible, the choice, what it may change, and what it leaves.
-/

/-! ## Callable and eligible (R46, R47) -/

theorem isCold_iff_ne (t : Temp) : t.isCold = true ↔ t ≠ .ambient := by cases t <;> decide

/-- Some record EXPECTED, ARRIVED or ACTIVE holds the ref (R47). -/
theorem wallHolds_any_iff (ref : Nat) (s : State) : wallHolds ref (fun _ => true) s = true ↔
    ∃ (q : Fin 12) (r : Rec), s.wall.pos[q].record = some r ∧ r.ref = ref ∧
      (s.wall.pos[q].state = .expected ∨ s.wall.pos[q].state = .arrived ∨ s.wall.pos[q].state = .active) := by
  rw [wallHolds_iff]
  exact exists₂_congr fun q r => and_congr_right fun _ => ⟨fun ⟨st, e, _⟩ => ⟨e, st⟩, fun ⟨e, st⟩ => ⟨st, e, rfl⟩⟩

theorem passesExposure_iff (o : Offer) (pr : Profile) : o.passesExposure pr = true ↔
    ∀ e, o.exposure = some e → (pr.travelCharge + pr.minDwell) * 10 ≤ e.remaining := by
  unfold Offer.passesExposure
  cases o.exposure <;> simp

theorem eligible_iff (p : Fin 4) (o : Offer) (s : State) : eligible p o s = true ↔
    o.state = .waiting ∧ (∃ l ∈ o.lines, l.state = .opn ∧ wallHolds l.ref (fun _ => true) s = true) ∧
      (o.temp ≠ .ambient → s.prof.profile.coldCapable[p] = true ∧ s.picker.cond ≠ .idle ∧
        o.passesExposure s.prof.profile = true) := by
  unfold eligible
  simp only [Bool.and_eq_true, Bool.or_eq_true, decide_eq_true_eq, List.any_eq_true, beq_iff_eq, Bool.not_eq_true',
    ← isCold_iff_ne, and_assoc]
  cases o.temp.isCold <;> simp

/-! ## The choice (R51) -/

/-- The offers of a class that are eligible for a slot of a position, in list order. -/
def ableOf (p : Fin 4) (c : ReqClass) (s : State) (o : Offer) : Bool := eligible p o s && reqClass o s == c

theorem ableOf_iff {p : Fin 4} {c : ReqClass} {s : State} {o : Offer} :
    ableOf p c s o = true ↔ eligible p o s = true ∧ reqClass o s = c := by
  unfold ableOf
  rw [Bool.and_eq_true, beq_iff_eq]

/-- Whether an eligible COLD offer of a temperature waits. -/
def coldWaits (p : Fin 4) (s : State) (t : Temp) : Bool := s.offers.any fun o => ableOf p .cold s o && o.temp == t

/-- The temperature chosen for COLD (step 2 of R51). -/
def chosenTemp (p : Fin 4) (s : State) : Temp :=
  coldChoice (coldWaits p s .frozen) (coldWaits p s .chilled) s.prof.profile.coldAlternation s.arb.lastCold

/-- The offer chosen from one class: the earliest, for COLD the earliest of the chosen temperature. -/
def choiceOf (p : Fin 4) (s : State) (c : ReqClass) : Option Offer :=
  s.offers.find? fun o => ableOf p c s o && (c != .cold || o.temp == chosenTemp p s)

theorem chooseOffer_eq (p : Fin 4) (s : State) :
    chooseOffer p s = s.arb.ladder.findSome? fun c => (choiceOf p s c).map fun o => (o, c) := by
  unfold chooseOffer
  dsimp only
  refine congrArg (fun f => s.arb.ladder.findSome? f) (funext fun c => ?_)
  have able : (s.offers.filter fun o => eligible p o s).filter (fun o => reqClass o s == c) =
      s.offers.filter (ableOf p c s) := by
    rw [List.filter_filter]
    exact List.filter_congr fun o _ => Bool.and_comm ..
  rw [able]
  unfold choiceOf
  cases c with
  | cold =>
    dsimp only
    rw [List.any_filter, List.any_filter, List.find?_filter]
    refine congrArg (fun f => (s.offers.find? f).map fun o => (o, ReqClass.cold)) (funext fun o => ?_)
    rw [Bool.decide_and, Bool.decide_eq_true, Bool.decide_eq_true]
    rfl
  | ret => simp only [List.head?_filter, show (ReqClass.ret != ReqClass.cold) = true from rfl, Bool.true_or, Bool.and_true]
  | expedite =>
    simp only [List.head?_filter, show (ReqClass.expedite != ReqClass.cold) = true from rfl, Bool.true_or, Bool.and_true]
  | ambient =>
    simp only [List.head?_filter, show (ReqClass.ambient != ReqClass.cold) = true from rfl, Bool.true_or, Bool.and_true]

theorem isCold_of_reqClass {o : Offer} {s : State} (h : reqClass o s = .cold) : o.temp.isCold = true := by
  unfold reqClass at h
  split at h
  · cases h
  · split at h
    · cases h
    · split at h
      · assumption
      · cases h

/-- With a COLD offer eligible, one of the chosen temperature is. -/
theorem coldWaits_chosenTemp {p : Fin 4} {s : State} {o : Offer} (h : o ∈ s.offers) (able : ableOf p .cold s o = true) :
    coldWaits p s (chosenTemp p s) = true := by
  have some : coldWaits p s .frozen = true ∨ coldWaits p s .chilled = true := by
    have cold := (isCold_iff o.temp).mp (isCold_of_reqClass (ableOf_iff.mp able).2)
    unfold coldWaits
    simp only [List.any_eq_true, Bool.and_eq_true, beq_iff_eq]
    exact cold.elim (fun e => .inr ⟨o, h, able, e⟩) fun e => .inl ⟨o, h, able, e⟩
  have frozen : chosenTemp p s = .frozen → coldWaits p s .frozen = true ∨ coldWaits p s .chilled = false := by
    unfold chosenTemp coldChoice
    cases coldWaits p s .frozen <;> cases coldWaits p s .chilled <;> simp
  have chilled : chosenTemp p s = .chilled → coldWaits p s .chilled = true ∨ coldWaits p s .frozen = false := by
    unfold chosenTemp coldChoice
    cases coldWaits p s .frozen <;> cases coldWaits p s .chilled <;> simp
  have ambient : chosenTemp p s ≠ .ambient := by
    unfold chosenTemp coldChoice
    split
    · split <;> decide
    · split <;> decide
  cases e : chosenTemp p s with
  | ambient => exact absurd e ambient
  | frozen => rcases frozen e with h | h <;> simp_all
  | chilled => rcases chilled e with h | h <;> simp_all

/-- No choice from a class exactly when no offer of the class is eligible. -/
theorem choiceOf_eq_none {p : Fin 4} {s : State} {c : ReqClass} :
    choiceOf p s c = none ↔ ∀ o ∈ s.offers, ableOf p c s o = false := by
  unfold choiceOf
  rw [List.find?_eq_none]
  constructor
  · intro none o ho
    by_contra able
    rw [Bool.not_eq_false] at able
    by_cases cold : c = .cold
    · subst cold
      have waits := coldWaits_chosenTemp ho able
      unfold coldWaits at waits
      obtain ⟨x, hx, ok⟩ := List.any_eq_true.mp waits
      exact none x hx (by simpa using ok)
    · exact none o ho (by simp [able, cold])
  · intro none o ho h
    rw [none o ho] at h
    cases h

/-- The choice from a class: the earliest of its eligible offers, for COLD of the chosen temperature. -/
theorem choiceOf_eq_some {p : Fin 4} {s : State} {c : ReqClass} {o : Offer} (h : choiceOf p s c = some o) :
    ableOf p c s o = true ∧ (c = .cold → o.temp = chosenTemp p s) ∧ ∃ front back, s.offers = front ++ o :: back ∧
      ∀ o' ∈ front, ableOf p c s o' = true → c = .cold ∧ o'.temp ≠ o.temp := by
  unfold choiceOf at h
  rw [List.find?_eq_some_iff_append] at h
  obtain ⟨ok, front, back, list, others⟩ := h
  rw [Bool.and_eq_true, Bool.or_eq_true, bne_iff_ne, beq_iff_eq] at ok
  obtain ⟨able, temp⟩ := ok
  have cold : c = .cold → o.temp = chosenTemp p s := fun e => temp.resolve_left fun ne => ne e
  refine ⟨able, cold, front, back, list, fun o' ho able' => ?_⟩
  have not := others o' ho
  rw [able', Bool.true_and, Bool.not_eq_true', Bool.or_eq_false_iff, bne_eq_false_iff_eq, beq_eq_false_iff_ne] at not
  exact ⟨not.1, cold not.1 ▸ not.2⟩

theorem mem_ladder {l : List ReqClass} (h : isLadder l = true) (c : ReqClass) : c ∈ l := by
  unfold isLadder at h
  rw [Bool.and_eq_true, List.all_eq_true] at h
  exact List.contains_iff_mem.mp (h.2 c (by cases c <;> decide))

/-- No choice exactly when no offer is eligible: the ladder names every class. -/
theorem chooseOffer_eq_none {p : Fin 4} {s : State} (ladder : isLadder s.arb.ladder = true) :
    chooseOffer p s = none ↔ ∀ o ∈ s.offers, eligible p o s = false := by
  rw [chooseOffer_eq, List.findSome?_eq_none_iff]
  simp only [Option.map_eq_none_iff, choiceOf_eq_none]
  constructor
  · intro none o ho
    by_contra able
    rw [Bool.not_eq_false] at able
    have := none (reqClass o s) (mem_ladder ladder _) o ho
    rw [ableOf_iff.mpr ⟨able, rfl⟩] at this
    cases this
  · intro none c _ o ho
    unfold ableOf
    rw [none o ho]
    rfl

theorem chooseOffer_eq_some {p : Fin 4} {s : State} {o : Offer} {c : ReqClass} (h : chooseOffer p s = some (o, c)) :
    choiceOf p s c = some o ∧ ∃ higher lower, s.arb.ladder = higher ++ c :: lower ∧
      ∀ c' ∈ higher, ∀ o' ∈ s.offers, ableOf p c' s o' = false := by
  rw [chooseOffer_eq, List.findSome?_eq_some_iff] at h
  obtain ⟨higher, c', lower, ladder, found, none⟩ := h
  obtain ⟨o', choice, e⟩ := Option.map_eq_some_iff.mp found
  cases e
  exact ⟨choice, higher, lower, ladder, fun c' hc => choiceOf_eq_none.mp (Option.map_eq_none_iff.mp (none c' hc))⟩

/-! ## The exposure drop (R48) -/

/-- A WAITING cold offer that fails the exposure test. -/
def dropsOut (s : State) (o : Offer) : Bool :=
  o.temp.isCold && decide (o.state = .waiting) && !(o.passesExposure s.prof.profile)

theorem dropsOut_iff {s : State} {o : Offer} :
    dropsOut s o = true ↔ o.state = .waiting ∧ o.temp ≠ .ambient ∧ o.passesExposure s.prof.profile = false := by
  unfold dropsOut
  rw [Bool.and_eq_true, Bool.and_eq_true, Bool.not_eq_true', decide_eq_true_eq, isCold_iff_ne, and_assoc, and_left_comm]

/-- The exposure test as it is written out in R48. -/
theorem dropsOut_eq (s : State) (o : Offer) : dropsOut s o = (o.state == .waiting && o.temp != .ambient &&
    o.exposure.any fun e => decide (e.budget * 10 - e.used <
      (s.prof.profile.travelCharge + s.prof.profile.minDwell) * 10)) := by
  have waits : decide (o.state = .waiting) = (o.state == .waiting) := by cases o.state <;> rfl
  have cold : o.temp.isCold = (o.temp != .ambient) := by cases o.temp <;> rfl
  have fails : (!o.passesExposure s.prof.profile) = o.exposure.any fun e => decide (e.budget * 10 - e.used <
      (s.prof.profile.travelCharge + s.prof.profile.minDwell) * 10) := by
    unfold Offer.passesExposure
    cases o.exposure with
    | none => rfl
    | some e =>
      show (!decide (_ ≤ e.budget * 10 - e.used)) = decide (e.budget * 10 - e.used < _)
      by_cases h : (s.prof.profile.travelCharge + s.prof.profile.minDwell) * 10 ≤ e.budget * 10 - e.used
      · rw [decide_eq_true h, decide_eq_false (Nat.not_lt.mpr h)]; rfl
      · rw [decide_eq_false h, decide_eq_true (Nat.lt_of_not_le h)]; rfl
  unfold dropsOut
  rw [waits, cold, fails, Bool.and_comm (o.temp != .ambient)]

theorem dropExposed_offers (s : State) (o : Offer) :
    (dropExposed s o).offers = s.offers.filter fun x => x.tote != o.tote := by
  unfold dropExposed notifyRelease
  rw [notify_offers]
  exact clearServed_offers ..

/-- What is dropped stays dropped. -/
theorem foldl_dropExposed_offers (l : List Offer) (s : State) :
    (l.foldl dropExposed s).offers = s.offers.filter fun x => l.all fun o => x.tote != o.tote := by
  induction l generalizing s with
  | nil => simp
  | cons o l ih =>
    rw [List.foldl_cons, ih, dropExposed_offers, List.filter_filter]
    exact List.filter_congr fun x _ => by rw [List.all_cons, Bool.and_comm]

theorem not_mem_of_totes {s t : State} (h : (t.offers.map fun o => o.tote).Sublist (s.offers.map fun o => o.tote)) {x : Nat}
    (none : ∀ o ∈ s.offers, o.tote ≠ x) : ∀ o ∈ t.offers, o.tote ≠ x := fun o ho e => by
  obtain ⟨o', ho', e'⟩ := List.mem_map.mp (h.subset (List.mem_map_of_mem ho))
  exact none o' ho' (e'.trans e)

theorem arbitrate_of_callable {s : State} (h : ∃ (p : Fin 4) (sl : Slot), callable p sl s = true) :
    arbitrate s = slotOrder.foldl considerSlot ((failingOffers s).foldl dropExposed s) := by
  obtain ⟨p, sl, c⟩ := h
  unfold arbitrate
  rw [if_pos (List.any_eq_true.mpr ⟨(p, sl), by fin_cases p <;> cases sl <;> decide, c⟩)]

theorem arbitrate_of_none {s : State} (h : ∀ (p : Fin 4) (sl : Slot), callable p sl s = false) : arbitrate s = s := by
  unfold arbitrate
  rw [if_neg]
  rw [List.any_eq_true]
  rintro ⟨⟨p, sl⟩, -, c⟩
  rw [h p sl] at c
  cases c

/-! ## Nothing eligible left at a callable slot -/

/-- A slot that is not callable, or has no eligible offer. -/
def Settled (s : State) (x : Fin 4 × Slot) : Prop :=
  callable x.1 x.2 s = true → ∀ o ∈ s.offers, eligible x.1 o s = false

/-- A slot that a call may be made to, position state and depth apart (R46). -/
def SrcPos.slotFree (x : SrcPos) (sl : Slot) : Prop :=
  match sl with
  | .face => x.face.state = .empty
  | .lane => x.depth = 1 ∧ x.face.state = .present ∧ x.lane.state = .empty

/-- A slot that is free after another has been called was free before. -/
theorem SrcPos.slotFree_of_called {x : SrcPos} {sl sl' : Slot} {t time : Nat} (h : (x.called sl t time).slotFree sl') :
    x.slotFree sl' := by
  cases sl <;> cases sl'
  · cases h
  · obtain ⟨-, face, -⟩ := h
    cases face
  · exact h
  · obtain ⟨-, -, lane⟩ := h
    cases lane

/-- A grant of another slot leaves a callable slot callable only if it was. -/
theorem callable_of_grant {p p' : Fin 4} {sl sl' : Slot} {o : Offer} {c : ReqClass} {s : State}
    (h : callable p' sl' (grant p sl o c s) = true) : callable p' sl' s = true := by
  obtain ⟨-, -, -, picker, bench, -⟩ := grant_frame p sl o c s
  rw [callable_iff] at h ⊢
  have count : noticeCount s ≤ noticeCount (grant p sl o c s) := by
    obtain ⟨ns, e⟩ := (grant_quiet p sl o c s).out
    unfold noticeCount
    rw [e, List.countP_append]
    omega
  rw [bench, picker] at h
  obtain ⟨mode, cond, room, opn, slot⟩ := h
  by_cases e : p = p'
  · subst e
    rw [grant_src, modSrc_self] at opn slot
    exact ⟨mode, cond, Nat.lt_of_le_of_lt count room, by cases sl <;> exact opn,
      SrcPos.slotFree_of_called (sl' := sl') slot⟩
  · rw [grant_src, modSrc_other e] at opn slot
    exact ⟨mode, cond, Nat.lt_of_le_of_lt count room, opn, slot⟩

/-- A grant makes no offer eligible. -/
theorem eligible_of_grant {p p' : Fin 4} {sl : Slot} {o x : Offer} {c : ReqClass} {s : State}
    (hx : x ∈ (grant p sl o c s).offers) (h : eligible p' x (grant p sl o c s) = true) :
    x ∈ s.offers ∧ eligible p' x s = true := by
  obtain ⟨-, wall, -, picker, -, prof, -⟩ := grant_frame p sl o c s
  have same : eligible p' x (grant p sl o c s) = eligible p' x s := by
    unfold eligible wallHolds
    rw [wall, picker, prof]
  rw [same] at h
  refine ⟨?_, h⟩
  rw [grant_offers] at hx
  obtain ⟨y, hy, e⟩ := List.mem_map.mp hx
  split at e
  · subst e
    have waiting := ((eligible_iff ..).mp h).1
    cases waiting
  · exact e ▸ hy

theorem Settled.grant {s : State} {x : Fin 4 × Slot} (h : Settled s x) (p : Fin 4) (sl : Slot) (o : Offer) (c : ReqClass) :
    Settled (grant p sl o c s) x := fun callable y hy => by
  by_contra able
  rw [Bool.not_eq_false] at able
  obtain ⟨mem, able⟩ := eligible_of_grant hy able
  rw [h (callable_of_grant callable) y mem] at able
  cases able

theorem settled_of_considerSlot {s : State} (ladder : isLadder s.arb.ladder = true) (x : Fin 4 × Slot) :
    Settled (considerSlot s x) x := by
  unfold considerSlot
  split
  · next free =>
    split
    · next none => exact fun _ => (chooseOffer_eq_none ladder).mp none
    · intro again
      rw [callable_iff, grant_src, modSrc_self] at again
      obtain ⟨-, -, -, -, slot⟩ := again
      obtain ⟨p, sl⟩ := x
      cases sl <;> simp [SrcPos.called] at slot
  · next busy => exact fun free => absurd free busy

theorem Settled.considerSlot {s : State} {x : Fin 4 × Slot} (h : Settled s x) (y : Fin 4 × Slot) :
    Settled (considerSlot s y) x := by
  unfold Machine.considerSlot
  split
  · split
    · exact h
    · exact h.grant _ _ _ _
  · exact h

theorem isLadder_considerSlot {s : State} (h : isLadder s.arb.ladder = true) (x : Fin 4 × Slot) :
    isLadder (considerSlot s x).arb.ladder = true := by
  unfold considerSlot
  split
  · split
    · exact h
    · rw [grant_arb]; exact isLadder_afterGrant h ..
  · exact h

/-- Every slot considered is settled in the end. -/
theorem settled_foldl (l : List (Fin 4 × Slot)) {s : State} (ladder : isLadder s.arb.ladder = true) {x : Fin 4 × Slot}
    (h : x ∈ l ∨ Settled s x) : Settled (l.foldl considerSlot s) x := by
  induction l generalizing s with
  | nil => exact h.resolve_left List.not_mem_nil
  | cons y l ih =>
    refine ih (isLadder_considerSlot ladder y) ?_
    rcases h with mem | settled
    · rcases List.mem_cons.mp mem with rfl | mem
      · exact .inr (settled_of_considerSlot ladder _)
      · exact .inl mem
    · exact .inr (settled.considerSlot y)

theorem foldl_dropExposed_arb (l : List Offer) (s : State) : (l.foldl dropExposed s).arb = s.arb := by
  induction l generalizing s with
  | nil => rfl
  | cons o l ih =>
    rw [List.foldl_cons, ih]
    unfold dropExposed notifyRelease
    rw [notify_arb]
    exact (clearServed_fields ..).2.2.2.2.2.1

theorem mem_slotOrder (x : Fin 4 × Slot) : x ∈ slotOrder := by
  obtain ⟨p, sl⟩ := x
  fin_cases p <;> cases sl <;> decide

/-- Settles O25: the choice class by class, the drops before the grants, and each slot settled once considered. -/
theorem arbitrationServesEveryCallableSlot : Obligations.ArbitrationServesEveryCallableSlot := by
  refine ⟨fun s p sl => ?_, fun s p o => ?_, fun s p ladder => ⟨(chooseOffer_eq_none ladder).mpr, fun ⟨o, ho, able⟩ => ?_⟩,
    fun s free => ⟨?_, fun o ho fails o' ho' => ?_⟩, fun s ladder p sl free o ho => ?_⟩
  · have cond : s.picker.cond ≠ .held ↔ s.picker.cond = .active ∨ s.picker.cond = .idle := by
      cases s.picker.cond <;> decide
    rw [callable_iff, cond]
    cases sl <;> rfl
  · rw [eligible_iff, passesExposure_iff]
    simp only [wallHolds_any_iff]
    rfl
  · cases e : chooseOffer p s with
    | none =>
      rw [(chooseOffer_eq_none ladder).mp e o ho] at able
      cases able
    | some x =>
      obtain ⟨o, c⟩ := x
      obtain ⟨choice, higher, lower, list, none⟩ := chooseOffer_eq_some e
      obtain ⟨able, temp, front, back, offers, others⟩ := choiceOf_eq_some choice
      have mem : o ∈ s.offers := offers ▸ by simp
      refine ⟨o, c, rfl, ⟨higher, lower, list, fun c' hc o' h => ?_⟩, ⟨front, back, offers, fun o' ho' h => ?_⟩,
        ⟨mem, ableOf_iff.mp able⟩, temp⟩
      · obtain ⟨mem, able⟩ := h
        have := none c' hc o' mem
        rw [ableOf_iff.mpr able] at this
        cases this
      · exact others o' ho' (ableOf_iff.mpr h.2)
  · rw [arbitrate_of_callable free]
    have drops : failingOffers s = s.offers.filter (fun o => o.state == .waiting && o.temp != .ambient &&
        o.exposure.any fun e => decide (e.budget * 10 - e.used <
          (s.prof.profile.travelCharge + s.prof.profile.minDwell) * 10)) := by
      exact List.filter_congr fun o _ => dropsOut_eq s o
    rw [drops]
    rfl
  · have fails : dropsOut s o = true := (dropsOut_eq s o).trans fails
    rw [arbitrate_of_callable free] at ho'
    refine not_mem_of_totes (Quiet.foldl considerSlot_quiet slotOrder _).totes (fun x hx e => ?_) o' ho'
    rw [foldl_dropExposed_offers] at hx
    have kept := List.all_eq_true.mp (List.mem_filter.mp hx).2 o (List.mem_filter.mpr ⟨ho, fails⟩)
    exact absurd e (bne_iff_ne.mp kept)
  · by_cases some : ∃ (p : Fin 4) (sl : Slot), callable p sl s = true
    · rw [arbitrate_of_callable some] at free ho ⊢
      have ladder' : isLadder ((failingOffers s).foldl dropExposed s).arb.ladder = true := by
        rw [foldl_dropExposed_arb]; exact ladder
      exact settled_foldl slotOrder ladder' (x := (p, sl)) (.inl (mem_slotOrder _)) free o ho
    · have none : ∀ (p : Fin 4) (sl : Slot), callable p sl s = false := fun p sl => by
        by_contra h
        exact some ⟨p, sl, by simpa using h⟩
      rw [arbitrate_of_none none, none] at free
      cases free

end Sys2Proof.Machine

namespace Sys2Proof.Machine

/-!
What an arbitration may change (R21, R45, R48, R53, R80): an invariant of the drops and the grants, taken from the state
the arbitration begins in.
-/

/-- The body of a notice of an arbitration: the CALL of an offer granted, or the RELEASE of one dropped (R21, R53). -/
def arbNotice (s : State) (b : NoticeBody) : Prop :=
  ∃ o ∈ s.offers, o.state = .waiting ∧
    ((∃ p sl c, b = .call o.tote p sl o.temp c o.lapses (o.granted p sl s.prof.profile).remainingSeconds
        (s.prof.profile.callTimeout * 10)) ∨
      o.temp ≠ .ambient ∧ o.passesExposure s.prof.profile = false ∧
        b = .release (some o.tote) .exposed none o.remainingSeconds o.summary)

/-- The link during an arbitration: notices of the arbitration added, the lost flag set only at the capacity. -/
structure ArbLink (s u : State) : Prop where
  rx : u.link.rx = s.link.rx
  inbox : u.link.inbox = s.link.inbox
  held : u.link.held = s.link.held
  out : ∃ ns : List Notice, u.link.out = s.link.out ++ ns.map OutEntry.notice ∧
    ∀ n ∈ ns, n.clock = s.bench.clock ∧ arbNotice s n.body
  lost : u.link.lost = s.link.lost ∨ u.link.lost = true ∧ 64 ≤ noticeCount u

/-- The source positions during an arbitration: EMPTY slots of OPEN positions become CALLED. -/
def ArbSrc (x y : SrcPos) : Prop :=
  y = { x with face := y.face, lane := y.lane } ∧
    (y.face = x.face ∨ x.state = .opn ∧ x.face.state = .empty ∧ y.face.state = .called) ∧
    (y.lane = x.lane ∨ x.state = .opn ∧ x.face.state = .present ∧ x.lane.state = .empty ∧ y.lane.state = .called)

/-- The offer list during an arbitration: WAITING offers are granted or, cold and short of exposure, dropped. -/
structure ArbOffers (s u : State) : Prop where
  totes : (u.offers.map fun o => o.tote).Sublist (s.offers.map fun o => o.tote)
  dropped : ∀ o ∈ s.offers, (∀ o' ∈ u.offers, o'.tote ≠ o.tote) →
    o.state = .waiting ∧ o.temp ≠ .ambient ∧ o.passesExposure s.prof.profile = false
  kept : ∀ o ∈ s.offers, o.state ≠ .waiting → o ∈ u.offers
  origin : ∀ o ∈ u.offers, o ∈ s.offers ∨
    ∃ o' ∈ s.offers, o'.state = .waiting ∧ ∃ p sl, o = o'.granted p sl s.prof.profile

/-- What an arbitration that began in `s` has changed so far. -/
structure ArbSoFar (s u : State) : Prop where
  inputs : u.inputs = s.inputs
  pending : u.pending = s.pending
  prof : u.prof = s.prof
  bench : u.bench = s.bench
  picker : u.picker = s.picker
  wall : u.wall = s.wall
  lines : u.lines = s.lines
  cycle : u.put.cycle = s.put.cycle
  graceT : u.put.graceT = s.put.graceT
  link : ArbLink s u
  served : u.put.lastServed = s.put.lastServed ∨ u.put.lastServed = none ∧
    ∃ o ∈ s.offers, s.put.lastServed = some o.tote ∧ ∀ o' ∈ u.offers, o'.tote ≠ o.tote
  ladder : s.prof.profile.rotate = false → u.arb.ladder = s.arb.ladder
  lastCold : u.arb.lastCold = s.arb.lastCold ∨ u.arb.lastCold = some .chilled ∨ u.arb.lastCold = some .frozen
  src : ∀ p : Fin 4, ArbSrc s.src[p] u.src[p]
  offers : ArbOffers s u

/-! ## The link -/

theorem ArbLink.of_eq {s u v : State} (h : ArbLink s u) (link : v.link = u.link) : ArbLink s v := by
  obtain ⟨rx, inbox, held, out, lost⟩ := h
  have count : noticeCount v = noticeCount u := by unfold noticeCount; rw [link]
  exact ⟨link ▸ rx, link ▸ inbox, link ▸ held, link ▸ out, by rw [link, count]; exact lost⟩

/-- A CALL or RELEASE notice is not maskable: it is queued, or sets the lost flag with 64 notices held (R167, R168). -/
theorem ArbLink.notify {s u : State} (h : ArbLink s u) {b : NoticeBody} (mask : b.maskEntry u.prof.profile.mask = none)
    (clock : u.bench.clock = s.bench.clock) (body : arbNotice s b) : ArbLink s (notify b u) := by
  obtain ⟨rx, inbox, held, ⟨ns, out, all⟩, lost⟩ := h
  unfold Machine.notify
  rw [mask]
  dsimp only
  split
  · refine ⟨rx, inbox, held, ⟨ns ++ [{ clock := u.bench.clock, body := b }], ?_, fun n hn => ?_⟩, ?_⟩
    · simp [pushNotice, out]
    · rcases List.mem_append.mp hn with old | new
      · exact all n old
      · rw [List.mem_singleton.mp new]
        exact ⟨clock, body⟩
    · refine lost.imp id fun ⟨set, full⟩ => ⟨set, ?_⟩
      rw [noticeCount_pushNotice]
      exact Nat.le_succ_of_le full
  · next full => exact ⟨rx, inbox, held, ⟨ns, out, all⟩, .inr ⟨rfl, Nat.le_of_not_lt full⟩⟩

/-! ## Drops -/

theorem ArbOffers.drop {s u : State} (h : ArbOffers s u) {o : Offer} (ho : o ∈ s.offers) (ok : s.offersOk)
    (drops : dropsOut s o = true) {v : State} (offers : v.offers = u.offers.filter fun x => x.tote != o.tote) :
    ArbOffers s v := by
  have waiting := dropsOut_iff.mp drops
  refine ⟨?_, fun x hx gone => ?_, fun x hx busy => ?_, fun x hx => ?_⟩
  · rw [offers]
    exact (List.filter_sublist.map _).trans h.totes
  · by_cases e : x.tote = o.tote
    · rw [ok.eq_of_tote hx ho e]
      exact waiting
    · refine h.dropped x hx fun y hy same => gone y ?_ same
      rw [offers]
      exact List.mem_filter.mpr ⟨hy, bne_iff_ne.mpr fun e' => e (same.symm.trans e')⟩
  · rw [offers]
    refine List.mem_filter.mpr ⟨h.kept x hx busy, bne_iff_ne.mpr fun e => busy ?_⟩
    rw [ok.eq_of_tote hx ho e]
    exact waiting.1
  · rw [offers] at hx
    exact h.origin x (List.mem_of_mem_filter hx)

theorem ArbSoFar.dropExposed {s u : State} (h : ArbSoFar s u) (ok : s.offersOk) {o : Offer} (ho : o ∈ s.offers)
    (drops : dropsOut s o = true) : ArbSoFar s (dropExposed u o) := by
  obtain ⟨waiting, cold, fails⟩ := dropsOut_iff.mp drops
  obtain ⟨src, wall, lines, bench, -, arb, prof, link, picker, inputs, pending⟩ :=
    clearServed_fields o.tote (eraseOffer o.tote u)
  have put := clearServed_put o.tote (eraseOffer o.tote u)
  have offers := dropExposed_offers u o
  unfold Machine.dropExposed notifyRelease at *
  have gone : ∀ x ∈ (notify (.release (some o.tote) .exposed none o.remainingSeconds o.summary)
      (dropOffer o.tote u)).offers, x.tote ≠ o.tote := fun x hx => by
    rw [offers] at hx
    exact bne_iff_ne.mp (List.mem_filter.mp hx).2
  refine ⟨(notify_inputs ..).trans (inputs.trans h.inputs), (notify_pending ..).trans (pending.trans h.pending),
    (notify_prof ..).trans (prof.trans h.prof), (notify_bench ..).trans (bench.trans h.bench),
    (notify_picker ..).trans (picker.trans h.picker), (notify_wall ..).trans (wall.trans h.wall),
    (notify_lines ..).trans (lines.trans h.lines), ?_, ?_, ?_, ?_, fun off => ?_, ?_, fun p => ?_,
    h.offers.drop ho ok drops offers⟩
  · rw [notify_put]
    exact (congrArg PutSeq.cycle put).trans h.cycle
  · rw [notify_put]
    exact (congrArg PutSeq.graceT put).trans h.graceT
  · refine (h.link.of_eq link).notify rfl (congrArg Bench.clock (bench.trans h.bench)) ⟨o, ho, waiting, .inr ⟨cold, fails, rfl⟩⟩
  · have pointer : (notify (.release (some o.tote) .exposed none o.remainingSeconds o.summary)
        (dropOffer o.tote u)).put.lastServed = if u.put.lastServed = some o.tote then none else u.put.lastServed := by
      rw [notify_put]
      exact congrArg PutSeq.lastServed put
    rw [pointer]
    rcases h.served with same | ⟨cleared, x, hx, was, none⟩
    · split
      · next e => exact .inr ⟨rfl, o, ho, same ▸ e, gone⟩
      · exact .inl same
    · refine .inr ⟨by rw [cleared]; rfl, x, hx, was, fun y hy => ?_⟩
      rw [offers] at hy
      exact none y (List.mem_of_mem_filter hy)
  · rw [notify_arb]
    exact (congrArg Arbiter.ladder arb).trans (h.ladder off)
  · rw [notify_arb]
    exact (congrArg Arbiter.lastCold arb) ▸ h.lastCold
  · rw [notify_src]
    exact src ▸ h.src p

/-! ## Grants -/

theorem ArbSrc.called {x y : SrcPos} (h : ArbSrc x y) {sl : Slot} (opn : y.state = .opn) (free : y.slotFree sl)
    (t time : Nat) : ArbSrc x (y.called sl t time) := by
  obtain ⟨frame, face, lane⟩ := h
  have state : x.state = .opn := by rw [frame] at opn; exact opn
  cases sl with
  | face =>
    refine ⟨by rw [frame]; rfl, .inr ⟨state, ?_, rfl⟩, lane⟩
    rcases face with same | ⟨-, -, called⟩
    · exact same ▸ free
    · rw [SrcPos.slotFree, called] at free
      cases free
  | lane =>
    obtain ⟨-, present, empty⟩ := free
    refine ⟨by rw [frame]; rfl, face, .inr ⟨state, ?_, ?_, rfl⟩⟩
    · rcases face with same | ⟨-, -, called⟩
      · exact same ▸ present
      · rw [called] at present
        cases present
    · rcases lane with same | ⟨-, -, -, called⟩
      · exact same ▸ empty
      · rw [called] at empty
        cases empty

theorem ArbOffers.grant {s u : State} (h : ArbOffers s u) {o : Offer} (ho : o ∈ s.offers) (ok : s.offersOk)
    (waiting : o.state = .waiting) (p : Fin 4) (sl : Slot) {v : State}
    (offers : v.offers = (modOffer o.tote (fun x => x.granted p sl s.prof.profile) u).offers) (here : o ∈ u.offers) :
    ArbOffers s v := by
  have distinct : (u.offers.map fun o => o.tote).Nodup := ok.2.sublist h.totes
  have totes : v.offers.map (fun o => o.tote) = u.offers.map fun o => o.tote := by
    rw [offers, modOffer_offers, List.map_map]
    exact List.map_congr_left fun x _ => by
      simp only [Function.comp]
      split <;> rfl
  refine ⟨totes ▸ h.totes, fun x hx gone => h.dropped x hx fun y hy same => ?_, fun x hx busy => ?_, fun x hx => ?_⟩
  · have : y.tote ∈ v.offers.map fun o => o.tote := totes ▸ List.mem_map_of_mem hy
    obtain ⟨z, hz, e⟩ := List.mem_map.mp this
    exact gone z hz (e.trans same)
  · rw [offers, modOffer_offers]
    refine List.mem_map.mpr ⟨x, h.kept x hx busy, if_neg fun e => busy ?_⟩
    rw [ok.eq_of_tote hx ho e]
    exact waiting
  · rw [offers, modOffer_offers] at hx
    obtain ⟨y, hy, rfl⟩ := List.mem_map.mp hx
    split
    · next e =>
      rw [List.inj_on_of_nodup_map distinct hy here e]
      exact .inr ⟨o, ho, waiting, p, sl, rfl⟩
    · exact h.origin y hy

/-- An offer that waits during the arbitration waited when it began. -/
theorem ArbOffers.waited {s u : State} (h : ArbOffers s u) {o : Offer} (ho : o ∈ u.offers) (waiting : o.state = .waiting) :
    o ∈ s.offers := by
  rcases h.origin o ho with old | ⟨o', -, -, p, sl, rfl⟩
  · exact old
  · cases waiting

theorem ArbSoFar.considerSlot {s u : State} (h : ArbSoFar s u) (ok : s.offersOk) (x : Fin 4 × Slot) :
    ArbSoFar s (considerSlot u x) := by
  unfold Machine.considerSlot
  split
  · next free =>
    split
    · exact h
    · next o c choice =>
      obtain ⟨p, sl⟩ := x
      obtain ⟨here, able, -⟩ := mem_of_chooseOffer choice
      have waiting := ((eligible_iff ..).mp able).1
      have ho := h.offers.waited here waiting
      obtain ⟨-, -, -, opn, slot⟩ := callable_iff.mp free
      obtain ⟨inputs, wall, put, picker, bench, prof, lines, pending⟩ := grant_frame p sl o c u
      have offers := grant_offers p sl o c u
      have link := grant_link p sl o c u
      have arb := grant_arb p sl o c u
      rw [h.prof] at offers link arb
      refine ⟨inputs.trans h.inputs, pending.trans h.pending, prof.trans h.prof, bench.trans h.bench,
        picker.trans h.picker, wall.trans h.wall, lines.trans h.lines, by rw [put]; exact h.cycle,
        by rw [put]; exact h.graceT, ?_, ?_, fun off => ?_, ?_, fun p' => ?_, h.offers.grant ho ok waiting p sl offers here⟩
      · exact (h.link.notify rfl (congrArg Bench.clock h.bench) ⟨o, ho, waiting, .inl ⟨p, sl, c, rfl⟩⟩).of_eq link
      · rw [put]
        refine h.served.imp id fun ⟨cleared, y, hy, was, gone⟩ => ⟨cleared, y, hy, was, fun z hz => ?_⟩
        rw [offers, modOffer_offers] at hz
        obtain ⟨w, hw, rfl⟩ := List.mem_map.mp hz
        split
        · exact gone w hw
        · exact gone w hw
      · rw [arb]
        unfold Arbiter.afterGrant
        rw [off]
        exact h.ladder off
      · rw [arb]
        unfold Arbiter.afterGrant
        dsimp only
        split
        · next cold =>
          exact .inr (((isCold_iff _).mp cold).imp (fun e => by rw [e]) fun e => by rw [e])
        · exact h.lastCold
      · rw [grant_src, modSrc_getElem]
        split
        · next e =>
          subst e
          exact (h.src p).called opn slot ..
        · exact h.src p'
  · exact h

/-! ## The whole arbitration -/

theorem ArbSoFar.refl (s : State) : ArbSoFar s s :=
  ⟨rfl, rfl, rfl, rfl, rfl, rfl, rfl, rfl, rfl, ⟨rfl, rfl, rfl, ⟨[], by simp, by simp⟩, .inl rfl⟩, .inl rfl,
    fun _ => rfl, .inl rfl, fun _ => ⟨rfl, .inl rfl, .inl rfl⟩,
    ⟨List.Sublist.refl _, fun o ho gone => absurd rfl (gone o ho), fun _ ho _ => ho, fun _ ho => .inl ho⟩⟩

theorem ArbSoFar.drops {s u : State} (h : ArbSoFar s u) (ok : s.offersOk) {l : List Offer}
    (fails : ∀ o ∈ l, o ∈ s.offers ∧ dropsOut s o = true) : ArbSoFar s (l.foldl Machine.dropExposed u) := by
  induction l generalizing u with
  | nil => exact h
  | cons o l ih =>
    obtain ⟨ho, drops⟩ := fails o List.mem_cons_self
    exact ih (h.dropExposed ok ho drops) fun x hx => fails x (List.mem_cons_of_mem _ hx)

theorem ArbSoFar.grants {s u : State} (h : ArbSoFar s u) (ok : s.offersOk) (l : List (Fin 4 × Slot)) :
    ArbSoFar s (l.foldl Machine.considerSlot u) := by
  induction l generalizing u with
  | nil => exact h
  | cons x l ih => exact ih (h.considerSlot ok x)

theorem arbSoFar_arbitrate {s : State} (ok : s.offersOk) : ArbSoFar s (arbitrate s) := by
  unfold arbitrate
  split
  · exact ((ArbSoFar.refl s).drops ok fun o ho => List.mem_filter.mp ho).grants ok slotOrder
  · exact ArbSoFar.refl s

/-- Settles O24: the drops and the grants keep `ArbSoFar`. -/
theorem arbitrationFrame : Obligations.ArbitrationFrame := by
  refine ⟨fun s => arbitrate_of_none, fun s ok => ?_⟩
  obtain ⟨inputs, pending, prof, bench, picker, wall, lines, cycle, graceT, link, served, ladder, lastCold, src, offers⟩ :=
    arbSoFar_arbitrate ok
  obtain ⟨rx, inbox, held, out, lost⟩ := link
  obtain ⟨totes, dropped, kept, origin⟩ := offers
  exact ⟨inputs, pending, prof, bench, picker, wall, lines, cycle, graceT, rx, inbox, held, out, lost, served, ladder,
    lastCold, src, totes, dropped, kept, origin⟩

end Sys2Proof.Machine

namespace Sys2Proof.Machine

/-!
Full marks alter no allocation, and what a chain of allocations marks and reports (R77, R79).
-/

/-! ## An allocation does not see the full marks -/

/-- A record with its full marks disregarded. -/
def Rec.unmarked (r : Rec) : Rec := { r with full := ⟨false, false, false⟩ }

/-- Records alike but for their marks are alike in what an allocation asks for. -/
theorem Rec.fields_of_unmarked {x y : Rec} (h : y.unmarked = x.unmarked) :
    y.ref = x.ref ∧ y.tote = x.tote ∧ y.cond = x.cond :=
  ⟨show y.unmarked.ref = x.unmarked.ref by rw [h], show y.unmarked.tote = x.unmarked.tote by rw [h],
    show y.unmarked.cond = x.unmarked.cond by rw [h]⟩

theorem OrdPos.unmarked_eq (x : OrdPos) : x.unmarked = { x with record := x.record.map Rec.unmarked } := rfl

theorem OrdPos.state_of_unmarked {x y : OrdPos} (h : y.unmarked = x.unmarked) : y.state = x.state :=
  show y.unmarked.state = x.unmarked.state by rw [h]

theorem OrdPos.record_of_unmarked {x y : OrdPos} (h : y.unmarked = x.unmarked) :
    y.record.map Rec.unmarked = x.record.map Rec.unmarked :=
  show y.unmarked.record = x.unmarked.record by rw [h]

/-- The record of a position, seen through its form without marks. -/
theorem OrdPos.exists_record {x y : OrdPos} (h : y.unmarked = x.unmarked) {r : Rec} (e : x.record = some r) :
    ∃ r', y.record = some r' ∧ r'.unmarked = r.unmarked := by
  have := record_of_unmarked h
  rw [e] at this
  exact Option.map_eq_some_iff.mp this

theorem Rec.firstRoom_unmarked (q : Fin 12) (r : Rec) (t : Temp) (l : OLine) :
    r.unmarked.firstRoom q t l = r.firstRoom q t l := rfl

theorem Rec.roomLeft_unmarked (r : Rec) (t : Temp) : r.unmarked.roomLeft t = r.roomLeft t := rfl

theorem map_insertBySeq {f : Fin 12 × Rec → Fin 12 × Rec} (keep : ∀ x, (f x).2.seq = x.2.seq) (x : Fin 12 × Rec)
    (l : List (Fin 12 × Rec)) : (insertBySeq x l).map f = insertBySeq (f x) (l.map f) := by
  induction l with
  | nil => rfl
  | cons y l ih =>
    simp only [insertBySeq, List.map_cons, keep]
    split
    · rfl
    · rw [List.map_cons, ih]

theorem map_sortBySeq {f : Fin 12 × Rec → Fin 12 × Rec} (keep : ∀ x, (f x).2.seq = x.2.seq) (l : List (Fin 12 × Rec)) :
    (l.foldr insertBySeq []).map f = (l.map f).foldr insertBySeq [] := by
  induction l with
  | nil => rfl
  | cons x l ih => rw [List.foldr_cons, map_insertBySeq keep, ih]; rfl

/-- The candidates for an order ref are those of the records without their marks. -/
theorem candidateRecords_unmarked {s u : State} (h : ∀ q : Fin 12, u.wall.pos[q].unmarked = s.wall.pos[q].unmarked)
    (ref : Nat) : (candidateRecords ref u).map (fun c => (c.1, c.2.unmarked)) =
      (candidateRecords ref s).map fun c => (c.1, c.2.unmarked) := by
  unfold candidateRecords
  have keep : ∀ x : Fin 12 × Rec, (x.1, x.2.unmarked).2.seq = x.2.seq := fun _ => rfl
  rw [map_sortBySeq keep, map_sortBySeq keep, List.map_filterMap, List.map_filterMap]
  congr 1
  refine List.filterMap_congr fun q _ => ?_
  have state := OrdPos.state_of_unmarked (h q)
  cases e : s.wall.pos[q].record with
  | none =>
    have := OrdPos.record_of_unmarked (h q)
    rw [e, Option.map_none, Option.map_eq_none_iff] at this
    rw [this]
  | some r =>
    obtain ⟨r', e', same⟩ := OrdPos.exists_record (h q) e
    obtain ⟨ref, -, cond⟩ := Rec.fields_of_unmarked same
    rw [e']
    dsimp only
    rw [state, cond, ref]
    split
    · rw [Option.map_some, Option.map_some, same]
    · rfl

theorem findRoom_unmarked {s u : State} (h : ∀ q : Fin 12, u.wall.pos[q].unmarked = s.wall.pos[q].unmarked) (t : Temp)
    (l : OLine) : findRoom t l u = findRoom t l s := by
  have blind : ∀ v : State, findRoom t l v = ((candidateRecords l.ref v).map fun c => (c.1, c.2.unmarked)).findSome?
      fun c => c.2.firstRoom c.1 t l := fun v => by
    rw [List.findSome?_map]
    rfl
  rw [blind, blind, candidateRecords_unmarked h]

/-! ## Marks are set, never cleared -/

/-- Every record stays where it is, and none of its full marks is cleared. -/
def MarksStay (s u : State) : Prop := ∀ (q : Fin 12) (r : Rec), s.wall.pos[q].record = some r →
  ∃ r', u.wall.pos[q].record = some r' ∧ ∀ c : Temp, r.full.get c = true → r'.full.get c = true

theorem PerTemp.get_set (x : PerTemp Bool) (t c : Temp) :
    (x.set t true).get c = if c = t then true else x.get c := by cases t <;> cases c <;> rfl

theorem marksStay_of_wall {s u : State} (h : u.wall = s.wall) : MarksStay s u := fun q r e => by
  rw [h]
  exact ⟨r, e, fun _ => id⟩

theorem marksStayNote : ClosedNote MarksStay where
  refl s := marksStay_of_wall rfl
  trans h k q r e := by
    obtain ⟨r', e', m⟩ := h q r e
    obtain ⟨r'', e'', m'⟩ := k q r' e'
    exact ⟨r'', e'', fun c x => m' c (m c x)⟩
  notice b s := marksStay_of_wall rfl
  lost s := marksStay_of_wall rfl
  full q t s q' r e := by
    unfold modRec
    rw [modOrd_getElem]
    split
    · rw [e]
      refine ⟨_, rfl, fun c set => ?_⟩
      dsimp only
      rw [PerTemp.get_set]
      split
      · rfl
      · exact set
    · exact ⟨r, e, fun _ => id⟩

theorem marksStayMarks : ClosedMarks MarksStay where
  toClosedNote := marksStayNote
  orphanOff _ _ := marksStay_of_wall rfl
  orphanOn _ _ _ _ := marksStay_of_wall rfl

/-! ## What allocations answered "none" have marked -/

/-- What a FULL notice says of a record the marking began with: one whose mark was clear (R79). -/
def fullOf (s : State) (b : NoticeBody) : Prop :=
  ∃ (q : Fin 12) (r : Rec) (c : Temp), s.wall.pos[q].state = .active ∧ s.wall.pos[q].record = some r ∧
    r.cond = .clean ∧ r.full.get c = false ∧ b = .wall q (some (r.ref, r.tote)) (.full c (r.roomLeft c))

/-- What allocations have changed since `s` when those for the lines of `asked` alone were made: full marks at their
candidates, each with its FULL notice, when no compartment was found (R79). -/
structure Marked (s : State) (allowed : Temp → OLine → Prop) (u : State) : Prop where
  unmarked : ∀ q : Fin 12, u.wall.pos[q].unmarked = s.wall.pos[q].unmarked
  counter : u.wall.counter = s.wall.counter
  marks : ∀ (q : Fin 12) (r : Rec), s.wall.pos[q].record = some r → ∃ r', u.wall.pos[q].record = some r' ∧ ∀ c : Temp,
    (r.full.get c = true → r'.full.get c = true) ∧
    (r.full.get c = false → r'.full.get c = true → s.wall.pos[q].state = .active ∧ r.cond = .clean ∧
      ∃ l, allowed c l ∧ l.ref = r.ref ∧ findRoom c l s = none)
  out : ∃ ns : List Notice, u.link.out = s.link.out ++ ns.map OutEntry.notice ∧
    ∀ n ∈ ns, n.clock = s.bench.clock ∧ fullOf s n.body
  link : u.link = { s.link with out := u.link.out, lost := u.link.lost }
  lost : u.link.lost = s.link.lost ∨ u.link.lost = true ∧ 48 ≤ noticeCount u
  bench : u.bench = s.bench
  prof : u.prof = s.prof

theorem Marked.refl (s : State) (allowed : Temp → OLine → Prop) : Marked s allowed s :=
  ⟨fun _ => rfl, rfl, fun _ r e => ⟨r, e, fun _ => ⟨id, fun clear set => by rw [clear] at set; cases set⟩⟩,
    ⟨[], by simp, by simp⟩, rfl, .inl rfl, rfl, rfl⟩

/-- An update that leaves the wall, the link, the bench and the profile alone. -/
theorem Marked.of_eq {s u v : State} {allowed : Temp → OLine → Prop} (h : Marked s allowed u) (wall : v.wall = u.wall)
    (link : v.link = u.link) (bench : v.bench = u.bench) (prof : v.prof = u.prof) : Marked s allowed v := by
  obtain ⟨unmarked, counter, marks, out, whole, lost, clock, profile⟩ := h
  have count : noticeCount v = noticeCount u := by unfold noticeCount; rw [link]
  exact ⟨by rw [wall]; exact unmarked, wall ▸ counter, by rw [wall]; exact marks, link ▸ out, by rw [link]; exact whole,
    by rw [link, count]; exact lost, bench.trans clock, prof.trans profile⟩

/-- A maskable notice: not queued when masked, queued with its clock below 48 notices, lost otherwise (R167, R168). -/
theorem notify_maskable {b : NoticeBody} {s : State} (mask : b.maskEntry s.prof.profile.mask ≠ none) :
    (notify b s).link = s.link ∨ (notify b s).link = (pushNotice b s).link ∨
      (notify b s).link = (setLost s).link ∧ 48 ≤ noticeCount s := by
  unfold notify
  split
  · exact .inl rfl
  · split
    · exact .inr (.inl rfl)
    · next full => exact .inr (.inr ⟨rfl, Nat.le_of_not_lt full⟩)
  · next e => exact absurd e mask

theorem Marked.notify {s u : State} {allowed : Temp → OLine → Prop} (h : Marked s allowed u) {b : NoticeBody}
    (mask : b.maskEntry u.prof.profile.mask ≠ none) (body : fullOf s b) : Marked s allowed (notify b u) := by
  have wall := notify_wall b u
  have bench := notify_bench b u
  have prof := notify_prof b u
  obtain ⟨unmarked, counter, marks, ⟨ns, out, all⟩, whole, lost, clock, profile⟩ := h
  refine ⟨by rw [wall]; exact unmarked, wall ▸ counter, by rw [wall]; exact marks, ?_, ?_, ?_, bench.trans clock,
    prof.trans profile⟩
  all_goals rcases notify_maskable mask with e | e | ⟨e, full⟩
  · exact ⟨ns, by rw [e]; exact out, all⟩
  · refine ⟨ns ++ [{ clock := u.bench.clock, body := b }], by rw [e]; simp [pushNotice, out], fun n hn => ?_⟩
    rcases List.mem_append.mp hn with old | new
    · exact all n old
    · rw [List.mem_singleton.mp new]
      exact ⟨congrArg Bench.clock clock, body⟩
  · exact ⟨ns, by rw [e]; exact out, all⟩
  · rw [e]; exact whole
  · rw [e]
    show ({ u.link with out := _ } : Link) = _
    rw [whole]
    rfl
  · rw [e]
    show ({ u.link with lost := true } : Link) = _
    rw [whole]
    rfl
  · unfold noticeCount
    rw [e]
    exact lost
  · refine lost.imp (fun same => by rw [e]; exact same) fun ⟨set, full⟩ => ⟨by rw [e]; exact set, ?_⟩
    unfold noticeCount
    rw [e]
    exact full.trans (Nat.le_trans (Nat.le_succ _) (Nat.le_of_eq (noticeCount_pushNotice b u).symm))
  · refine .inr ⟨by rw [e]; rfl, ?_⟩
    unfold noticeCount
    rw [e]
    exact full

/-- One candidate marked for a line without room. -/
theorem Marked.markFull {s u : State} {allowed : Temp → OLine → Prop} (h : Marked s allowed u) {t : Temp} {l : OLine}
    (ok : allowed t l) (full : findRoom t l s = none) {q : Fin 12} {r : Rec} (cand : asked l.ref s q r) :
    Marked s allowed (markFull t u q) := by
  obtain ⟨active, here, clean, ref⟩ := cand
  obtain ⟨r', e', same⟩ := OrdPos.exists_record (h.unmarked q) here
  by_cases clear : unset t u q = true
  · rw [markFull_of_unset clear]
    have unset' : r'.full.get t = false := by
      unfold unset at clear
      rw [e'] at clear
      simpa using clear
    have was : r.full.get t = false := by
      by_contra set
      rw [Bool.not_eq_false] at set
      obtain ⟨r'', e'', marks⟩ := h.marks q r here
      rw [e'] at e''
      cases e''
      rw [(marks t).1 set] at unset'
      cases unset'
    have notice : fullNotice t u u q = Machine.notify (.wall q (some (r.ref, r.tote)) (.full t (r.roomLeft t))) u := by
      unfold fullNotice
      rw [e']
      dsimp only
      obtain ⟨ref', tote', -⟩ := Rec.fields_of_unmarked same
      rw [← Rec.roomLeft_unmarked r, ← Rec.roomLeft_unmarked r', same, ref', tote']
    rw [notice]
    have told := h.notify (b := .wall q (some (r.ref, r.tote)) (.full t (r.roomLeft t))) nofun
      ⟨q, r, t, active, here, clean, was, rfl⟩
    obtain ⟨unmarked, counter, marks, out, whole, lost, bench, prof⟩ := told
    refine ⟨fun q' => ?_, counter, fun q' r1 e1 => ?_, out, whole, lost, bench, prof⟩
    · rw [← unmarked q', modRec, modOrd_getElem]
      split
      · simp [OrdPos.unmarked, Option.map_map, Function.comp_def]
      · rfl
    · obtain ⟨r2, e2, m⟩ := marks q' r1 e1
      rw [modRec, modOrd_getElem]
      split
      · next eq =>
        subst eq
        rw [here] at e1
        cases e1
        refine ⟨_, by rw [e2]; rfl, fun c => ⟨fun set => ?_, fun clear set => ?_⟩⟩
        · dsimp only
          rw [PerTemp.get_set, (m c).1 set]
          split <;> rfl
        · dsimp only at set
          rw [PerTemp.get_set] at set
          split at set
          · next eq => exact ⟨active, clean, l, eq ▸ ok, ref.symm, eq ▸ full⟩
          · exact (m c).2 clear set
      · exact ⟨r2, e2, m⟩
  · rw [markFull_of_set (by simpa using clear)]
    exact h

/-- The marking of an allocation answered "none". -/
theorem Marked.allocate {s u : State} {allowed : Temp → OLine → Prop} (h : Marked s allowed u) {t : Temp} {l : OLine}
    (ok : allowed t l) (full : findRoom t l s = none) :
    Marked s allowed (((candidateRecords l.ref u).map fun c => c.1).foldl (Machine.markFull t) u) := by
  have all : ∀ q ∈ (candidateRecords l.ref u).map fun c => c.1, ∃ r, asked l.ref s q r := fun q hq => by
    obtain ⟨⟨q', r'⟩, mem, rfl⟩ := List.mem_map.mp hq
    obtain ⟨active, here, clean, ref⟩ := mem_candidateRecords.mp mem
    obtain ⟨r, e, same⟩ := OrdPos.exists_record (h.unmarked q').symm here
    obtain ⟨ref', -, clean'⟩ := Rec.fields_of_unmarked same
    exact ⟨r, OrdPos.state_of_unmarked (h.unmarked q') ▸ active, e, clean'.trans clean, ref'.trans ref⟩
  generalize ((candidateRecords l.ref u).map fun c => c.1) = qs at all
  induction qs generalizing u with
  | nil => exact h
  | cons q qs ih =>
    obtain ⟨r, cand⟩ := all q List.mem_cons_self
    exact ih (h.markFull ok full cand) fun q' hq => all q' (List.mem_cons_of_mem _ hq)

theorem allocate_of_some {t : Temp} {l : OLine} {s : State} {a : Answer} (h : findRoom t l s = some a) :
    allocate t l s = (some a, s) := by
  unfold allocate
  rw [h]

theorem allocate_of_none {t : Temp} {l : OLine} {s : State} (h : findRoom t l s = none) :
    allocate t l s = (none, ((candidateRecords l.ref s).map fun c => c.1).foldl (markFull t) s) := by
  unfold allocate
  rw [h]

/-- After an allocation answered "none" every candidate has its mark set. -/
theorem marked_of_allocate {t : Temp} {l : OLine} {s : State} (full : findRoom t l s = none) {q : Fin 12} {r : Rec}
    (cand : asked l.ref (allocate t l s).2 q r) : r.full.get t = true := by
  rw [allocate_of_none full] at cand
  obtain ⟨active, here, clean, ref⟩ := cand
  obtain ⟨pos, -⟩ := foldl_markFull t (nodup_candidateRecords l.ref s) s
  have frame := noteFrame.foldl (noteFrame.markFull t) ((candidateRecords l.ref s).map fun c => c.1) s
  obtain ⟨-, -, -, -, -, -, -, -, -, -, -, unmarked⟩ := frame
  obtain ⟨r0, e0, same⟩ := OrdPos.exists_record (unmarked q).symm here
  obtain ⟨ref', -, clean'⟩ := Rec.fields_of_unmarked same
  have cand0 : asked l.ref s q r0 :=
    ⟨OrdPos.state_of_unmarked (unmarked q) ▸ active, e0, clean'.trans clean, ref'.trans ref⟩
  rw [pos q] at here
  split at here
  · rw [e0] at here
    cases here
    rw [PerTemp.get_set, if_pos rfl]
  · next out =>
    rw [e0] at here
    cases here
    by_contra clear
    refine out (List.mem_filter.mpr ⟨List.mem_map.mpr ⟨(q, r), mem_candidateRecords.mpr cand0, rfl⟩, ?_⟩)
    unfold unset
    rw [e0]
    simpa using clear

/-! ## The first serveable line (R77, R84) -/

/-- What asking for the OPEN lines in order gives: none serveable, all of them asked; or the first that is, with its
answer. -/
inductive Served (t : Temp) (s : State) (ls : List OLine) (i : Nat) : Option (Nat × Answer) → Prop
  | none (h : ∀ l ∈ ls, l.state = .opn → findRoom t l s = none) : Served t s ls i none
  | some (k : Nat) (l : OLine) (a : Answer) (at' : ls[k]? = some l) (opn : l.state = .opn) (room : findRoom t l s = some a)
      (before : ∀ (k' : Nat) (l' : OLine), k' < k → ls[k']? = some l' → l'.state = .opn → findRoom t l' s = .none) :
      Served t s ls i (some (i + k, a))

theorem Served.cons {t : Temp} {s : State} {ls : List OLine} {i : Nat} {x : Option (Nat × Answer)} {l : OLine}
    (h : Served t s ls (i + 1) x) (first : l.state = .opn → findRoom t l s = .none) : Served t s (l :: ls) i x := by
  cases h with
  | none all =>
    refine .none fun l' hl => ?_
    rcases List.mem_cons.mp hl with rfl | hl
    · exact first
    · exact all l' hl
  | some k l1 a at' opn room before =>
    rw [Nat.add_assoc, Nat.add_comm 1 k]
    refine .some (k + 1) l1 a at' opn room fun k' l' lt e => ?_
    cases k' with
    | zero => cases e; exact first
    | succ k' => exact before k' l' (Nat.lt_of_succ_lt_succ lt) e

theorem firstServeable_spec {s u : State} {allowed : Temp → OLine → Prop} (h : Marked s allowed u) (t : Temp)
    (ls : List OLine) (i : Nat) (ok : ∀ l ∈ ls, l.state = .opn → allowed t l) :
    Served t s ls i (firstServeable t i ls u).1 ∧ Marked s allowed (firstServeable t i ls u).2 := by
  induction ls generalizing i u with
  | nil => exact ⟨.none fun l hl => (by cases hl), h⟩
  | cons l ls ih =>
    have rest : ∀ l' ∈ ls, l'.state = .opn → allowed t l' := fun l' hl => ok l' (List.mem_cons_of_mem _ hl)
    unfold firstServeable
    split
    · next opn =>
      have room := findRoom_unmarked h.unmarked t l
      cases e : findRoom t l u with
      | some a =>
        rw [allocate_of_some e]
        exact ⟨.some 0 l a rfl opn (room ▸ e) fun k' l' lt => absurd lt (Nat.not_lt_zero _), h⟩
      | none =>
        rw [allocate_of_none e]
        have none : findRoom t l s = .none := room ▸ e
        obtain ⟨served, marked⟩ := ih (h.allocate (ok l List.mem_cons_self opn) none) (i + 1) rest
        exact ⟨served.cons fun _ => none, marked⟩
    · next closed =>
      obtain ⟨served, marked⟩ := ih h (i + 1) rest
      exact ⟨served.cons fun opn => absurd opn closed, marked⟩

/-- Where no OPEN line is serveable, every candidate of one has its mark set afterwards (R79). -/
theorem marked_of_firstServeable {t : Temp} {ls : List OLine} {i : Nat} {s : State}
    (none : ∀ l ∈ ls, l.state = .opn → findRoom t l s = none) {l : OLine} (hl : l ∈ ls) (opn : l.state = .opn)
    {q : Fin 12} {r : Rec} (cand : asked l.ref (firstServeable t i ls s).2 q r) : r.full.get t = true := by
  induction ls generalizing i s with
  | nil => cases hl
  | cons l1 ls ih =>
    unfold firstServeable at cand
    split at cand
    · next opn1 =>
      have full := none l1 List.mem_cons_self opn1
      have same := fun v => noteFrame.allocate t l1 v
      rw [show allocate t l1 s = ((allocate t l1 s).1, (allocate t l1 s).2) from rfl] at cand
      rw [show (allocate t l1 s).1 = Option.none by rw [allocate_of_none full]] at cand
      dsimp only at cand
      obtain ⟨-, -, -, -, -, -, -, -, -, -, -, unmarked⟩ := same s
      rcases List.mem_cons.mp hl with rfl | hl
      · have stay := marksStayNote.firstServeable t (i + 1) ls (allocate t l s).2
        obtain ⟨-, -, -, -, -, -, -, -, -, -, -, unmarked'⟩ := noteFrame.firstServeable t (i + 1) ls (allocate t l s).2
        obtain ⟨active, here, clean, ref⟩ := cand
        obtain ⟨r0, e0, same0⟩ := OrdPos.exists_record (unmarked' q).symm here
        obtain ⟨r1, e1, marks⟩ := stay q r0 e0
        rw [here] at e1
        cases e1
        obtain ⟨ref', -, clean'⟩ := Rec.fields_of_unmarked same0
        exact marks t (marked_of_allocate full ⟨OrdPos.state_of_unmarked (unmarked' q) ▸ active, e0,
          clean'.trans clean, ref'.trans ref⟩)
      · refine ih (fun l' hl' o => ?_) hl cand
        rw [findRoom_unmarked unmarked]
        exact none l' (List.mem_cons_of_mem _ hl') o
    · next closed =>
      rcases List.mem_cons.mp hl with rfl | hl
      · exact absurd opn closed
      · exact ih (fun l' hl' => none l' (List.mem_cons_of_mem _ hl')) hl cand

end Sys2Proof.Machine

namespace Sys2Proof.Machine

/-!
The orphan judgement (R38): where the orphan timers run after it, and what it marks full (R79).
-/

theorem isLitSource_eq_false {p : Fin 4} {s : State} : isLitSource p s = false ↔ ∀ c, s.put.cycle = some c → c.src ≠ p := by
  unfold isLitSource
  cases s.put.cycle with
  | none => simp
  | some c => simp

theorem Offer.hasOpen_iff (o : Offer) : o.hasOpen = true ↔ ∃ l ∈ o.lines, l.state = .opn := by
  unfold Offer.hasOpen
  simp only [List.any_eq_true, beq_iff_eq]

/-- A face whose orphan timer runs: PRESENT, not the source of the lit cycle, its offer with an OPEN line and none
serveable (R38). -/
def orphaned (s : State) (p : Fin 4) : Prop :=
  s.src[p].face.state = .present ∧ isLitSource p s = false ∧
    ∃ o, faceOffer p s = some o ∧ (∃ l ∈ o.lines, l.state = .opn) ∧
      ∀ l ∈ o.lines, l.state = .opn → findRoom o.temp l s = none

/-- The lines the orphan judgement asks an allocation for: OPEN ones of the offers at PRESENT faces that are not the
source of the lit cycle. -/
def orphanAsks (s : State) (c : Temp) (l : OLine) : Prop :=
  ∃ (p : Fin 4) (o : Offer), s.src[p].face.state = .present ∧ isLitSource p s = false ∧ faceOffer p s = some o ∧
    o.temp = c ∧ l ∈ o.lines ∧ l.state = .opn

/-- The orphan timer a face has after the judgement. -/
inductive OrphanTimer (s : State) (p : Fin 4) : Option Nat → Prop
  | runs (h : orphaned s p) : OrphanTimer s p (some (s.src[p].face.orphanT.getD (s.prof.profile.orphanDwell * 10)))
  | stops (h : ¬ orphaned s p) : OrphanTimer s p none

/-- What stays when notices and full marks are the only change. -/
structure NoteApart (s u : State) : Prop where
  inputs : u.inputs = s.inputs
  offers : u.offers = s.offers
  arb : u.arb = s.arb
  put : u.put = s.put
  picker : u.picker = s.picker
  lines : u.lines = s.lines
  pending : u.pending = s.pending

theorem NoteApart.refl (s : State) : NoteApart s s := ⟨rfl, rfl, rfl, rfl, rfl, rfl, rfl⟩

theorem NoteApart.trans {s u v : State} (h : NoteApart s u) (k : NoteApart u v) : NoteApart s v :=
  ⟨k.inputs.trans h.inputs, k.offers.trans h.offers, k.arb.trans h.arb, k.put.trans h.put, k.picker.trans h.picker,
    k.lines.trans h.lines, k.pending.trans h.pending⟩

theorem noteApart_firstServeable (t : Temp) (i : Nat) (ls : List OLine) (s : State) :
    NoteApart s (firstServeable t i ls s).2 := by
  obtain ⟨inputs, offers, arb, -, put, picker, -, -, lines, pending, -⟩ := noteFrame.firstServeable t i ls s
  exact ⟨inputs, offers, arb, put, picker, lines, pending⟩

/-- The faces judged so far have their timers, with the candidates of orphaned offers marked; the others are as they
were. -/
structure OrphansJudged (s : State) (judged : List (Fin 4)) (u : State) : Prop where
  apart : NoteApart s u
  marked : Marked s (orphanAsks s) u
  src : ∀ p : Fin 4, (p ∈ judged → ∃ t, OrphanTimer s p t ∧ u.src[p] = s.src[p].setOrphan t) ∧
    (p ∉ judged → u.src[p] = s.src[p])
  full : ∀ p ∈ judged, orphaned s p → ∀ o, faceOffer p s = some o → ∀ l ∈ o.lines, l.state = .opn →
    ∀ q r, asked l.ref u q r → r.full.get o.temp = true

theorem OrphansJudged.refl (s : State) : OrphansJudged s [] s :=
  ⟨NoteApart.refl s, Marked.refl s _, fun p => ⟨fun h => (by cases h), fun _ => rfl⟩, fun p h => (by cases h)⟩

/-- Marks that are set stay set on the candidates for a ref. -/
theorem full_of_later {s u : State} (unmarked : ∀ q : Fin 12, u.wall.pos[q].unmarked = s.wall.pos[q].unmarked)
    (stay : MarksStay s u) {ref : Nat} {t : Temp} (h : ∀ q r, asked ref s q r → r.full.get t = true) {q : Fin 12} {r : Rec}
    (cand : asked ref u q r) : r.full.get t = true := by
  obtain ⟨active, here, clean, ref'⟩ := cand
  obtain ⟨r0, e0, same⟩ := OrdPos.exists_record (unmarked q).symm here
  obtain ⟨r1, e1, marks⟩ := stay q r0 e0
  rw [here] at e1
  cases e1
  obtain ⟨ref0, -, clean0⟩ := Rec.fields_of_unmarked same
  exact marks t (h q r0 ⟨OrdPos.state_of_unmarked (unmarked q) ▸ active, e0, clean0.trans clean, ref0.trans ref'⟩)

/-- What judging one face leaves: notices and marks first, then its orphan timer. -/
def FaceJudged (s u : State) (p : Fin 4) (w : State) : Prop :=
  ∃ v t, w = modSrc p (SrcPos.setOrphan t) v ∧ v.src = u.src ∧ NoteApart u v ∧ Marked s (orphanAsks s) v ∧
    MarksStay u v ∧ (∀ q : Fin 12, v.wall.pos[q].unmarked = u.wall.pos[q].unmarked) ∧ OrphanTimer s p t ∧
    (orphaned s p → ∀ o, faceOffer p s = some o → ∀ l ∈ o.lines, l.state = .opn →
      ∀ q r, asked l.ref v q r → r.full.get o.temp = true)

theorem FaceJudged.stop {s u : State} {judged : List (Fin 4)} (h : OrphansJudged s judged u) {p : Fin 4}
    (stops : ¬ orphaned s p) : FaceJudged s u p (stopOrphan p u) :=
  ⟨u, none, rfl, rfl, NoteApart.refl u, h.marked, marksStay_of_wall rfl, fun _ => rfl, .stops stops,
    fun yes => absurd yes stops⟩

/-- A face whose offer has an OPEN line is judged by the first serveable line. -/
theorem FaceJudged.serve {s u : State} {judged : List (Fin 4)} (h : OrphansJudged s judged u) {p : Fin 4} {o : Offer}
    (here : u.src[p] = s.src[p]) (present : s.src[p].face.state = .present) (notLit : isLitSource p s = false)
    (found : faceOffer p s = some o) (opn : o.hasOpen = true) :
    FaceJudged s u p (match firstServeable o.temp 0 o.lines u with
      | (some _, v) => stopOrphan p v
      | (none, v) => startOrphan p v) := by
  have ok : ∀ l ∈ o.lines, l.state = .opn → orphanAsks s o.temp l := fun l hl opn =>
    ⟨p, o, present, notLit, found, rfl, hl, opn⟩
  obtain ⟨served, marked⟩ := firstServeable_spec h.marked o.temp o.lines 0 ok
  have stay := marksStayNote.firstServeable o.temp 0 o.lines u
  have apart := noteApart_firstServeable o.temp 0 o.lines u
  have src := firstServeable_src o.temp 0 o.lines u
  obtain ⟨-, -, -, -, -, -, -, -, -, -, -, unmarked⟩ := noteFrame.firstServeable o.temp 0 o.lines u
  have full : (∀ l ∈ o.lines, l.state = .opn → findRoom o.temp l s = none) → ∀ l ∈ o.lines, l.state = .opn →
      ∀ q r, asked l.ref (firstServeable o.temp 0 o.lines u).2 q r → r.full.get o.temp = true :=
    fun noRoom l hl opn q r cand => marked_of_firstServeable (i := 0) (s := u)
      (fun l' hl' opn' => (findRoom_unmarked h.marked.unmarked _ _).trans (noRoom l' hl' opn')) hl opn cand
  generalize firstServeable o.temp 0 o.lines u = x at served marked stay apart src unmarked full ⊢
  obtain ⟨answer, v⟩ := x
  cases served with
  | some k l a at' opn' room before =>
    have stops : ¬ orphaned s p := fun ⟨_, _, o', e, _, noRoom⟩ => by
      rw [found] at e
      cases e
      rw [noRoom l (List.mem_of_getElem? at') opn'] at room
      cases room
    exact ⟨v, none, rfl, src, apart, marked, stay, unmarked, .stops stops, fun yes => absurd yes stops⟩
  | none noRoom =>
    have yes : orphaned s p := ⟨present, notLit, o, found, (Offer.hasOpen_iff o).mp opn, noRoom⟩
    refine ⟨v, _, ?_, src, apart, marked, stay, unmarked, .runs yes, fun _ o' e => ?_⟩
    · show startOrphan p v = _
      unfold startOrphan
      rw [src, here, marked.prof]
    · rw [found] at e
      cases e
      exact full noRoom

theorem faceJudged_judgeOrphan {s u : State} {judged : List (Fin 4)} (h : OrphansJudged s judged u) {p : Fin 4}
    (new : p ∉ judged) : FaceJudged s u p (judgeOrphan p u) := by
  have here := (h.src p).2 new
  have lit : isLitSource p u = isLitSource p s := by unfold isLitSource; rw [h.apart.put]
  have offer : faceOffer p u = faceOffer p s := by
    unfold faceOffer findOffer
    rw [here, h.apart.offers]
  unfold judgeOrphan
  rw [here, lit, offer]
  split
  · next busy =>
    obtain ⟨present, notLit⟩ := busy
    split
    · next missing =>
      refine FaceJudged.stop h fun ⟨_, _, o, found, _⟩ => ?_
      rw [missing] at found
      cases found
    · next o found =>
      split
      · next opn => exact FaceJudged.serve h here present notLit found opn
      · next closed =>
        refine FaceJudged.stop h fun ⟨_, _, o', found', opn, _⟩ => closed ?_
        rw [found] at found'
        cases found'
        exact (Offer.hasOpen_iff o).mpr opn
  · next away => exact FaceJudged.stop h fun ⟨present, notLit, _⟩ => away ⟨present, notLit⟩

theorem OrphansJudged.step {s u : State} {judged : List (Fin 4)} (h : OrphansJudged s judged u) {p : Fin 4}
    (new : p ∉ judged) : OrphansJudged s (p :: judged) (judgeOrphan p u) := by
  obtain ⟨v, t, e, src, apart, marked, stay, unmarked, timer, full⟩ := faceJudged_judgeOrphan h new
  rw [e]
  refine ⟨h.apart.trans ⟨apart.inputs, apart.offers, apart.arb, apart.put, apart.picker, apart.lines, apart.pending⟩,
    marked.of_eq rfl rfl rfl rfl, fun p' => ?_, fun p' hp => ?_⟩
  · rw [modSrc_getElem, src]
    by_cases eq : p = p'
    · subst eq
      rw [if_pos rfl]
      exact ⟨fun _ => ⟨t, timer, by rw [(h.src p).2 new]⟩, fun out => absurd List.mem_cons_self out⟩
    · rw [if_neg eq]
      refine ⟨fun mem => (h.src p').1 ?_, fun out => (h.src p').2 fun mem => out (List.mem_cons_of_mem _ mem)⟩
      rcases List.mem_cons.mp mem with e' | mem
      · exact absurd e'.symm eq
      · exact mem
  · rcases List.mem_cons.mp hp with rfl | hp
    · exact full
    · intro yes o found l hl opn q r cand
      exact full_of_later unmarked stay (h.full p' hp yes o found l hl opn) cand

theorem OrphansJudged.foldl {s u : State} {judged : List (Fin 4)} (h : OrphansJudged s judged u) {l : List (Fin 4)}
    (distinct : l.Nodup) (new : ∀ p ∈ l, p ∉ judged) :
    OrphansJudged s (l.reverse ++ judged) (l.foldl (fun u p => judgeOrphan p u) u) := by
  induction l generalizing u judged with
  | nil => exact h
  | cons p l ih =>
    obtain ⟨out, distinct⟩ := List.nodup_cons.mp distinct
    rw [List.reverse_cons, List.append_assoc]
    refine ih (h.step (new p List.mem_cons_self)) distinct fun p' hp mem => ?_
    rcases List.mem_cons.mp mem with rfl | mem
    · exact out hp
    · exact new p' (List.mem_cons_of_mem _ hp) mem

theorem orphansJudged (s : State) : OrphansJudged s [3, 2, 1, 0] (judgeOrphans s) :=
  (OrphansJudged.refl s).foldl (l := [0, 1, 2, 3]) (by decide) fun _ _ h => (by cases h)

theorem mem_judged (p : Fin 4) : p ∈ [(3 : Fin 4), 2, 1, 0] := by fin_cases p <;> decide

theorem orphaned_iff (s : State) (p : Fin 4) : orphaned s p ↔ s.src[p].face.state = .present ∧
    (∀ c, s.put.cycle = some c → c.src ≠ p) ∧ ∃ o, faceOffer p s = some o ∧ (∃ l ∈ o.lines, l.state = .opn) ∧
      ∀ l ∈ o.lines, l.state = .opn → findRoom o.temp l s = none := by
  unfold orphaned
  rw [isLitSource_eq_false]

section
variable {s t : State} (h : OrphansJudged s [3, 2, 1, 0] t)
include h

/-- The orphan timer runs exactly at the orphaned faces. -/
theorem OrphansJudged.runs (p : Fin 4) : t.src[p].face.orphanT.isSome = true ↔ orphaned s p := by
  obtain ⟨x, timer, e⟩ := (h.src p).1 (mem_judged p)
  rw [e]
  cases timer with
  | runs h => exact iff_of_true rfl h
  | stops h => exact iff_of_false Bool.false_ne_true h

/-- A timer that runs keeps its time, one that starts has the orphan dwell. -/
theorem OrphansJudged.time {p : Fin 4} {n : Nat} (run : t.src[p].face.orphanT = some n) :
    n = s.src[p].face.orphanT.getD (s.prof.profile.orphanDwell * 10) := by
  obtain ⟨x, timer, e⟩ := (h.src p).1 (mem_judged p)
  rw [e] at run
  cases timer with
  | runs _ => exact (Option.some.inj run).symm
  | stops _ => cases run

theorem OrphansJudged.rest (p : Fin 4) : t.src[p].setOrphan none = s.src[p].setOrphan none := by
  obtain ⟨x, -, e⟩ := (h.src p).1 (mem_judged p)
  rw [e]
  rfl

end

/-- Settles O26: the faces one after the other, each judged against the allocations `s` would answer. -/
theorem orphanTimersRunWhenNothingServeable : Obligations.OrphanTimersRunWhenNothingServeable := by
  intro s t left
  have judged : OrphansJudged s [3, 2, 1, 0] t := orphansJudged s
  clear_value t
  have ⟨apart, marked, _, full⟩ := judged
  refine ⟨fun p => (judged.runs p).trans (orphaned_iff s p), fun p n run => ?_, judged.rest,
    fun p run o found l hl opn q r here active clean ref =>
      full p (mem_judged p) ((judged.runs p).mp run) o found l hl opn q r ⟨active, here, clean, ref⟩,
    marked.unmarked, marked.counter, fun q r here => ?_, marked.out, marked.link, apart.inputs, apart.offers, apart.arb,
    apart.put, apart.picker, marked.bench, marked.prof, apart.lines, apart.pending⟩
  · have time := judged.time run
    exact ⟨fun stopped => by rw [time, stopped, Option.getD_none], fun m running => by rw [time, running, Option.getD_some]⟩
  · obtain ⟨r', here', marks⟩ := marked.marks q r here
    refine ⟨r', here', fun c => ⟨(marks c).1, fun clear set => ?_⟩⟩
    obtain ⟨active, clean, l, ⟨p, o, present, lit, found, temp, hl, opn⟩, ref, none⟩ := (marks c).2 clear set
    exact ⟨active, clean, p, o, l, present, isLitSource_eq_false.mp lit, found, temp, hl, opn, ref, none⟩

end Sys2Proof.Machine

namespace Sys2Proof.Machine

/-!
An attempt to begin a cycle (R82 to R85): its candidates, the one preferred, and the cycle that begins.
-/

/-! ## The candidates (R83) -/

/-- The lines an attempt asks an allocation for: OPEN ones of the PRESENT offers at PRESENT faces. -/
def attemptAsks (s : State) (c : Temp) (l : OLine) : Prop :=
  ∃ (p : Fin 4) (o : Offer), s.src[p].face.state = .present ∧ faceOffer p s = some o ∧ o.state = .present ∧
    o.temp = c ∧ l ∈ o.lines ∧ l.state = .opn

/-- Whether a face is a candidate: PRESENT, with a PRESENT offer that has a serveable OPEN line and, when cold, exposure
left (R83). -/
def isCandidate (s : State) (p : Fin 4) : Prop :=
  s.src[p].face.state = .present ∧ ∃ o, faceOffer p s = some o ∧ o.state = .present ∧
    (∃ l ∈ o.lines, l.state = .opn ∧ findRoom o.temp l s ≠ none) ∧ ∀ e, o.exposure = some e → 0 < e.remaining

/-- What a candidate says: the offer at its face, its first serveable line and the answer for it. -/
def Candidate.fits (k : Candidate) (s : State) : Prop :=
  s.src[k.p].face.state = .present ∧ faceOffer k.p s = some k.offer ∧ k.offer.state = .present ∧
    (∃ l, k.offer.lines[k.line]? = some l ∧ l.state = .opn ∧ findRoom k.offer.temp l s = some k.answer) ∧
    (∀ i l', i < k.line → k.offer.lines[i]? = some l' → l'.state = .opn → findRoom k.offer.temp l' s = none) ∧
    ∀ e, k.offer.exposure = some e → 0 < e.remaining

theorem Candidate.fits.isCandidate {k : Candidate} {s : State} (h : k.fits s) : isCandidate s k.p := by
  obtain ⟨present, found, state, ⟨l, at', opn, room⟩, -, left⟩ := h
  exact ⟨present, k.offer, found, state, ⟨l, List.mem_of_getElem? at', opn, by rw [room]; exact Option.some_ne_none _⟩, left⟩

/-- The state while candidates are looked for: notices and full marks apart, the one it began in. -/
structure Looking (s u : State) : Prop where
  marked : Marked s (attemptAsks s) u
  apart : NoteApart s u
  src : u.src = s.src

theorem Looking.refl (s : State) : Looking s s := ⟨Marked.refl s _, NoteApart.refl s, rfl⟩

theorem faceOffer_congr {s u : State} (src : u.src = s.src) (offers : u.offers = s.offers) (p : Fin 4) :
    faceOffer p u = faceOffer p s := by
  unfold faceOffer findOffer
  rw [src, offers]

theorem all_remaining_iff (o : Offer) : (o.exposure.all fun e => decide (0 < e.remaining)) = true ↔
    ∀ e, o.exposure = some e → 0 < e.remaining := by
  cases o.exposure <;> simp

/-- The judgement of one face. -/
theorem candidateAt_spec {s u : State} (h : Looking s u) (p : Fin 4) :
    Looking s (candidateAt p u).2 ∧ match (candidateAt p u).1 with
      | none => ¬ isCandidate s p
      | some k => k.p = p ∧ k.fits s := by
  unfold candidateAt
  rw [h.src, faceOffer_congr h.src h.apart.offers]
  split
  · next present =>
    cases found : faceOffer p s with
    | none =>
      refine ⟨h, fun ⟨_, o, found', _⟩ => ?_⟩
      rw [found] at found'
      cases found'
    | some o =>
      dsimp only
      split
      · next away =>
        refine ⟨h, fun ⟨_, o', found', here, _⟩ => away ?_⟩
        rw [found] at found'
        cases found'
        exact here
      · next here =>
        have here : o.state = .present := not_not.mp here
        obtain ⟨served, marked⟩ := firstServeable_spec h.marked o.temp o.lines 0 fun l hl opn =>
          ⟨p, o, present, found, here, rfl, hl, opn⟩
        have apart := h.apart.trans (noteApart_firstServeable o.temp 0 o.lines u)
        have src := (firstServeable_src o.temp 0 o.lines u).trans h.src
        generalize firstServeable o.temp 0 o.lines u = x at served marked apart src ⊢
        obtain ⟨answer, v⟩ := x
        cases served with
        | none noRoom =>
          refine ⟨⟨marked, apart, src⟩, fun ⟨_, o', found', _, ⟨l, hl, opn, room⟩, _⟩ => ?_⟩
          rw [found] at found'
          cases found'
          exact room (noRoom l hl opn)
        | some k l a at' opn room before =>
          rw [Nat.zero_add]
          dsimp only
          split
          · next left =>
            exact ⟨⟨marked, apart, src⟩, rfl, present, found, here, ⟨l, at', opn, room⟩, before, (all_remaining_iff o).mp left⟩
          · next out =>
            refine ⟨⟨marked, apart, src⟩, fun ⟨_, o', found', _, _, left⟩ => out ?_⟩
            rw [found] at found'
            cases found'
            exact (all_remaining_iff o).mpr left
  · next away => exact ⟨h, fun ⟨present, _⟩ => away present⟩

/-- The candidates of a list of faces: each fits, each candidate face has one, and they stand in the order of the faces. -/
theorem candidates_spec {s u : State} (h : Looking s u) (ps : List (Fin 4)) :
    Looking s (candidates ps u).2 ∧ (∀ k ∈ (candidates ps u).1, k.fits s) ∧
      (∀ p ∈ ps, isCandidate s p → ∃ k ∈ (candidates ps u).1, k.p = p) ∧
      ((candidates ps u).1.map fun k => k.p).Sublist ps := by
  induction ps generalizing u with
  | nil => exact ⟨h, fun k hk => (by cases hk), fun p hp => (by cases hp), .slnil⟩
  | cons p ps ih =>
    obtain ⟨looking, here⟩ := candidateAt_spec h p
    obtain ⟨looking', fit, all, sub⟩ := ih looking
    unfold candidates
    dsimp only
    generalize (candidateAt p u).1 = x at here
    cases x with
    | none =>
      refine ⟨looking', fit, fun p' hp cand => ?_, sub.cons p⟩
      rcases List.mem_cons.mp hp with rfl | hp
      · exact absurd cand here
      · exact all p' hp cand
    | some k =>
      obtain ⟨eq, fits⟩ := here
      refine ⟨looking', fun k' hk => ?_, fun p' hp cand => ?_, ?_⟩
      · rcases List.mem_cons.mp hk with rfl | hk
        · exact fits
        · exact fit k' hk
      · rcases List.mem_cons.mp hp with rfl | hp
        · exact ⟨k, List.mem_cons_self, eq⟩
        · obtain ⟨k', hk, e⟩ := all p' hp cand
          exact ⟨k', List.mem_cons_of_mem _ hk, e⟩
      · show (k.p :: List.map _ _).Sublist _
        rw [eq]
        exact sub.cons_cons p

/-- The candidates of an attempt stand in ascending position index. -/
theorem candidates_sorted (s : State) : (candidates srcIndices s).1.Pairwise fun a b => a.p < b.p := by
  obtain ⟨-, -, -, sub⟩ := candidates_spec (Looking.refl s) srcIndices
  have sorted : srcIndices.Pairwise fun a b => a < b := by decide
  exact List.pairwise_map.mp (sorted.sublist sub)

theorem exists_candidate_iff (s : State) (p : Fin 4) :
    (∃ k ∈ (candidates srcIndices s).1, k.p = p) ↔ isCandidate s p := by
  obtain ⟨-, fit, all, -⟩ := candidates_spec (Looking.refl s) srcIndices
  constructor
  · rintro ⟨k, hk, rfl⟩
    exact (fit k hk).isCandidate
  · exact all p (mem_srcIndices p)

/-! ## The candidate preferred (R83) -/

theorem firstBy_eq_none {before : Candidate → Candidate → Bool} {cs : List Candidate} : firstBy before cs = none ↔ cs = [] := by
  cases cs with
  | nil => exact ⟨fun _ => rfl, fun _ => rfl⟩
  | cons c cs =>
    unfold firstBy
    split
    · simp
    · split <;> simp

/-- Before a candidate in the order of a key, by the position where the keys are equal. -/
def atOrBefore {α : Type} [LinearOrder α] (key : Candidate → α) (k w : Candidate) : Prop :=
  key k < key w ∨ key k = key w ∧ k.p ≤ w.p

/-- The first of candidates in ascending position is the least in the key, then in the position. -/
theorem firstBy_spec {α : Type} [LinearOrder α] {key : Candidate → α} {before : Candidate → Candidate → Bool}
    (order : ∀ a b, before a b = true ↔ key a < key b) {cs : List Candidate} (sorted : cs.Pairwise fun a b => a.p < b.p)
    {k : Candidate} (h : firstBy before cs = some k) : k ∈ cs ∧ ∀ w ∈ cs, atOrBefore key k w := by
  induction cs generalizing k with
  | nil => cases h
  | cons c cs ih =>
    obtain ⟨first, sorted⟩ := List.pairwise_cons.mp sorted
    unfold firstBy at h
    split at h
    · next e =>
      cases h
      rw [firstBy_eq_none.mp e]
      exact ⟨List.mem_cons_self, fun w hw => List.mem_singleton.mp hw ▸ .inr ⟨rfl, le_refl _⟩⟩
    · next d e =>
      obtain ⟨mem, least⟩ := ih sorted e
      split at h
      · next less =>
        cases h
        refine ⟨List.mem_cons_of_mem _ mem, fun w hw => ?_⟩
        rcases List.mem_cons.mp hw with rfl | hw
        · exact .inl ((order _ _).mp less)
        · exact least w hw
      · next more =>
        cases h
        have le : key c ≤ key d := not_lt.mp fun lt => more ((order _ _).mpr lt)
        refine ⟨List.mem_cons_self, fun w hw => ?_⟩
        rcases List.mem_cons.mp hw with rfl | hw
        · exact .inr ⟨rfl, le_refl _⟩
        · rcases least w hw with lt | ⟨eq, -⟩
          · exact .inl (lt_of_le_of_lt le lt)
          · rcases lt_or_eq_of_le (eq ▸ le) with lt | same
            · exact .inl lt
            · exact .inr ⟨same, le_of_lt (first w hw)⟩

/-- The presentation time of a candidate. -/
def Candidate.time (k : Candidate) : Nat := k.offer.presented.getD 0

theorem earlier_iff (a b : Candidate) : earlier a b = true ↔ a.time < b.time := decide_eq_true_iff

theorem moreUrgent_iff (a b : Candidate) :
    moreUrgent a b = true ↔ toLex (a.remaining, a.time) < toLex (b.remaining, b.time) := by
  rw [Prod.Lex.toLex_lt_toLex]
  unfold moreUrgent
  rw [Bool.or_eq_true, Bool.and_eq_true, decide_eq_true_eq, decide_eq_true_eq, earlier_iff]

/-- Less remaining exposure, then the earlier presented, then the lower position. -/
theorem atOrBefore_lex {k w : Candidate} (h : atOrBefore (fun c => toLex (c.remaining, c.time)) k w) :
    k.remaining < w.remaining ∨ k.remaining = w.remaining ∧ (k.time < w.time ∨ k.time = w.time ∧ k.p ≤ w.p) := by
  unfold atOrBefore at h
  rw [Prod.Lex.toLex_lt_toLex, toLex_inj, Prod.mk.injEq] at h
  dsimp only at h
  tauto

/-- The three preferences of R83, each where those before it choose nothing. -/
inductive Picked (cs : List Candidate) (served : Option Nat) (k : Candidate) : Prop
  | warned (h : firstBy moreUrgent (cs.filter Candidate.warned) = some k)
  | served (calm : ∀ w ∈ cs, w.warned = false) (h : cs.find? (fun c => served == some c.offer.tote) = some k)
  | earliest (calm : ∀ w ∈ cs, w.warned = false) (other : ∀ w ∈ cs, served ≠ some w.offer.tote)
      (h : firstBy earlier cs = some k)

theorem pickCandidate_picked {cs : List Candidate} {served : Option Nat} {k : Candidate}
    (h : pickCandidate cs served = some k) : Picked cs served k := by
  unfold pickCandidate at h
  split at h
  · next e => exact .warned (Option.some.inj h ▸ e)
  · next e =>
    have calm : ∀ w ∈ cs, w.warned = false := fun w hw => by
      have none := List.filter_eq_nil_iff.mp (firstBy_eq_none.mp e) w hw
      simpa using none
    split at h
    · next e' => exact .served calm (Option.some.inj h ▸ e')
    · next e' =>
      refine .earliest calm (fun w hw same => ?_) h
      exact List.find?_eq_none.mp e' w hw (by simp [same])

theorem pickCandidate_eq_none {cs : List Candidate} {served : Option Nat} : pickCandidate cs served = none ↔ cs = [] := by
  constructor
  · intro h
    unfold pickCandidate at h
    split at h
    · cases h
    · split at h
      · cases h
      · exact firstBy_eq_none.mp h
  · rintro rfl
    rfl

theorem pickCandidate_mem {cs : List Candidate} (sorted : cs.Pairwise fun a b => a.p < b.p) {served : Option Nat}
    {k : Candidate} (h : pickCandidate cs served = some k) : k ∈ cs := by
  rcases pickCandidate_picked h with h | ⟨-, h⟩ | ⟨-, -, h⟩
  · exact List.mem_of_mem_filter (firstBy_spec moreUrgent_iff (sorted.filter _) h).1
  · exact List.mem_of_find?_eq_some h
  · exact (firstBy_spec earlier_iff sorted h).1

/-! ## The attempt -/

theorem attempt_of_not {s : State} (h : mayBegin s = false) : attempt s = s := by
  unfold attempt
  rw [h]
  rfl

theorem attempt_of_may {s : State} (h : mayBegin s = true) : attempt s =
    match pickCandidate (candidates srcIndices s).1 s.put.lastServed with
    | none => (candidates srcIndices s).2
    | some k => startCycle k (candidates srcIndices s).2 := by
  obtain ⟨looking, -⟩ := candidates_spec (Looking.refl s) srcIndices
  unfold attempt
  rw [if_pos h]
  generalize candidates srcIndices s = x at looking
  obtain ⟨cs, u⟩ := x
  have put : u.put = s.put := looking.apart.put
  rw [← put] <;> rfl

theorem mayBegin_iff {s : State} : mayBegin s = true ↔ s.put.cycle = none ∧ s.picker.cond = .active ∧
    (s.bench.mode = .service ∨ s.bench.mode = .draining) := by
  unfold mayBegin
  simp only [Bool.and_eq_true, Bool.or_eq_true, decide_eq_true_eq, Option.isNone_iff_eq_none, and_assoc]

/-- The cycle that begins on a candidate (R84). -/
def Candidate.cycle (k : Candidate) : Cycle :=
  { src := k.p, offer := k.offer.tote, line := k.line, tgt := k.answer.q, tgtTote := k.answer.tote,
    comp := k.answer.comp, n := k.answer.n
    mode := match k.offer.lines[k.line]? with
      | some l => l.mode
      | none => .weigh }

/-- The state in which the displays of a cycle that begins are lit: its record made, the orphan timer stopped. -/
def begun (k : Candidate) (s : State) : State := stopOrphan k.p (serve k.offer.tote (putCycle k.cycle s))

theorem startCycle_eq (k : Candidate) (s : State) : startCycle k s = startIdle (showCycle k.cycle (begun k s)) := rfl

theorem begun_cycle (k : Candidate) (s : State) :
    (begun k s).put = { cycle := some k.cycle, lastServed := some k.offer.tote, graceT := s.put.graceT } := rfl

theorem showCycle_frame (c : Cycle) (s : State) :
    (showCycle c s).src = s.src ∧ (showCycle c s).wall = s.wall ∧ (showCycle c s).bench = s.bench ∧
      (showCycle c s).offers = s.offers ∧ (showCycle c s).arb = s.arb ∧ (showCycle c s).prof = s.prof ∧
      (showCycle c s).put = s.put ∧ (showCycle c s).picker = s.picker ∧ (showCycle c s).link = s.link ∧
      (showCycle c s).inputs = s.inputs ∧ (showCycle c s).pending = s.pending := by
  simp [showCycle, lightTarget, lightSource]

theorem startIdle_of_lit {s : State} (lit : s.put.cycle.isSome = true) (active : s.picker.cond = .active) :
    startIdle s = setIdleT (some (s.prof.profile.idleTimeout * 10)) s := by
  unfold startIdle
  rw [if_pos ⟨lit, active⟩]

/-- A cycle that begins with an ACTIVE picker lights its displays and starts the idle timer. -/
theorem startCycle_of_active {k : Candidate} {s : State} (active : s.picker.cond = .active) : startCycle k s =
    setIdleT (some (s.prof.profile.idleTimeout * 10)) (showCycle k.cycle (begun k s)) := by
  obtain ⟨-, -, -, -, -, prof, put, picker, -⟩ := showCycle_frame k.cycle (begun k s)
  rw [startCycle_eq, startIdle_of_lit (by rw [put]; rfl) (by rw [picker]; exact active), prof]
  rfl

theorem handOrder_lines_congr {s t : State} (lines : t.lines = s.lines) {pos : Pos}
    (faulted : isFaulted pos t = isFaulted pos s) (o : Order) : (handOrder pos o t).lines = (handOrder pos o s).lines := by
  unfold handOrder
  rw [faulted]
  split
  · exact lines
  · unfold modLine
    rw [lines]

theorem isFaulted_congr_src {s t : State} (h : ∀ p : Fin 4, t.src[p].state = s.src[p].state) (p : Fin 4) :
    isFaulted (.src p) t = isFaulted (.src p) s := by
  unfold isFaulted
  dsimp only
  rw [h p]

theorem isFaulted_congr_ord {s t : State} (h : ∀ q : Fin 12, t.wall.pos[q].state = s.wall.pos[q].state) (q : Fin 12) :
    isFaulted (.ord q) t = isFaulted (.ord q) s := by
  unfold isFaulted
  dsimp only
  rw [h q]

/-- The LIGHT orders of a cycle go by the lines and the position states alone. -/
theorem showCycle_lines_congr {s t : State} (lines : t.lines = s.lines)
    (src : ∀ p : Fin 4, t.src[p].state = s.src[p].state) (ord : ∀ q : Fin 12, t.wall.pos[q].state = s.wall.pos[q].state)
    (c : Cycle) : (showCycle c t).lines = (showCycle c s).lines := by
  unfold showCycle lightTarget lightSource
  refine handOrder_lines_congr (handOrder_lines_congr lines (isFaulted_congr_src src _) _) ?_ _
  exact isFaulted_congr_ord (fun q => by rw [handOrder_wall, handOrder_wall, ord q]) _

theorem begun_src (k : Candidate) (s : State) : (begun k s).src = s.src.set k.p (s.src[k.p].setOrphan none) := rfl

theorem begun_state (k : Candidate) (s : State) (p : Fin 4) : (begun k s).src[p].state = s.src[p].state := by
  show (modSrc k.p (SrcPos.setOrphan none) s).src[p].state = _
  rw [modSrc_getElem]
  split <;> rfl

/-- What beginning a cycle leaves as it was, and what it writes. -/
theorem startCycle_frame {k : Candidate} {s : State} (active : s.picker.cond = .active) :
    (startCycle k s).put = { cycle := some k.cycle, lastServed := some k.offer.tote, graceT := s.put.graceT } ∧
      (startCycle k s).picker = { cond := .active, idleT := some (s.prof.profile.idleTimeout * 10) } ∧
      (startCycle k s).src = s.src.set k.p (s.src[k.p].setOrphan none) ∧
      (startCycle k s).lines = (showCycle k.cycle s).lines ∧
      (startCycle k s).wall = s.wall ∧ (startCycle k s).bench = s.bench ∧ (startCycle k s).offers = s.offers ∧
      (startCycle k s).arb = s.arb ∧ (startCycle k s).prof = s.prof ∧ (startCycle k s).link = s.link ∧
      (startCycle k s).inputs = s.inputs ∧ (startCycle k s).pending = s.pending := by
  obtain ⟨src, wall, bench, offers, arb, prof, put, picker, link, inputs, pending⟩ := showCycle_frame k.cycle (begun k s)
  have lines : (showCycle k.cycle (begun k s)).lines = (showCycle k.cycle s).lines :=
    showCycle_lines_congr (s := s) (t := begun k s) rfl (begun_state k s) (fun _ => rfl) k.cycle
  rw [startCycle_of_active active]
  generalize showCycle k.cycle (begun k s) = v at *
  refine ⟨put, ?_, src, lines, wall, bench, offers, arb, prof, link, inputs, pending⟩
  have cond : v.picker.cond = .active := picker ▸ active
  unfold setIdleT
  rw [← cond]

/-- What an attempt comes to: nothing where none may be made; notices and marks where no candidate is found; a cycle. -/
inductive Attempted (s : State) : State → Prop
  | barred (h : mayBegin s = false) : Attempted s s
  | missed (h : mayBegin s = true) (u : State) (looking : Looking s u) (empty : (candidates srcIndices s).1 = []) : Attempted s u
  | cycle (h : mayBegin s = true) (u : State) (looking : Looking s u) (k : Candidate)
      (picked : pickCandidate (candidates srcIndices s).1 s.put.lastServed = some k) (fits : k.fits s) :
      Attempted s (startCycle k u)

theorem attempted (s : State) : Attempted s (attempt s) := by
  by_cases may : mayBegin s = true
  · obtain ⟨looking, fit, -⟩ := candidates_spec (Looking.refl s) srcIndices
    rw [attempt_of_may may]
    cases e : pickCandidate (candidates srcIndices s).1 s.put.lastServed with
    | none => exact .missed may _ looking (pickCandidate_eq_none.mp e)
    | some k => exact .cycle may _ looking k e (fit k (pickCandidate_mem (candidates_sorted s) e))
  · rw [attempt_of_not (by simpa using may)]
    exact .barred (by simpa using may)

end Sys2Proof.Machine

namespace Sys2Proof.Machine

/-!
The statements about an attempt (R79, R82 to R85).
-/

/-! ## What an attempt leaves as it was -/

/-- Notices and full marks of the lines asked for, and what no attempt touches (R79, R82). -/
structure AttemptFrame (s t : State) : Prop where
  marked : Marked s (attemptAsks s) t
  inputs : t.inputs = s.inputs
  offers : t.offers = s.offers
  arb : t.arb = s.arb
  cond : t.picker.cond = s.picker.cond
  pending : t.pending = s.pending

theorem Looking.frame {s u : State} (h : Looking s u) : AttemptFrame s u :=
  ⟨h.marked, h.apart.inputs, h.apart.offers, h.apart.arb, by rw [h.apart.picker], h.apart.pending⟩

theorem Looking.active {s u : State} (h : Looking s u) (may : mayBegin s = true) : u.picker.cond = .active := by
  rw [h.apart.picker]
  exact (mayBegin_iff.mp may).2.1

theorem Attempted.frame {s t : State} (h : Attempted s t) : AttemptFrame s t := by
  cases h with
  | barred _ => exact (Looking.refl s).frame
  | missed _ _ looking _ => exact looking.frame
  | cycle may u looking k _ _ =>
    obtain ⟨-, picker, -, -, wall, bench, offers, arb, prof, link, inputs, pending⟩ :=
      startCycle_frame (k := k) (looking.active may)
    have frame := looking.frame
    exact ⟨frame.marked.of_eq wall link bench prof, inputs.trans frame.inputs, offers.trans frame.offers,
      arb.trans frame.arb, by rw [picker]; exact ((mayBegin_iff.mp may).2.1).symm, pending.trans frame.pending⟩

/-- Where no cycle begins the faces, the lines, the put sequencer and the picker stay. -/
theorem Attempted.idle {s t : State} (h : Attempted s t) (dark : t.put.cycle = none) :
    t.put = s.put ∧ t.picker = s.picker ∧ t.src = s.src ∧ t.lines = s.lines := by
  cases h with
  | barred _ => exact ⟨rfl, rfl, rfl, rfl⟩
  | missed _ _ looking _ => exact ⟨looking.apart.put, looking.apart.picker, looking.src, looking.apart.lines⟩
  | cycle may u looking k _ _ =>
    rw [(startCycle_frame (k := k) (looking.active may)).1] at dark
    cases dark

/-- A cycle that begins is that of a candidate. -/
theorem Attempted.begun {s t : State} (h : Attempted s t) (was : s.put.cycle = none) {c : Cycle} (now : t.put.cycle = some c) :
    mayBegin s = true ∧ ∃ u k, Looking s u ∧ k.fits s ∧ t = startCycle k u ∧ c = k.cycle ∧
      pickCandidate (candidates srcIndices s).1 s.put.lastServed = some k := by
  cases h with
  | barred _ => rw [was] at now; cases now
  | missed _ _ looking _ => rw [looking.apart.put, was] at now; cases now
  | cycle may u looking k picked fits =>
    rw [(startCycle_frame (k := k) (looking.active may)).1] at now
    exact ⟨may, u, k, looking, fits, rfl, (Option.some.inj now).symm, picked⟩

theorem faceOffer_iff {p : Fin 4} {s : State} {o : Offer} :
    faceOffer p s = some o ↔ s.src[p].face.offer = some o.tote ∧ findOffer o.tote s = some o := by
  unfold faceOffer
  rw [Option.bind_eq_some_iff]
  constructor
  · rintro ⟨t, named, found⟩
    rw [← findOffer_tote found] at named found
    exact ⟨named, found⟩
  · exact fun ⟨named, found⟩ => ⟨_, named, found⟩

/-- What a candidate's cycle serves (R84). -/
theorem Candidate.fits.cycle {k : Candidate} {s : State} (h : k.fits s) :
    1 ≤ k.cycle.n ∧ s.src[k.cycle.src].face.state = .present ∧ s.src[k.cycle.src].face.offer = some k.cycle.offer ∧
      ∃ (o : Offer) (l : OLine) (r : Rec), findOffer k.cycle.offer s = some o ∧ o.state = .present ∧
        (∀ i l', i < k.cycle.line → o.lines[i]? = some l' → l'.state = .opn → findRoom o.temp l' s = none) ∧
        o.lines[k.cycle.line]? = some l ∧ l.state = .opn ∧ k.cycle.mode = l.mode ∧ k.cycle.n ≤ l.qty - l.done ∧
        findRoom o.temp l s =
          some { q := k.cycle.tgt, tote := k.cycle.tgtTote, comp := k.cycle.comp, n := k.cycle.n } ∧
        s.wall.pos[k.cycle.tgt].state = .active ∧ s.wall.pos[k.cycle.tgt].record = some r ∧ r.cond = .clean ∧
        r.ref = l.ref ∧ r.tote = k.cycle.tgtTote := by
  obtain ⟨present, found, here, ⟨l, at', opn, room⟩, before, -⟩ := h
  obtain ⟨named, listed⟩ := faceOffer_iff.mp found
  obtain ⟨r, -, -, ⟨active, record, clean, ref⟩, tote, -, -, pos, ⟨_, -, -, -, owed, -⟩, -⟩ := findRoom_eq_some room
  have mode : k.cycle.mode = l.mode := by
    show (match k.offer.lines[k.line]? with
      | some l => l.mode
      | none => .weigh) = _
    rw [at']
  exact ⟨pos, present, named, k.offer, l, r, listed, here, before, at', opn, mode, owed, room, active, record, clean, ref,
    tote⟩

/-- Settles O27: the attempt is nothing, a search without a candidate, or the cycle of a candidate. -/
theorem attemptBeginsServeableCycle : Obligations.AttemptBeginsServeableCycle := by
  refine ⟨fun s => ⟨fun bar => attempt_of_not ?_, fun c was now => ?_⟩, ?_⟩
  · by_contra may
    rw [Bool.not_eq_false] at may
    obtain ⟨none, active, mode⟩ := mayBegin_iff.mp may
    rcases bar with lit | held | ⟨notService, notDraining⟩
    · rw [none] at lit; cases lit
    · exact held active
    · exact mode.elim notService notDraining
  · have h := attempted s
    generalize attempt s = t at h now
    obtain ⟨may, u, k, looking, fits, rfl, rfl, -⟩ := h.begun was now
    obtain ⟨put, picker, src, lines, -⟩ := startCycle_frame (k := k) (looking.active may)
    obtain ⟨pos, present, named, serves⟩ := fits.cycle
    refine ⟨rfl, rfl, rfl, rfl, pos, ?_, ?_, ?_, ?_, present, named, serves⟩
    · rw [put, looking.apart.put]
      rfl
    · rw [picker, looking.marked.prof]
    · rw [src, looking.src]
      rfl
    · rw [lines, showCycle_lines_congr looking.apart.lines (fun p => by rw [looking.src])
        fun q => OrdPos.state_of_unmarked (looking.marked.unmarked q)]
      rfl
  · intro s t left
    have h : Attempted s t := attempted s
    clear_value t
    obtain ⟨marked, inputs, offers, arb, cond, pending⟩ := h.frame
    refine ⟨h.idle, marked.unmarked, marked.counter, fun q r here => ?_, marked.out, marked.link, marked.lost, inputs,
      offers, arb, cond, marked.bench, marked.prof, pending⟩
    obtain ⟨r', here', marks⟩ := marked.marks q r here
    refine ⟨r', here', fun c => ⟨(marks c).1, fun clear set => ?_⟩⟩
    obtain ⟨active, clean, l, ⟨p, o, present, found, state, temp, hl, opn⟩, ref, none⟩ := (marks c).2 clear set
    exact ⟨active, clean, p, o, l, present, found, state, temp, hl, opn, ref, none⟩

/-- Settles O28: the candidates stand in ascending position, and each preference takes the least of its key. -/
theorem candidatePreference : Obligations.CandidatePreference := by
  refine ⟨fun s may => ?_, ?_⟩
  · have h := attempted s
    have none := (mayBegin_iff.mp may).1
    refine ⟨fun p => exists_candidate_iff s p, fun empty => ?_, fun some => ?_⟩
    · by_contra lit
      obtain ⟨c, now⟩ := Option.ne_none_iff_exists'.mp lit
      obtain ⟨-, _, k, -, -, -, -, picked⟩ := h.begun none now
      rw [empty] at picked
      cases picked
    · obtain ⟨k, picked⟩ := Option.ne_none_iff_exists'.mp fun e => some (pickCandidate_eq_none (served := s.put.lastServed).mp e)
      generalize attempt s = t at h
      cases h with
      | barred not => rw [may] at not; cases not
      | missed _ _ _ empty => exact absurd empty some
      | cycle _ u looking k' picked' _ =>
        rw [picked'] at picked
        refine ⟨k', k'.cycle, picked', ?_, rfl, rfl⟩
        rw [(startCycle_frame (k := k') (looking.active may)).1]
  · intro s served k cs time picked
    have sorted : cs.Pairwise fun a b => a.p < b.p := candidates_sorted s
    clear_value cs
    refine ⟨pickCandidate_mem sorted picked, fun w hw warned => ?_, fun calm w hw same => ?_, fun calm w hw => ?_⟩
    · rcases pickCandidate_picked picked with first | ⟨calm, -⟩ | ⟨calm, -, -⟩
      · obtain ⟨mem, least⟩ := firstBy_spec moreUrgent_iff (sorted.filter _) first
        exact ⟨(List.mem_filter.mp mem).2, atOrBefore_lex (least w (List.mem_filter.mpr ⟨hw, warned⟩))⟩
      · rw [calm w hw] at warned; cases warned
      · rw [calm w hw] at warned; cases warned
    · rcases pickCandidate_picked picked with first | ⟨-, first⟩ | ⟨-, other, -⟩
      · obtain ⟨mem, -⟩ := firstBy_spec moreUrgent_iff (sorted.filter _) first
        obtain ⟨mem, warned⟩ := List.mem_filter.mp mem
        rw [calm k mem] at warned
        cases warned
      · have served' := List.find?_some first
        exact beq_iff_eq.mp served'
      · exact absurd same (other w hw)
    · rcases pickCandidate_picked picked with first | ⟨-, first⟩ | ⟨-, -, first⟩
      · obtain ⟨mem, -⟩ := firstBy_spec moreUrgent_iff (sorted.filter _) first
        obtain ⟨mem, warned⟩ := List.mem_filter.mp mem
        rw [(calm k mem).1] at warned
        cases warned
      · have served' := List.find?_some first
        exact absurd (beq_iff_eq.mp served') (calm k (List.mem_of_find?_eq_some first)).2
      · exact (firstBy_spec earlier_iff sorted first).2 w hw

end Sys2Proof.Machine

namespace Sys2Proof.Machine

/-!
The control link: frames in, frames out, notices, and the requests turned away (R143, R163 to R168, R170).
-/

/-! ## Numbers as bytes -/

theorem le16_bytes16 {n : Nat} (h : n < 65536) : le16 (BitVec.ofNat 8 n) (BitVec.ofNat 8 (n / 256)) = n := by
  simp only [le16, BitVec.toNat_ofNat]
  omega

theorem le32_bytes32 {n : Nat} (h : n ≤ 4294967295) : le32 (BitVec.ofNat 8 n) (BitVec.ofNat 8 (n / 256))
    (BitVec.ofNat 8 (n / 65536)) (BitVec.ofNat 8 (n / 16777216)) = n := by
  simp only [le32, BitVec.toNat_ofNat]
  omega

/-! ## The receiver (R163) -/

/-- A byte that completes no frame changes the bytes taken alone. -/
theorem receiveByte_of_none {s : State} {rx rx' : List Byte} {b : Byte} (h : receive rx b = (rx', none)) :
    receiveByte (setRx rx s) b = setRx rx' s := by
  unfold receiveByte
  rw [setRx_link, h]
  rfl

theorem receive_collect {s0 l0 l1 : Byte} {rest : List Byte} {b : Byte} (h : (rest ++ [b]).length < le16 l0 l1 + 2) :
    receive (s0 :: l0 :: l1 :: rest) b = (s0 :: l0 :: l1 :: (rest ++ [b]), none) := if_pos h

theorem receive_complete {s0 l0 l1 : Byte} {rest : List Byte} {b : Byte} (h : (rest ++ [b]).length = le16 l0 l1 + 2) :
    receive (s0 :: l0 :: l1 :: rest) b = ([], frameRequest (l0 :: l1 :: (rest ++ [b]))) :=
  if_neg (Nat.not_lt.mpr (Nat.le_of_eq h.symm))

/-- The bytes of a frame short of its last are taken as they come. -/
theorem foldl_collect {s0 l0 l1 : Byte} (rest xs : List Byte) (s : State) (h : rest.length + xs.length < le16 l0 l1 + 2) :
    xs.foldl receiveByte (setRx (s0 :: l0 :: l1 :: rest) s) = setRx (s0 :: l0 :: l1 :: (rest ++ xs)) s := by
  induction xs generalizing rest with
  | nil => rw [List.append_nil]; rfl
  | cons b xs ih =>
    rw [List.length_cons] at h
    rw [List.foldl_cons, receiveByte_of_none (receive_collect (by rw [List.length_append, List.length_singleton]; omega)),
      ih _ (by rw [List.length_append, List.length_singleton]; omega), List.append_assoc]
    rfl

theorem setRx_nil {s : State} (h : s.link.rx = []) : setRx [] s = s := by
  unfold setRx
  rw [← h]

/-- What becomes of a whole frame of good length taken while the receiver hunts. -/
theorem foldl_frame {s : State} (hunting : s.link.rx = []) {l0 l1 : Byte} (good : goodLength (le16 l0 l1) = true)
    {xs : List Byte} {b : Byte} (whole : (xs ++ [b]).length = le16 l0 l1 + 2) :
    (Config.startByte :: l0 :: l1 :: (xs ++ [b])).foldl receiveByte s =
      match frameRequest (l0 :: l1 :: (xs ++ [b])) with
      | none => s
      | some r => takeRequest r s := by
  have start : receiveByte s Config.startByte = setRx [Config.startByte] s := by
    rw [← setRx_nil hunting]
    exact receiveByte_of_none (by simp [receive])
  have first : receiveByte (setRx [Config.startByte] s) l0 = setRx [Config.startByte, l0] s := receiveByte_of_none rfl
  have second : receiveByte (setRx [Config.startByte, l0] s) l1 = setRx [Config.startByte, l0, l1] s :=
    receiveByte_of_none (by simp [receive, good])
  have short : xs.length < le16 l0 l1 + 2 := by
    rw [List.length_append, List.length_singleton] at whole
    omega
  rw [List.foldl_cons, start, List.foldl_cons, first, List.foldl_cons, second, List.foldl_append,
    foldl_collect [] xs s (by simpa using short), List.nil_append, List.foldl_cons, List.foldl_nil]
  unfold receiveByte
  rw [setRx_link, receive_complete whole]
  dsimp only
  rw [show setRx [] (setRx (Config.startByte :: l0 :: l1 :: xs) s) = setRx [] s from rfl, setRx_nil hunting] <;> rfl

/-- A whole frame is read as its check and tag allow. -/
theorem frameRequest_eq (l0 l1 tag kind c0 c1 : Byte) (body : List Byte) :
    frameRequest (l0 :: l1 :: tag :: kind :: (body ++ [c0, c1])) =
      if crc16 (l0 :: l1 :: tag :: kind :: body) = le16 c0 c1 ∧ tag ≠ 0 then
        some { tag := tag, kind := kind, body := body } else none := by
  have span : (l0 :: l1 :: tag :: kind :: (body ++ [c0, c1])).take
      ((l0 :: l1 :: tag :: kind :: (body ++ [c0, c1])).length - 2) = l0 :: l1 :: tag :: kind :: body := by
    simp
  have check : (l0 :: l1 :: tag :: kind :: (body ++ [c0, c1])).drop
      ((l0 :: l1 :: tag :: kind :: (body ++ [c0, c1])).length - 2) = [c0, c1] := by
    simp
  unfold frameRequest
  dsimp only
  rw [span, check]

theorem goodLength_iff (n : Nat) : goodLength n = true ↔ 2 ≤ n ∧ n ≤ 482 := by
  unfold goodLength
  rw [Bool.and_eq_true, decide_eq_true_eq, decide_eq_true_eq]

/-- Settles O30: the frame is complete at its last byte, its check agrees and its tag is not 0. -/
theorem goodFrameBecomesRequest : Obligations.GoodFrameBecomesRequest := by
  intro s tag kind body off hunting tagged short r
  have len : le16 (BitVec.ofNat 8 (body.length + 2)) (BitVec.ofNat 8 ((body.length + 2) / 256)) = body.length + 2 :=
    le16_bytes16 (by omega)
  have crc := crc16_lt (checked tag kind body)
  have bytes : frame tag kind body = Config.startByte :: BitVec.ofNat 8 (body.length + 2) ::
      BitVec.ofNat 8 ((body.length + 2) / 256) ::
      ((tag :: kind :: (body ++ [BitVec.ofNat 8 (crc16 (checked tag kind body))])) ++
        [BitVec.ofNat 8 (crc16 (checked tag kind body) / 256)]) := by
    simp [frame, checked, bytes16]
  have request : frameRequest (BitVec.ofNat 8 (body.length + 2) :: BitVec.ofNat 8 ((body.length + 2) / 256) ::
      ((tag :: kind :: (body ++ [BitVec.ofNat 8 (crc16 (checked tag kind body))])) ++
        [BitVec.ofNat 8 (crc16 (checked tag kind body) / 256)])) = some r := by
    rw [show ((tag :: kind :: (body ++ [BitVec.ofNat 8 (crc16 (checked tag kind body))])) ++
        [BitVec.ofNat 8 (crc16 (checked tag kind body) / 256)]) = tag :: kind :: (body ++
        [BitVec.ofNat 8 (crc16 (checked tag kind body)), BitVec.ofNat 8 (crc16 (checked tag kind body) / 256)]) by simp,
      frameRequest_eq]
    exact if_pos ⟨(le16_bytes16 crc).symm, tagged⟩
  show live (fun s => (frame tag kind body).foldl receiveByte s) s = _
  rw [live_of_off off, bytes, foldl_frame hunting (by rw [len, goodLength_iff]; omega) (by rw [len]; simp), request]
  dsimp only
  unfold takeRequest replyFree
  simp only [decide_eq_true_eq]
  rfl

/-- Settles O31: a failing check or a tag of 0 gives no request; a bad length and a gap leave what hunting takes. -/
theorem badFramesAreDiscarded : Obligations.BadFramesAreDiscarded := by
  refine ⟨fun s l0 l1 tag kind c0 c1 body off hunting lo hi len bad => ?_, fun s lo hi off hunting bad => ?_,
    fun s next off => ?_⟩
  · have request : frameRequest (l0 :: l1 :: ((tag :: kind :: (body ++ [c0])) ++ [c1])) = none := by
      rw [show (tag :: kind :: (body ++ [c0])) ++ [c1] = tag :: kind :: (body ++ [c0, c1]) by simp, frameRequest_eq]
      exact if_neg fun ⟨check, tagged⟩ => bad.elim (fun ne => ne check) fun zero => tagged zero
    show live (fun s => (0xC3 :: l0 :: l1 :: tag :: kind :: (body ++ [c0, c1])).foldl receiveByte s) s = _
    rw [live_of_off off, show (0xC3 : Byte) :: l0 :: l1 :: tag :: kind :: (body ++ [c0, c1]) =
        Config.startByte :: l0 :: l1 :: ((tag :: kind :: (body ++ [c0])) ++ [c1]) by simp [Config.startByte],
      foldl_frame hunting ((goodLength_iff _).mpr ⟨lo, hi⟩) (by simp; omega), request]
  · have bad : goodLength (le16 lo hi) = false := by
      rw [← Bool.not_eq_true, goodLength_iff]
      omega
    show live (fun s => [Config.startByte, lo, hi].foldl receiveByte s) s = _
    rw [live_of_off off]
    congr 1
    have start : receiveByte s Config.startByte = setRx [Config.startByte] s := by
      rw [← setRx_nil hunting]
      exact receiveByte_of_none (by simp [receive])
    have first : receiveByte (setRx [Config.startByte] s) lo = setRx [Config.startByte, lo] s := receiveByte_of_none rfl
    have second : receiveByte (setRx [Config.startByte, lo] s) hi = setRx (rehunt lo hi) s :=
      receiveByte_of_none (by simp [receive, bad])
    simp only [List.foldl_cons, start, first, second, List.foldl_nil]
    exact Eq.refl (setRx (rehunt lo hi) s)
  · show live (fun s => receiveByte (dropPartial s) next) s = _
    rw [live_of_off off]
    congr 1

end Sys2Proof.Machine

namespace Sys2Proof.Machine

/-!
Frames sent, notices handed over, and the bytes of a RELEASE notice (R49, R141, R167, R168, R170).
-/

/-! ## A frame sent (R168) -/

theorem frameSent_notice {s : State} {n : Notice} {rest : List OutEntry} (h : s.link.out = .notice n :: rest) :
    frameSent s = if noticeCount s = 48 then arbitrate (setOut rest s) else setOut rest s := by
  unfold frameSent
  rw [h] <;> rfl

theorem frameSent_reply {s : State} {r : Reply} {rest : List OutEntry} (h : s.link.out = .reply r :: rest) :
    frameSent s = if isRestartReply r && (s.link.held.any fun x => x.job == .restart) then startUp true (setOut rest s)
      else setOut rest s := by
  unfold frameSent
  rw [h] <;> rfl

/-- The sent reply that leads to a start-up: the OK of the RESTART that holds execution (R141). -/
theorem restart_iff (r : Reply) (s : State) :
    (isRestartReply r && s.link.held.any fun x => x.job == .restart) = true ↔
      r.kind = 0x8F ∧ r.body = .ok .none ∧ ∃ x, s.link.held = some x ∧ x.job = .restart := by
  unfold isRestartReply
  cases s.link.held <;> simp [and_assoc]

/-- The start-up of RESTART keeps the SHIFT flag (R144). -/
theorem startUp_restart (s : State) : (startUp true s).prof.shift = s.prof.shift ∧
    (startUp true s).prof.effLock = effectiveLock (startUp true s).prof.storedLock s.prof.shift := by
  obtain ⟨-, -, -, -, -, -, -, -, -, -, -, -, -, -, -, shift, lock, -⟩ := startUp_made true s
  rw [Bool.true_and] at shift
  exact ⟨shift, shift ▸ lock⟩

/-! ## A notice handed over (R167, R168) -/

theorem notify_masked {b : NoticeBody} {s : State} {on : Bool} (h : b.maskEntry s.prof.profile.mask = some on) :
    (on = false → notify b s = s) ∧
      (on = true → noticeCount s < 48 → notify b s = pushNotice b s) ∧
      (on = true → 48 ≤ noticeCount s → notify b s = setLost s) := by
  refine ⟨fun off => ?_, fun set room => ?_, fun set full => ?_⟩
  · unfold notify
    rw [h, off]
  · unfold notify
    rw [h, set]
    exact if_pos room
  · unfold notify
    rw [h, set]
    exact if_neg (Nat.not_lt.mpr full)

theorem notify_always {b : NoticeBody} {s : State} (h : b.maskEntry s.prof.profile.mask = none) :
    (noticeCount s < 64 → notify b s = pushNotice b s) ∧ (64 ≤ noticeCount s → notify b s = setLost s) := by
  refine ⟨fun room => ?_, fun full => ?_⟩
  · unfold notify
    rw [h]
    exact if_pos room
  · unfold notify
    rw [h]
    exact if_neg (Nat.not_lt.mpr full)

/-! ## The bytes of a RELEASE notice (R170) -/

/-- The first 15 bytes of the body: clock, tote id, reason, position, slot, remaining exposure, number of entries. -/
def releaseHead (clock : Nat) (tote : Option Nat) (r : Reason) (place : Option (Fin 4 × Slot)) (rem : Option Nat)
    (count : Nat) : List Byte :=
  let at' := match place with
    | none => ((0xFF : Byte), (0xFF : Byte))
    | some (p, sl) => (BitVec.ofNat 8 p.val, BitVec.ofNat 8 (slotCode sl))
  let t := tote.getD 0
  let e := rem.getD 0xFFFF
  [BitVec.ofNat 8 clock, BitVec.ofNat 8 (clock / 256), BitVec.ofNat 8 (clock / 65536), BitVec.ofNat 8 (clock / 16777216),
    BitVec.ofNat 8 t, BitVec.ofNat 8 (t / 256), BitVec.ofNat 8 (t / 65536), BitVec.ofNat 8 (t / 16777216),
    BitVec.ofNat 8 r.code, at'.1, at'.2, BitVec.ofNat 8 e, BitVec.ofNat 8 (e / 256), BitVec.ofNat 8 count,
    BitVec.ofNat 8 (count / 256)]

theorem releaseBytes_eq (clock : Nat) (tote : Option Nat) (r : Reason) (place : Option (Fin 4 × Slot)) (rem : Option Nat)
    (sm : List SummaryEntry) : releaseBytes clock tote r place rem sm =
      releaseHead clock tote r place rem sm.length ++ sm.flatMap SummaryEntry.bytes := by
  cases place with
  | none => rfl
  | some x => obtain ⟨p, sl⟩ := x; rfl

theorem byteAt_append_left {xs ys : List Byte} {i : Nat} (h : i < xs.length) : byteAt (xs ++ ys) i = byteAt xs i :=
  List.getD_append _ _ _ _ h

theorem byteAt_append_right {xs ys : List Byte} {i : Nat} (h : xs.length ≤ i) :
    byteAt (xs ++ ys) i = byteAt ys (i - xs.length) := List.getD_append_right _ _ _ _ h

theorem summaryBytes_length (sm : List SummaryEntry) : (sm.flatMap SummaryEntry.bytes).length = 7 * sm.length := by
  induction sm with
  | nil => rfl
  | cons e sm ih =>
    rw [List.flatMap_cons, List.length_append, ih, List.length_cons]
    show 7 + _ = _
    omega

/-- Byte `j` of entry `i` stands at 7 × i + j. -/
theorem byteAt_summary (sm : List SummaryEntry) (i j : Nat) (h : i < sm.length) (hj : j < 7) :
    byteAt (sm.flatMap SummaryEntry.bytes) (7 * i + j) = byteAt sm[i].bytes j := by
  induction sm generalizing i with
  | nil => cases h
  | cons e sm ih =>
    rw [List.flatMap_cons]
    cases i with
    | zero => exact byteAt_append_left (by rw [Nat.mul_zero, Nat.zero_add]; exact hj) |>.trans (by simp)
    | succ i =>
      have len : e.bytes.length = 7 := rfl
      rw [byteAt_append_right (by omega), len, show 7 * (i + 1) + j - 7 = 7 * i + j by omega,
        ih i (Nat.lt_of_succ_lt_succ h)]
      rfl

section
variable (clock : Nat) (tote : Option Nat) (r : Reason) (place : Option (Fin 4 × Slot)) (rem : Option Nat)
  (sm : List SummaryEntry)

theorem byteAt_release_head {i : Nat} (h : i < 15) : byteAt (releaseBytes clock tote r place rem sm) i =
    byteAt (releaseHead clock tote r place rem sm.length) i := by
  rw [releaseBytes_eq]
  exact byteAt_append_left h

theorem byteAt_release_entry (i j : Nat) (h : i < sm.length) (hj : j < 7) :
    byteAt (releaseBytes clock tote r place rem sm) (15 + 7 * i + j) = byteAt sm[i].bytes j := by
  have len : (releaseHead clock tote r place rem sm.length).length = 15 := rfl
  rw [releaseBytes_eq, byteAt_append_right (by omega), len, show 15 + 7 * i + j - 15 = 7 * i + j by omega,
    byteAt_summary sm i j h hj]

theorem u32At_release_clock (h : clock ≤ 4294967295) : u32At (releaseBytes clock tote r place rem sm) 0 = clock := by
  unfold u32At
  rw [byteAt_release_head _ _ _ _ _ _ (by omega), byteAt_release_head _ _ _ _ _ _ (by omega),
    byteAt_release_head _ _ _ _ _ _ (by omega), byteAt_release_head _ _ _ _ _ _ (by omega)]
  exact le32_bytes32 h

theorem u32At_release_tote (h : ∀ t, tote = some t → t ≤ 4294967295) :
    u32At (releaseBytes clock tote r place rem sm) 4 = tote.getD 0 := by
  unfold u32At
  rw [byteAt_release_head _ _ _ _ _ _ (by omega), byteAt_release_head _ _ _ _ _ _ (by omega),
    byteAt_release_head _ _ _ _ _ _ (by omega), byteAt_release_head _ _ _ _ _ _ (by omega)]
  refine le32_bytes32 (n := tote.getD 0) ?_
  cases tote with
  | none => exact Nat.zero_le _
  | some t => exact h t rfl

theorem u16At_release_remaining (h : ∀ n, rem = some n → n < 65535) :
    u16At (releaseBytes clock tote r place rem sm) 11 = rem.getD 65535 := by
  unfold u16At
  rw [byteAt_release_head _ _ _ _ _ _ (by omega), byteAt_release_head _ _ _ _ _ _ (by omega)]
  refine le16_bytes16 (n := rem.getD 65535) ?_
  cases rem with
  | none => decide
  | some n => exact Nat.lt_of_lt_of_le (h n rfl) (by decide)

theorem u16At_release_count (h : sm.length ≤ 8) : u16At (releaseBytes clock tote r place rem sm) 13 = sm.length := by
  unfold u16At
  rw [byteAt_release_head _ _ _ _ _ _ (by omega), byteAt_release_head _ _ _ _ _ _ (by omega)]
  exact le16_bytes16 (by omega)

/-- A summary entry at its offset: order ref, quantity, done count, line state. -/
theorem release_entry {i : Nat} (h : i < sm.length) (bound : sm[i].ref ≤ 4294967295 ∧ sm[i].qty ≤ 255 ∧ sm[i].done ≤ 255) :
    u32At (releaseBytes clock tote r place rem sm) (15 + 7 * i) = sm[i].ref ∧
      (byteAt (releaseBytes clock tote r place rem sm) (19 + 7 * i)).toNat = sm[i].qty ∧
      (byteAt (releaseBytes clock tote r place rem sm) (20 + 7 * i)).toNat = sm[i].done ∧
      (byteAt (releaseBytes clock tote r place rem sm) (21 + 7 * i)).toNat = sm[i].state.code := by
  obtain ⟨ref, qty, done⟩ := bound
  have entry := fun j => byteAt_release_entry clock tote r place rem sm i j h
  have small : ∀ n, n ≤ 255 → (BitVec.ofNat 8 n).toNat = n := fun n hn => by
    rw [BitVec.toNat_ofNat]
    omega
  refine ⟨?_, ?_, ?_, ?_⟩
  · unfold u32At
    rw [show 15 + 7 * i = 15 + 7 * i + 0 from rfl, entry 0 (by omega), entry 1 (by omega), entry 2 (by omega),
      entry 3 (by omega)]
    exact le32_bytes32 ref
  · rw [show 19 + 7 * i = 15 + 7 * i + 4 by omega, entry 4 (by omega)]
    exact small _ qty
  · rw [show 20 + 7 * i = 15 + 7 * i + 5 by omega, entry 5 (by omega)]
    exact small _ done
  · rw [show 21 + 7 * i = 15 + 7 * i + 6 by omega, entry 6 (by omega)]
    exact small _ (by cases sm[i].state <;> decide)

end

/-- Settles O32: the three kinds of entry at the front, the two kinds of notice, and the offsets of a RELEASE. -/
theorem sentFrameFreesItsEntry : Obligations.SentFrameFreesItsEntry := by
  refine ⟨fun s off => ?_, fun s b => ?_, fun s r b => ?_, fun clock tote r place rem sm time id exposure few bounds => ?_⟩
  · have sent : exec .frameSent s = .next (frameSent s) := live_of_off off frameSent
    rw [sent]
    refine ⟨fun empty => ?_, fun n rest front ne => ?_, fun n rest front at' => ?_, fun r rest front other => ?_,
      fun r rest x front kind body held job => ?_⟩
    · unfold frameSent
      rw [empty]
    · rw [frameSent_notice front, if_neg ne]
      rfl
    · rw [frameSent_notice front, if_pos at']
      rfl
    · rw [frameSent_reply front, if_neg]
      · rfl
      · rw [restart_iff]
        rintro ⟨kind, body, x, held, job⟩
        exact other.elim (fun ne => ne kind) fun h => h.elim (fun ne => ne body) fun none => none x held job
    · rw [frameSent_reply front, if_pos ((restart_iff r s).mpr ⟨kind, body, x, held, job⟩)]
      have made := startUp_made true (setOut rest s)
      exact ⟨_, rfl, made, startUp_restart (setOut rest s)⟩
  · cases b
    case call => exact notify_always rfl
    case release => exact notify_always rfl
    case lapse => exact notify_always rfl
    all_goals exact notify_masked rfl
  · unfold noticeCount answer
    rw [List.countP_append]
    rfl
  · refine ⟨releaseBytes clock tote r place rem sm, rfl, ?_, u32At_release_clock _ _ _ _ _ _ time,
      u32At_release_tote _ _ _ _ _ _ id, ?_, ?_, ?_, ?_, u16At_release_remaining _ _ _ _ _ _ exposure,
      u16At_release_count _ _ _ _ _ _ few, fun i h => ?_⟩
    · rw [releaseBytes_eq, List.length_append, summaryBytes_length]
      rfl
    · rw [byteAt_release_head _ _ _ _ _ _ (by omega)]
      cases r <;> rfl
    · rintro rfl
      exact ⟨byteAt_release_head _ _ _ _ _ _ (by omega), byteAt_release_head _ _ _ _ _ _ (by omega)⟩
    · rintro p rfl
      rw [byteAt_release_head _ _ _ _ _ _ (by omega), byteAt_release_head _ _ _ _ _ _ (by omega)]
      exact ⟨by fin_cases p <;> rfl, rfl⟩
    · rintro p rfl
      rw [byteAt_release_head _ _ _ _ _ _ (by omega), byteAt_release_head _ _ _ _ _ _ (by omega)]
      exact ⟨by fin_cases p <;> rfl, rfl⟩
    · obtain ⟨ref, qty, done, state⟩ := release_entry clock tote r place rem sm h (bounds _ (List.getElem_mem h))
      refine ⟨ref, qty, done, state.trans ?_⟩
      cases sm[i].state <;> rfl

end Sys2Proof.Machine

namespace Sys2Proof.Machine

/-!
The requests that wait or are turned away: the row that executes a request, and what becomes of one whose execution may
not begin, that its mode turns away, or whose body is too short (R142, R143, R164 to R166).
-/

/-! ## The rows that execute requests -/

/-- A row of the table is a request row: it reads the body of the request at the front of the inbox, where the body is
too short below `n` bytes, and gives it to its owner. -/
def RunsRequest (row : Instr) (n : Nat) : Prop :=
  ∃ (α : Type) (read : State → List Byte → Option α) (owner : Request → α → State → State),
    (∀ s, exec row s = live (runRequest row read owner) s) ∧
    ∀ (s : State) (r : Request), rowOf r = row → r.body.length < n → read s r.body = none

/-- Whether a row is that of QUERY POSITION, QUERY OFFER or QUERY ORDER, and the form code of that request. -/
def formCode : Instr → Option Byte
  | .queryPosition => some 1
  | .queryOffer => some 2
  | .queryOrder => some 3
  | _ => none

/-- The body of a QUERY of a known form begins with the code of the form. -/
theorem body_of_form {r : Request} {f : Byte} (h : formCode (rowOf r) = some f) : ∃ rest, r.body = f :: rest := by
  unfold rowOf at h
  split at h
  case h_20 =>
    split at h
    · cases h
    · next g rest e =>
      refine ⟨rest, ?_⟩
      rw [e]
      split_ifs at h with one two three
      · rw [one, ← Option.some.inj h]
      · rw [two, ← Option.some.inj h]
      · rw [three, ← Option.some.inj h]
      · cases h
  all_goals cases h

theorem readId_short {bs : List Byte} (h : bs.length < 4) : readId bs = none := if_pos h

theorem readPos_short {bs : List Byte} (h : bs.length < 1) : readPos bs = none := if_pos h

theorem readProfileSet_short : ∀ {bs : List Byte}, bs.length < 2 → readProfileSet bs = none
  | [], _ => rfl
  | [_], _ => rfl
  | _ :: _ :: _, h => absurd h (by simp)

theorem readQuery_empty : ∀ {bs : List Byte}, bs.length < 1 → readQuery bs = none
  | [], _ => rfl
  | _ :: _, h => absurd h (by simp)

theorem readQuery_position_short : ∀ {rest : List Byte}, rest.length < 2 → readQuery (1 :: rest) = none
  | [], _ => rfl
  | [_], _ => rfl
  | _ :: _ :: _, h => absurd h (by simp)

theorem readQuery_id_short {f : Byte} (hf : f = 2 ∨ f = 3) {rest : List Byte} (h : rest.length < 4) :
    readQuery (f :: rest) = none := by
  rcases hf with rfl | rfl <;> simp [readQuery, readId_short h]

theorem runsRequest_of_read {row : Instr} {α : Type} {read : State → List Byte → Option α}
    {owner : Request → α → State → State} {n : Nat} (runs : ∀ s, exec row s = live (runRequest row read owner) s)
    (short : ∀ (s : State) {bs : List Byte}, bs.length < n → read s bs = none) : RunsRequest row n :=
  ⟨α, read, owner, runs, fun s _ _ h => short s h⟩

/-- A row whose body may be of any length for its reading. -/
theorem runsRequest_zero {row : Instr} {α : Type} {read : State → List Byte → Option α}
    {owner : Request → α → State → State} (runs : ∀ s, exec row s = live (runRequest row read owner) s) :
    RunsRequest row 0 :=
  runsRequest_of_read runs fun _ _ h => absurd h (Nat.not_lt_zero _)

theorem runsRequest_queryForm {row : Instr} {owner : Request → QueryArg → State → State} {f : Byte} {n : Nat}
    (form : formCode row = some f) (runs : ∀ s, exec row s = live (runRequest row (fun _ => readQuery) owner) s)
    (short : ∀ {rest : List Byte}, rest.length < n → readQuery (f :: rest) = none) : RunsRequest row (n + 1) := by
  refine ⟨_, _, owner, runs, fun _ r hr h => ?_⟩
  obtain ⟨rest, e⟩ := body_of_form (hr ▸ form)
  rw [e] at h ⊢
  exact short (Nat.lt_of_succ_lt_succ h)

/-- The request rows whose fields take some bytes, with the number (section 11.7). -/
theorem runsRequest_of_fields : ∀ x ∈ [(Instr.recall, 4), (.wallAdd, 10), (.wallUrge, 5), (.wallWindow, 5),
    (.wallShut, 2), (.wallRebase, 1), (.wallRelease, 1), (.posOpen, 1), (.posClose, 1), (.posOpenOrder, 1),
    (.posCloseOrder, 1), (.profileSet, 2), (.queryBench, 1), (.queryPosition, 3), (.queryOffer, 5), (.queryOrder, 5)],
    RunsRequest x.1 x.2 := by
  simp only [List.forall_mem_cons, List.not_mem_nil, false_imp_iff, implies_true, and_true]
  exact ⟨runsRequest_of_read (fun _ => rfl) fun _ => readId_short, runsRequest_of_read (fun _ => rfl) fun _ _ h => if_pos h,
    runsRequest_of_read (fun _ => rfl) fun _ _ h => if_pos h, runsRequest_of_read (fun _ => rfl) fun _ _ h => if_pos h,
    runsRequest_of_read (fun _ => rfl) fun _ _ h => if_pos h, runsRequest_of_read (fun _ => rfl) fun _ => readPos_short,
    runsRequest_of_read (fun _ => rfl) fun _ => readPos_short, runsRequest_of_read (fun _ => rfl) fun _ => readPos_short,
    runsRequest_of_read (fun _ => rfl) fun _ => readPos_short, runsRequest_of_read (fun _ => rfl) fun _ => readPos_short,
    runsRequest_of_read (fun _ => rfl) fun _ => readPos_short,
    runsRequest_of_read (fun _ => rfl) fun _ => readProfileSet_short,
    runsRequest_of_read (fun _ => rfl) fun _ => readQuery_empty,
    runsRequest_queryForm rfl (fun _ => rfl) readQuery_position_short,
    runsRequest_queryForm rfl (fun _ => rfl) (readQuery_id_short (.inl rfl)),
    runsRequest_queryForm rfl (fun _ => rfl) (readQuery_id_short (.inr rfl))⟩

/-- The request rows whose body is read whatever its length. -/
theorem runsRequest_of_unread : ∀ row ∈ [Instr.unknownRequest, .offer, .benchStart, .benchDrain, .restart, .profileGet,
    .profileStore, .lockShift], RunsRequest row 0 := by
  simp only [List.forall_mem_cons, List.not_mem_nil, false_imp_iff, implies_true, and_true]
  exact ⟨runsRequest_zero fun _ => rfl, runsRequest_zero fun _ => rfl, runsRequest_zero fun _ => rfl,
    runsRequest_zero fun _ => rfl, runsRequest_zero fun _ => rfl, runsRequest_zero fun _ => rfl,
    runsRequest_zero fun _ => rfl, runsRequest_zero fun _ => rfl⟩

theorem runsRequest_of_mem : ∀ row ∈ requestRows, ∃ n, RunsRequest row n := by
  have fields := runsRequest_of_fields
  have unread := runsRequest_of_unread
  simp only [requestRows, List.forall_mem_cons, List.not_mem_nil, false_imp_iff, implies_true, and_true] at fields unread ⊢
  obtain ⟨x1, x2, x3, x4, x5, x6, x7, x8, x9, x10, x11, x12, x13, x14, x15, x16⟩ := fields
  obtain ⟨y1, y2, y3, y4, y5, y6, y7, y8⟩ := unread
  exact ⟨⟨_, y1⟩, ⟨_, y2⟩, ⟨_, x1⟩, ⟨_, x2⟩, ⟨_, x3⟩, ⟨_, x4⟩, ⟨_, x5⟩, ⟨_, x6⟩, ⟨_, x7⟩, ⟨_, x8⟩, ⟨_, x9⟩, ⟨_, x10⟩,
    ⟨_, x11⟩, ⟨_, y3⟩, ⟨_, y4⟩, ⟨_, y5⟩, ⟨_, x12⟩, ⟨_, y6⟩, ⟨_, y7⟩, ⟨_, y8⟩, ⟨_, x13⟩, ⟨_, x14⟩, ⟨_, x15⟩, ⟨_, x16⟩⟩

/-! ## A request that is executed, and one that is not -/

/-- A request whose body has been read is given to its owner. -/
theorem live_runRequest {α : Type} {row : Instr} {r : Request} {s : State} (h : s.canRun row r)
    (mode : refusedInStarting row = false ∨ s.bench.mode ≠ .starting) {read : State → List Byte → Option α}
    {owner : Request → α → State → State} {a : α} (e : read (popRequest s) r.body = some a) :
    live (runRequest row read owner) s = .next (owner r a (popRequest s)) := by
  rw [live_of_off h.1, runRequest_read h mode e]

theorem RunsRequest.waits {row : Instr} {n : Nat} {s : State} (runs : RunsRequest row n) (h : ∀ r, ¬ s.canRun row r) :
    exec row s = .next s := by
  obtain ⟨α, read, owner, runs, -⟩ := runs
  rw [runs]
  by_cases on : s.inputs.reset = true
  · exact live_of_on on _
  · have off : s.inputs.reset = false := by simpa using on
    rw [live_of_off off, runRequest, frontRequest_eq_none h off]

theorem RunsRequest.refused {row : Instr} {n : Nat} {s : State} {r : Request} (runs : RunsRequest row n)
    (h : s.canRun row r) (mode : s.bench.mode = .starting) (row' : refusedInStarting row = true) :
    exec row s = .next (answer r .mode (popRequest s)) := by
  obtain ⟨α, read, owner, runs, -⟩ := runs
  rw [runs, live_of_off h.1, runRequest_of_canRun h, if_pos ⟨mode, row'⟩]

theorem RunsRequest.short {row : Instr} {n : Nat} {s : State} {r : Request} (runs : RunsRequest row n)
    (h : s.canRun row r) (mode : s.bench.mode = .starting → refusedInStarting row = false) (len : r.body.length < n) :
    exec row s = .next (answer r .format (popRequest s)) := by
  obtain ⟨α, read, owner, runs, short⟩ := runs
  rw [runs, live_of_off h.1, runRequest_of_canRun h, short _ r h.2.2.2.2.2 len, if_neg]
  rintro ⟨m, refused⟩
  rw [mode m] at refused
  cases refused

/-! ## The row of a request, and the kind of its reply -/

theorem rowOf_of_kind {r : Request} : ∀ x ∈ [(0x01, Instr.offer), (0x02, .recall), (0x03, .wallAdd), (0x04, .wallUrge),
    (0x05, .wallWindow), (0x06, .wallShut), (0x07, .wallRebase), (0x08, .wallRelease), (0x09, .posOpen),
    (0x0A, .posClose), (0x0B, .posOpenOrder), (0x0C, .posCloseOrder), (0x0D, .benchStart), (0x0E, .benchDrain),
    (0x0F, .restart), (0x10, .profileSet), (0x11, .profileGet), (0x12, .profileStore), (0x13, .lockShift)],
    r.kind.toNat = x.1 → rowOf r = x.2 := by
  simp only [List.forall_mem_cons, List.not_mem_nil, false_imp_iff, implies_true, and_true]
  unfold rowOf
  refine ⟨?_, ?_, ?_, ?_, ?_, ?_, ?_, ?_, ?_, ?_, ?_, ?_, ?_, ?_, ?_, ?_, ?_, ?_, ?_⟩ <;> (intro e; simp only [e])

theorem rowOf_query {r : Request} (h : r.kind = 0x14) :
    rowOf r = match r.body with
      | [] => .queryBench
      | f :: _ =>
        if f = 1 then .queryPosition else if f = 2 then .queryOffer else if f = 3 then .queryOrder else .queryBench := by
  unfold rowOf
  rw [h]
  rfl

theorem rowOf_unknown {r : Request} (h : r.kind.toNat = 0 ∨ 0x14 < r.kind.toNat) : rowOf r = .unknownRequest := by
  unfold rowOf
  split
  case h_21 => rfl
  all_goals omega

theorem replyKind_toNat {k : Byte} (h : k.toNat < 0x80) : (replyKind k).toNat = k.toNat + 0x80 := by
  rw [replyKind, if_pos h, BitVec.toNat_add]
  exact Nat.mod_eq_of_lt (by simpa using (by omega : k.toNat + 128 < 256))

/-- Settles O33. -/
theorem requestsWaitOrAreTurnedAway : Obligations.RequestsWaitOrAreTurnedAway := by
  unfold Obligations.RequestsWaitOrAreTurnedAway
  refine ⟨⟨fun s row mem waits => ?_, ⟨fun s r row mem h mode => ?_, fun s r h => ?_⟩, fun s r row n mem h mode len => ?_⟩,
    fun tag k body => ⟨fun n i mem e => ?_, fun e rest => ?_, fun e => ?_⟩, fun k h => replyKind_toNat h⟩
  · obtain ⟨n, runs⟩ := runsRequest_of_mem row mem
    exact runs.waits waits
  · have six : ∀ row ∈ [Instr.recall, .wallUrge, .wallWindow, .wallShut, .wallRebase, .benchDrain],
        row ∈ requestRows ∧ refusedInStarting row = true := by decide
    obtain ⟨n, runs⟩ := runsRequest_of_mem row (six row mem).1
    exact runs.refused h mode (six row mem).2
  · exact live_runRequest h (.inl rfl) rfl
  · exact (runsRequest_of_fields (row, n) mem).short h mode len
  · exact rowOf_of_kind (n, i) mem e
  · have row := rowOf_query (r := { tag := tag, kind := k, body := body }) e
    refine ⟨fun b => ?_, fun b => ?_, fun b => ?_, fun b => ?_⟩
    · rw [row, b]; rfl
    · rw [row, b]; rfl
    · rw [row, b]; rfl
    · rw [row]
      cases body with
      | nil => rfl
      | cons f rest =>
        have one := b 1 (by decide)
        have two := b 2 (by decide)
        have three := b 3 (by decide)
        simp only [List.head?_cons, ne_eq, Option.some.injEq] at one two three
        simp only [if_neg one, if_neg two, if_neg three]
  · exact rowOf_unknown (e.imp (congrArg BitVec.toNat) id)

end Sys2Proof.Machine

namespace Sys2Proof.Machine

/-!
The offer store (chapter 01): the checks of an OFFER in their order with the record made, and RECALL by the state of the
offer.
-/

/-! ## The lines of an OFFER -/

theorem firstBad_eq_none {test : OfferLine → Bool} {bad : OfferLine → Prop} (h : ∀ l, test l = true ↔ bad l)
    (ls : List OfferLine) : firstBad test ls = none ↔ ∀ l ∈ ls, ¬ bad l := by
  rw [firstBad, List.findIdx?_eq_none_iff]
  exact forall₂_congr fun l _ => by rw [← h l, Bool.not_eq_true]

/-- Line `i` is the first that fails a check. -/
def IsFirst (bad : OfferLine → Prop) (ls : List OfferLine) (i : Nat) : Prop :=
  (∃ l, ls[i]? = some l ∧ bad l) ∧ ∀ j < i, ∀ l, ls[j]? = some l → ¬ bad l

theorem firstBad_eq_some {test : OfferLine → Bool} {bad : OfferLine → Prop} (h : ∀ l, test l = true ↔ bad l)
    {ls : List OfferLine} {i : Nat} (first : IsFirst bad ls i) : firstBad test ls = some i := by
  obtain ⟨⟨l, at', hl⟩, before⟩ := first
  obtain ⟨lt, e⟩ := List.getElem?_eq_some_iff.mp at'
  rw [firstBad, List.findIdx?_eq_some_iff_getElem]
  exact ⟨lt, (h _).mpr (e ▸ hl), fun j hj t => before j hj _ (List.getElem?_eq_getElem (hj.trans lt)) ((h _).mp t)⟩

/-- Check 7 of R9: the quantity of a line. -/
def BadQty (l : OfferLine) : Prop := l.qty = 0 ∨ 99 < l.qty

/-- Check 8 of R9: the bounds of a line. -/
def BadBounds (l : OfferLine) : Prop :=
  30000 < l.unit ∨ 30000 < l.umin ∨ 30000 < l.umax ∨ (l.umin = 0 ∧ l.umax ≠ 0) ∨ (l.umin ≠ 0 ∧ l.umax = 0) ∨
    l.umax < l.umin

theorem badRef_iff (l : OfferLine) : (l.ref == 0) = true ↔ l.ref = 0 := beq_iff_eq

theorem badQty_iff (l : OfferLine) : (l.qty == 0 || decide (99 < l.qty)) = true ↔ BadQty l := by simp [BadQty]

theorem badVolume_iff (l : OfferLine) : decide (250 < l.volume) = true ↔ 250 < l.volume := decide_eq_true_iff

theorem badBounds_iff (l : OfferLine) : badBounds l = true ↔ BadBounds l := by
  have differ : (((l.umin == 0) != (l.umax == 0)) = true) ↔ (l.umin = 0 ∧ l.umax ≠ 0) ∨ (l.umin ≠ 0 ∧ l.umax = 0) := by
    by_cases a : l.umin = 0 <;> by_cases b : l.umax = 0 <;> simp [a, b]
  simp only [badBounds, BadBounds, Bool.or_eq_true, decide_eq_true_eq, differ, or_assoc]

/-! ## The class -/

theorem tempOfCode_eq_none {n : Nat} (h : 2 < n) : tempOfCode n = none := by
  rw [tempOfCode, if_neg (by omega), if_neg (by omega), if_neg (by omega)]

theorem exists_tempOfCode {n : Nat} (h : n ≤ 2) : ∃ t, tempOfCode n = some t := by
  have : n = 0 ∨ n = 1 ∨ n = 2 := by omega
  rcases this with rfl | rfl | rfl <;> exact ⟨_, rfl⟩

theorem tempOfCode_spec {n : Nat} {t : Temp} (h : tempOfCode n = some t) :
    n ≤ 2 ∧ (t = .ambient ↔ n = 0) ∧ (t = .frozen ↔ n = 2) := by
  unfold tempOfCode at h
  split_ifs at h with a b c <;> cases h <;> subst n <;> decide

/-! ## The stages of the judgement -/

/-- The lines of an OFFER body, as many as it announces. -/
def offerLines (bs : List Byte) : List OfferLine := (List.range (byteAt bs 9).toNat).map (offerLineAt bs)

/-- Checks 10 to 13 of R9: the tote id, the exposure, the room in the list, the orders on the wall. -/
def judgeRoom (t : Temp) (s : State) (bs : List Byte) : Except ReplyBody Offer :=
  if (findOffer (u32At bs 0) s).isSome then .error (.reject .duplicate)
  else if t.isCold ∧ clampBudget t (u16At bs 5) ≤ u16At bs 7 then .error (.reject .exposed)
  else if Config.offerCapacity ≤ s.offers.length then .error (.wait .full)
  else if (offerLines bs).all (fun l => !(wallHolds l.ref (fun _ => true) s)) then .error (.wait .noOrder)
  else .ok (makeOffer s.prof.profile t (u32At bs 0) (u16At bs 5) (u16At bs 7) (offerLines bs))

/-- Checks 7 to 9 of R9: quantities, bounds and volumes. -/
def judgeLines (t : Temp) (s : State) (bs : List Byte) : Except ReplyBody Offer :=
  match firstBad (fun l => l.qty == 0 || decide (99 < l.qty)) (offerLines bs) with
  | some i => .error (.reject (.quantity i))
  | none =>
    match firstBad badBounds (offerLines bs) with
    | some i => .error (.reject (.bounds i))
    | none =>
      match firstBad (fun l => decide (250 < l.volume)) (offerLines bs) with
      | some i => .error (.reject (.volume i))
      | none => judgeRoom t s bs

/-- Checks 5 and 6 of R9: the order refs and the class. -/
def judgeRefs (s : State) (bs : List Byte) : Except ReplyBody Offer :=
  match firstBad (fun l => l.ref == 0) (offerLines bs) with
  | some i => .error (.reject (.format (some i)))
  | none =>
    match tempOfCode (byteAt bs 4).toNat with
    | none => .error (.reject .cls)
    | some t => judgeLines t s bs

theorem judgeOffer_eq (s : State) (bs : List Byte) : judgeOffer s bs =
    if s.bench.mode ≠ .service then .error (.wait .mode)
    else if bs.length < 10 then .error (.reject (.format none))
    else if (byteAt bs 9).toNat = 0 ∨ 8 < (byteAt bs 9).toNat then .error (.reject .lines)
    else if bs.length < 10 + 12 * (byteAt bs 9).toNat then .error (.reject (.format none))
    else if u32At bs 0 = 0 then .error (.reject (.format none))
    else judgeRefs s bs := rfl

/-- Checks 1 to 4 of R9: the mode, and the lengths of the body and of the list of lines. -/
structure Framed (s : State) (bs : List Byte) : Prop where
  service : s.bench.mode = .service
  head : 10 ≤ bs.length
  some : 1 ≤ (byteAt bs 9).toNat
  few : (byteAt bs 9).toNat ≤ 8
  whole : 10 + 12 * (byteAt bs 9).toNat ≤ bs.length

/-- Checks 10 to 13 of R9 passed. -/
structure Admitted (t : Temp) (s : State) (bs : List Byte) : Prop where
  fresh : ∀ x ∈ s.offers, x.tote ≠ u32At bs 0
  unspent : t ≠ .ambient → u16At bs 7 < clampBudget t (u16At bs 5)
  room : s.offers.length < 32
  wanted : ∃ l ∈ offerLines bs, ∃ (q : Fin 12) (x : Rec), s.wall.pos[q].record = some x ∧ x.ref = l.ref ∧
    (s.wall.pos[q].state = .expected ∨ s.wall.pos[q].state = .arrived ∨ s.wall.pos[q].state = .active)

/-- Checks 7 to 9 of R9 passed. -/
structure LinesGood (bs : List Byte) : Prop where
  qty : ∀ l ∈ offerLines bs, ¬ BadQty l
  bounds : ∀ l ∈ offerLines bs, ¬ BadBounds l
  volume : ∀ l ∈ offerLines bs, ¬ 250 < l.volume

theorem judgeOffer_framed {s : State} {bs : List Byte} (h : Framed s bs) :
    judgeOffer s bs = if u32At bs 0 = 0 then .error (.reject (.format none)) else judgeRefs s bs := by
  obtain ⟨mode, head, some', few, whole⟩ := h
  rw [judgeOffer_eq, if_neg (not_not.mpr mode), if_neg (by omega), if_neg (by omega), if_neg (by omega)]

theorem findOffer_isSome_eq_false {s : State} {t : Nat} :
    ¬ (findOffer t s).isSome = true ↔ ∀ x ∈ s.offers, x.tote ≠ t := by
  rw [Option.not_isSome_iff_eq_none, findOffer, List.find?_eq_none]
  exact forall₂_congr fun x _ => by rw [beq_iff_eq]

theorem noOrder_iff (s : State) (ls : List OfferLine) :
    ¬ ls.all (fun l => !(wallHolds l.ref (fun _ => true) s)) = true ↔
      ∃ l ∈ ls, ∃ (q : Fin 12) (x : Rec), s.wall.pos[q].record = some x ∧ x.ref = l.ref ∧
        (s.wall.pos[q].state = .expected ∨ s.wall.pos[q].state = .arrived ∨ s.wall.pos[q].state = .active) := by
  rw [List.all_eq_true]
  push Not
  refine exists_congr fun l => and_congr_right fun _ => ?_
  rw [← wallHolds_any_iff]
  simp

theorem judgeRoom_eq_ok {t : Temp} {s : State} {bs : List Byte} {o : Offer} : judgeRoom t s bs = .ok o ↔
    Admitted t s bs ∧ makeOffer s.prof.profile t (u32At bs 0) (u16At bs 5) (u16At bs 7) (offerLines bs) = o := by
  unfold judgeRoom
  split_ifs with dup spent full orders
  · exact ⟨nofun, fun ⟨a, _⟩ => absurd dup (findOffer_isSome_eq_false.mpr a.fresh)⟩
  · exact ⟨nofun, fun ⟨a, _⟩ => absurd (a.unspent ((isCold_iff_ne t).mp spent.1)) (Nat.not_lt.mpr spent.2)⟩
  · exact ⟨nofun, fun ⟨a, _⟩ => absurd a.room (Nat.not_lt.mpr full)⟩
  · exact ⟨nofun, fun ⟨a, _⟩ => absurd orders ((noOrder_iff s _).mpr a.wanted)⟩
  · rw [Except.ok.injEq]
    exact ⟨fun e => ⟨⟨findOffer_isSome_eq_false.mp dup,
      fun cold => Nat.lt_of_not_le fun le => spent ⟨(isCold_iff_ne t).mpr cold, le⟩, Nat.lt_of_not_le full,
      (noOrder_iff s _).mp orders⟩, e⟩, fun h => h.2⟩

theorem judgeLines_good {t : Temp} {s : State} {bs : List Byte} (h : LinesGood bs) : judgeLines t s bs = judgeRoom t s bs := by
  simp only [judgeLines, (firstBad_eq_none badQty_iff _).mpr h.qty, (firstBad_eq_none badBounds_iff _).mpr h.bounds,
    (firstBad_eq_none badVolume_iff _).mpr h.volume]

theorem judgeLines_eq_ok {t : Temp} {s : State} {bs : List Byte} {o : Offer} :
    judgeLines t s bs = .ok o ↔ LinesGood bs ∧ judgeRoom t s bs = .ok o := by
  refine ⟨fun h => ?_, fun ⟨good, h⟩ => (judgeLines_good good).trans h⟩
  have good : LinesGood bs := by
    unfold judgeLines at h
    split at h
    · cases h
    next qty =>
    split at h
    · cases h
    next bounds =>
    split at h
    · cases h
    next volume =>
    exact ⟨(firstBad_eq_none badQty_iff _).mp qty, (firstBad_eq_none badBounds_iff _).mp bounds,
      (firstBad_eq_none badVolume_iff _).mp volume⟩
  exact ⟨good, judgeLines_good good ▸ h⟩

theorem judgeRefs_of_temp {s : State} {bs : List Byte} {t : Temp} (refs : ∀ l ∈ offerLines bs, l.ref ≠ 0)
    (temp : tempOfCode (byteAt bs 4).toNat = some t) : judgeRefs s bs = judgeLines t s bs := by
  simp only [judgeRefs, (firstBad_eq_none badRef_iff _).mpr refs, temp]

theorem judgeRefs_of_noTemp {s : State} {bs : List Byte} (refs : ∀ l ∈ offerLines bs, l.ref ≠ 0)
    (temp : tempOfCode (byteAt bs 4).toNat = none) : judgeRefs s bs = .error (.reject .cls) := by
  simp only [judgeRefs, (firstBad_eq_none badRef_iff _).mpr refs, temp]

theorem judgeRefs_eq_ok {s : State} {bs : List Byte} {o : Offer} : judgeRefs s bs = .ok o ↔
    (∀ l ∈ offerLines bs, l.ref ≠ 0) ∧ ∃ t, tempOfCode (byteAt bs 4).toNat = some t ∧ judgeLines t s bs = .ok o := by
  constructor
  · intro h
    unfold judgeRefs at h
    split at h
    · cases h
    next refs =>
    split at h
    · cases h
    next t temp =>
    exact ⟨(firstBad_eq_none badRef_iff _).mp refs, t, temp, h⟩
  · rintro ⟨refs, t, temp, h⟩
    exact (judgeRefs_of_temp refs temp).trans h

/-- The table of R9 read as one condition: an OFFER is accepted exactly when every check passes. -/
theorem judgeOffer_eq_ok {s : State} {bs : List Byte} {o : Offer} : judgeOffer s bs = .ok o ↔
    Framed s bs ∧ u32At bs 0 ≠ 0 ∧ (∀ l ∈ offerLines bs, l.ref ≠ 0) ∧ ∃ t, tempOfCode (byteAt bs 4).toNat = some t ∧
      LinesGood bs ∧ Admitted t s bs ∧
      makeOffer s.prof.profile t (u32At bs 0) (u16At bs 5) (u16At bs 7) (offerLines bs) = o := by
  constructor
  · intro h
    have framed : Framed s bs ∧ u32At bs 0 ≠ 0 := by
      rw [judgeOffer_eq] at h
      split_ifs at h with mode head count whole tote
      exact ⟨⟨not_not.mp mode, by omega, by omega, by omega, by omega⟩, tote⟩
    obtain ⟨framed, tote⟩ := framed
    rw [judgeOffer_framed framed, if_neg tote, judgeRefs_eq_ok] at h
    obtain ⟨refs, t, temp, h⟩ := h
    rw [judgeLines_eq_ok, judgeRoom_eq_ok] at h
    exact ⟨framed, tote, refs, t, temp, h⟩
  · rintro ⟨framed, tote, refs, t, temp, good, admitted⟩
    rw [judgeOffer_framed framed, if_neg tote, judgeRefs_eq_ok]
    exact ⟨refs, t, temp, judgeLines_eq_ok.mpr ⟨good, judgeRoom_eq_ok.mpr admitted⟩⟩

/-! ## The record made (R3, R5, R11) -/

theorem clampBudget_bounds (t : Temp) (b : Nat) : 60 ≤ clampBudget t b ∧
    clampBudget t b ≤ (if t = .frozen then 1800 else 3600) ∧
    (60 ≤ b → b ≤ (if t = .frozen then 1800 else 3600) → clampBudget t b = b) := by
  simp only [clampBudget]
  cases t <;> simp only [reduceCtorEq, if_true, if_false] <;> split_ifs <;> omega

/-- The exposure figures of a cold record just made. -/
theorem makeOffer_exposure {pr : Profile} {t : Temp} {tote budget used : Nat} {ls : List OfferLine} (cold : t ≠ .ambient)
    (unspent : used < clampBudget t budget) :
    ∃ e, (makeOffer pr t tote budget used ls).exposure = some e ∧ e.used = 10 * used ∧ e.used < 10 * e.budget ∧
      60 ≤ e.budget ∧ e.budget ≤ (if t = .frozen then 1800 else 3600) ∧
      (60 ≤ budget → budget ≤ (if t = .frozen then 1800 else 3600) → e.budget = budget) ∧
      (e.warning = true ↔ e.budget * 10 - e.used ≤ pr.warningMargin * 10) := by
  obtain ⟨low, high, same⟩ := clampBudget_bounds t budget
  refine ⟨_, if_pos ((isCold_iff_ne t).mpr cold), Nat.mul_comm .., ?_, low, high, same, decide_eq_true_iff⟩
  show used * 10 < 10 * clampBudget t budget
  omega

theorem makeOffer_lines (pr : Profile) (t : Temp) (tote budget used : Nat) (bs : List Byte) :
    (makeOffer pr t tote budget used (offerLines bs)).lines.length = (byteAt bs 9).toNat ∧
    ∀ i (h : i < (makeOffer pr t tote budget used (offerLines bs)).lines.length),
      (makeOffer pr t tote budget used (offerLines bs)).lines[i] = makeLine pr.minWeighable (offerLineAt bs i) ∧
      offerLineAt bs i ∈ offerLines bs := by
  have len : (makeOffer pr t tote budget used (offerLines bs)).lines.length = (byteAt bs 9).toNat := by
    simp [makeOffer, offerLines]
  refine ⟨len, fun i h => ⟨by simp [makeOffer, offerLines], ?_⟩⟩
  exact List.mem_map_of_mem (List.mem_range.mpr (len ▸ h))

/-! ## The rows of the table of R9 -/

theorem judgeOffer_of_refs {s : State} {bs : List Byte} (framed : Framed s bs) (tote : u32At bs 0 ≠ 0) :
    judgeOffer s bs = judgeRefs s bs := by
  rw [judgeOffer_framed framed, if_neg tote]

theorem judgeRefs_bad {s : State} {bs : List Byte} {i : Nat} (h : IsFirst (fun l => l.ref = 0) (offerLines bs) i) :
    judgeRefs s bs = .error (.reject (.format (some i))) := by
  simp only [judgeRefs, firstBad_eq_some badRef_iff h]

theorem judgeLines_badQty {t : Temp} {s : State} {bs : List Byte} {i : Nat} (h : IsFirst BadQty (offerLines bs) i) :
    judgeLines t s bs = .error (.reject (.quantity i)) := by
  simp only [judgeLines, firstBad_eq_some badQty_iff h]

theorem judgeLines_badBounds {t : Temp} {s : State} {bs : List Byte} {i : Nat}
    (qty : ∀ l ∈ offerLines bs, ¬ BadQty l) (h : IsFirst BadBounds (offerLines bs) i) :
    judgeLines t s bs = .error (.reject (.bounds i)) := by
  simp only [judgeLines, (firstBad_eq_none badQty_iff _).mpr qty, firstBad_eq_some badBounds_iff h]

theorem judgeLines_badVolume {t : Temp} {s : State} {bs : List Byte} {i : Nat}
    (qty : ∀ l ∈ offerLines bs, ¬ BadQty l) (bounds : ∀ l ∈ offerLines bs, ¬ BadBounds l)
    (h : IsFirst (fun l => 250 < l.volume) (offerLines bs) i) :
    judgeLines t s bs = .error (.reject (.volume i)) := by
  simp only [judgeLines, (firstBad_eq_none badQty_iff _).mpr qty, (firstBad_eq_none badBounds_iff _).mpr bounds,
    firstBad_eq_some badVolume_iff h]

/-- The class code of the body decides whether the offer is cold, and its greatest budget. -/
theorem clampBudget_of_code {n : Nat} {t : Temp} (h : tempOfCode n = some t) (b : Nat) :
    clampBudget t b = (let top := if n = 2 then 1800 else 3600; if b < 60 then 60 else if top < b then top else b) := by
  obtain ⟨-, -, frozen⟩ := tempOfCode_spec h
  simp only [clampBudget, frozen]

/-- Settles O35: the judgement stage by stage, and the record made from what passed. -/
theorem acceptedOfferPassedEveryCheck : Obligations.AcceptedOfferPassedEveryCheck := by
  unfold Obligations.AcceptedOfferPassedEveryCheck
  refine ⟨fun s bs o h => ?_, fun s bs => ?_⟩
  · obtain ⟨⟨mode, -, some', few, whole⟩, tote, refs, t, temp, ⟨qty, bounds, volume⟩, ⟨fresh, unspent, room, wanted⟩, rfl⟩ :=
      judgeOffer_eq_ok.mp h
    obtain ⟨len, lines⟩ := makeOffer_lines s.prof.profile t (u32At bs 0) (u16At bs 5) (u16At bs 7) bs
    refine ⟨mode, room, some', few, whole, rfl, tote, fresh, temp, fun warm => ?_,
      fun cold => makeOffer_exposure cold (unspent cold), rfl, rfl, rfl, rfl, rfl, rfl, len, fun i hi => ?_, ?_⟩
    · exact if_neg fun cold => (isCold_iff_ne t).mp cold warm
    · intro l w
      obtain ⟨e, mem⟩ := lines i hi
      have ref := refs w mem
      have q := qty w mem
      have b := bounds w mem
      have v := volume w mem
      simp only [BadQty, not_or, not_lt] at q
      simp only [BadBounds, not_or, not_lt, not_and, not_not] at b
      show l.ref = w.ref ∧ _
      rw [show l = makeLine s.prof.profile.minWeighable w from e]
      obtain ⟨unit, umin, umax, zero, -, order⟩ := b
      exact ⟨rfl, ref, rfl, Nat.one_le_iff_ne_zero.mpr q.1, q.2, rfl, Nat.le_of_not_lt v, rfl, unit, rfl, order, umax, zero,
        rfl, rfl, rfl⟩
    · obtain ⟨w, mem, q, x, record, ref, state⟩ := wanted
      exact ⟨makeLine _ w, List.mem_map_of_mem mem, q, x, record, ref, state⟩
  · intro n cls ls first qty bounds top budget p1 p2 p3 p4 p5 p6 p7 p8 p9 p10 p11 p12 p13 gives
    have framed : p4 → Framed s bs := fun ⟨⟨⟨mode, head⟩, some', few⟩, whole⟩ => ⟨mode, head, some', few, whole⟩
    have byRefs : p5 → judgeOffer s bs = judgeRefs s bs := fun ⟨h, tote, _⟩ => judgeOffer_of_refs (framed h) tote
    have byLines : p6 → ∃ t, tempOfCode cls = some t ∧ judgeOffer s bs = judgeLines t s bs := fun ⟨h, code⟩ => by
      obtain ⟨t, temp⟩ := exists_tempOfCode code
      exact ⟨t, temp, (byRefs h).trans (judgeRefs_of_temp h.2.2 temp)⟩
    have byRoom : p9 → ∃ t, tempOfCode cls = some t ∧ judgeOffer s bs = judgeRoom t s bs := fun ⟨⟨⟨h, q⟩, b⟩, v⟩ => by
      obtain ⟨t, temp, e⟩ := byLines h
      exact ⟨t, temp, e.trans (judgeLines_good ⟨q, b, fun l hl => Nat.not_lt.mpr (v l hl)⟩)⟩
    have fresh : (∀ x ∈ s.offers, x.tote ≠ u32At bs 0) → ¬ (findOffer (u32At bs 0) s).isSome = true :=
      findOffer_isSome_eq_false.mpr
    have unspent : ∀ t, tempOfCode cls = some t → (cls = 0 ∨ u16At bs 7 < budget) →
        ¬ (t.isCold = true ∧ clampBudget t (u16At bs 5) ≤ u16At bs 7) := fun t temp h => by
      rintro ⟨cold, le⟩
      rw [clampBudget_of_code temp] at le
      rcases h with zero | lt
      · exact (isCold_iff_ne t).mp cold ((tempOfCode_spec temp).2.1.mpr zero)
      · exact absurd lt (Nat.not_lt.mpr le)
    refine ⟨fun h1 => ?_, fun h1 h2 => ?_, fun h2 h3 => ?_, fun h3 h4 => ?_, fun h4 h => ?_, fun i h4 tote h => ?_,
      fun h5 h6 => ?_, fun i h6 h => ?_, fun i h7 h => ?_, fun i h8 h => ?_, fun h9 h10 => ?_, fun h10 h11 => ?_,
      fun h11 h12 => ?_, fun h12 h13 => ?_, fun h13 => ?_⟩
    · exact if_pos h1
    · exact (if_neg (not_not.mpr h1)).trans (if_pos (Nat.lt_of_not_le fun le => h2 ⟨h1, le⟩))
    · refine (if_neg (not_not.mpr h2.1)).trans ((if_neg (Nat.not_lt.mpr h2.2)).trans (if_pos ?_))
      have outside : ¬ (1 ≤ n ∧ n ≤ 8) := fun h => h3 ⟨h2, h⟩
      show n = 0 ∨ 8 < n
      omega
    · obtain ⟨⟨mode, head⟩, some', few⟩ := h3
      have count : ¬ ((byteAt bs 9).toNat = 0 ∨ 8 < (byteAt bs 9).toNat) := fun h => by
        have : 1 ≤ (byteAt bs 9).toNat := some'
        have : (byteAt bs 9).toNat ≤ 8 := few
        omega
      have short : bs.length < 10 + 12 * n := Nat.lt_of_not_le fun le => h4 ⟨⟨⟨mode, head⟩, some', few⟩, le⟩
      show judgeOffer s bs = _
      rw [judgeOffer_eq, if_neg (not_not.mpr mode), if_neg (Nat.not_lt.mpr head), if_neg count, if_pos short]
    · exact (judgeOffer_framed (framed h4)).trans (if_pos h)
    · exact (judgeOffer_of_refs (framed h4) tote).trans (judgeRefs_bad h)
    · exact (byRefs h5).trans (judgeRefs_of_noTemp h5.2.2 (tempOfCode_eq_none (Nat.lt_of_not_le fun le => h6 ⟨h5, le⟩)))
    · obtain ⟨t, -, e⟩ := byLines h6
      exact e.trans (judgeLines_badQty h)
    · obtain ⟨t, -, e⟩ := byLines h7.1
      exact e.trans (judgeLines_badBounds h7.2 h)
    · obtain ⟨t, -, e⟩ := byLines h8.1.1
      exact e.trans (judgeLines_badVolume h8.1.2 h8.2 h)
    · obtain ⟨t, -, e⟩ := byRoom h9
      exact e.trans (if_pos (not_not.mp fun no => h10 ⟨h9, findOffer_isSome_eq_false.mp no⟩))
    · obtain ⟨t, temp, e⟩ := byRoom h10.1
      have spent : ¬ (cls = 0 ∨ u16At bs 7 < budget) := fun h => h11 ⟨h10, h⟩
      rw [not_or] at spent
      refine e.trans ((if_neg (fresh h10.2)).trans (if_pos ⟨(isCold_iff_ne t).mpr fun warm =>
        spent.1 ((tempOfCode_spec temp).2.1.mp warm), ?_⟩))
      rw [clampBudget_of_code temp]
      exact Nat.le_of_not_lt spent.2
    · obtain ⟨t, temp, e⟩ := byRoom h11.1.1
      have full : 32 ≤ s.offers.length := Nat.le_of_not_lt fun lt => h12 ⟨h11, lt⟩
      exact e.trans ((if_neg (fresh h11.1.2)).trans ((if_neg (unspent t temp h11.2)).trans (if_pos full)))
    · obtain ⟨t, temp, e⟩ := byRoom h12.1.1.1
      have unwanted : (offerLines bs).all (fun l => !(wallHolds l.ref (fun _ => true) s)) = true :=
        not_not.mp fun no => h13 ⟨h12, (noOrder_iff s _).mp no⟩
      exact e.trans ((if_neg (fresh h12.1.1.2)).trans ((if_neg (unspent t temp h12.1.2)).trans
        ((if_neg (Nat.not_le.mpr h12.2)).trans (if_pos unwanted))))
    · obtain ⟨t, temp, e⟩ := byRoom h13.1.1.1.1
      obtain ⟨⟨⟨⟨h9, fresh'⟩, unspent'⟩, room⟩, wanted⟩ := h13
      exact ⟨_, e.trans ((if_neg (fresh fresh')).trans ((if_neg (unspent t temp unspent')).trans
        ((if_neg (Nat.not_le.mpr room)).trans (if_neg ((noOrder_iff s _).mpr wanted))))), rfl⟩

/-- Settles O34. -/
theorem offerIsAppendedOrAnswered : Obligations.OfferIsAppendedOrAnswered := by
  intro s r h
  have runs : exec .offer s = .next (ownOffer r r.body (popRequest s)) := live_runRequest h (.inl rfl) rfl
  refine ⟨fun o e => ?_, fun b e => ?_⟩
  · simp only [runs, ownOffer, e, acceptReply, appendOffer]
    rfl
  · simp only [runs, ownOffer, e]

/-- Settles O36: the rows of R15. -/
theorem recallActsByOfferState : Obligations.RecallActsByOfferState := by
  intro s r t h mode body u
  have runs : exec .recall s = .next (ownRecall r t u) := live_runRequest h (.inr mode) body
  have same : findOffer t u = findOffer t s := rfl
  refine ⟨fun gone => ?_, fun o found => ?_⟩
  · simp only [runs, ownRecall, same, gone]
  refine ⟨fun st => ?_, fun p sl st place => ?_, fun p st place => ?_, fun p st place => ?_, fun p st place unlit => ?_,
    fun p c st place cycle src => ?_, fun st => ?_⟩
  · simp only [runs, ownRecall, same, found, st]
  · simp only [runs, ownRecall, same, found, st, place, divertCall]
  · simp only [runs, ownRecall, same, found, st, place]
  · simp only [runs, ownRecall, same, found, st, place]
  · have dark : isLitSource p u = false := isLitSource_eq_false.mpr unlit
    simp only [runs, ownRecall, same, found, st, place, dark, Bool.false_eq_true, if_false]
  · have lit : isLitSource p u = true := by simp [isLitSource, u, popRequest, cycle, src]
    simp only [runs, ownRecall, same, found, st, place, lit, if_true]
  · simp only [runs, ownRecall, same, found, st]

end Sys2Proof.Machine

namespace Sys2Proof.Machine

/-!
The wall manager's WALL-ADD and WALL-URGE (sections 4.4 and 4.5): the checks of WALL-ADD, the record it makes, and the
urgent flag of the records of an order.
-/

/-! ## Position numbers, and the records on the wall -/

theorem ordIndex_of_le {n : Nat} (h : 12 ≤ n) : ordIndex n = none := dif_neg (Nat.not_lt.mpr h)

@[simp] theorem ordIndex_val (q : Fin 12) : ordIndex q.val = some q := dif_pos q.isLt

theorem srcIndex_of_le {n : Nat} (h : 4 ≤ n) : srcIndex n = none := dif_neg (Nat.not_lt.mpr h)

@[simp] theorem srcIndex_val (p : Fin 4) : srcIndex p.val = some p := dif_pos p.isLt

theorem mem_allRecords {s : State} {x : Rec} : x ∈ allRecords s ↔ ∃ q : Fin 12, s.wall.pos[q].record = some x := by
  unfold allRecords
  rw [List.mem_filterMap]
  exact ⟨fun ⟨q, _, h⟩ => ⟨q, h⟩, fun ⟨q, h⟩ => ⟨q, mem_ordIndices q, h⟩⟩

/-! ## The checks of WALL-ADD (R64) -/

theorem badWindow_any_iff (ws : List WindowField) : ¬ ws.any badWindow = true ↔ ∀ w ∈ ws, w.side ≤ 1 ∧ w.invert ≤ 1 := by
  simp only [List.any_eq_true, badWindow, Bool.or_eq_true, decide_eq_true_eq, not_exists, not_and, not_or, not_lt]

theorem duplicate_any_iff (t : Nat) (s : State) : ¬ ((allRecords s).any fun r => r.tote == t) = true ↔
    ∀ (q : Fin 12) (r : Rec), s.wall.pos[q].record = some r → r.tote ≠ t := by
  rw [List.any_eq_true]
  push Not
  exact ⟨fun h q r e => by simpa using h r (mem_allRecords.mpr ⟨q, e⟩),
    fun h r mem => by obtain ⟨q, e⟩ := mem_allRecords.mp mem; simpa using h q r e⟩

/-- The checks of R64 from the second on, for the order position that the number names. -/
structure Placed (f : WallAddFields) (q : Fin 12) (s : State) : Prop where
  ids : f.ref ≠ 0 ∧ f.tote ≠ 0
  windows : ∀ w ∈ f.windows, w.side ≤ 1 ∧ w.invert ≤ 1
  usable : s.wall.pos[q].state ≠ .closed ∧ s.wall.pos[q].state ≠ .faulted ∧ f.pos < s.prof.profile.orderCount
  free : s.wall.pos[q].state = .empty ∨ s.wall.pos[q].state = .occupied
  fresh : ∀ (q' : Fin 12) (r : Rec), s.wall.pos[q'].record = some r → r.tote ≠ f.tote
  few : (allRecords s).countP (fun r => r.ref == f.ref) ≤ 1
  read : s.wall.pos[q].state = .occupied → s.wall.pos[q].idRead = some f.tote

theorem judgeWallAdd_at {f : WallAddFields} {q : Fin 12} (h : f.pos = q.val) (s : State) : judgeWallAdd f s =
    if f.ref = 0 ∨ f.tote = 0 then .error .format
    else if f.windows.any badWindow then .error .range
    else if s.wall.pos[q].state = .closed ∨ s.wall.pos[q].state = .faulted ∨ s.prof.profile.orderCount ≤ f.pos then
      .error (.reject .position)
    else if s.wall.pos[q].state ≠ .empty ∧ s.wall.pos[q].state ≠ .occupied then .error .busy
    else if (allRecords s).any fun r => r.tote == f.tote then .error (.reject .duplicate)
    else if 2 ≤ (allRecords s).countP fun r => r.ref == f.ref then .error (.reject .limit)
    else if s.wall.pos[q].state = .occupied ∧ s.wall.pos[q].idRead ≠ some f.tote then .error (.reject .mismatch)
    else .ok q := by
  unfold judgeWallAdd
  simp only [h, ordIndex_val]

theorem judgeWallAdd_eq_ok {f : WallAddFields} {s : State} {q : Fin 12} (h : judgeWallAdd f s = .ok q) :
    f.pos = q.val ∧ Placed f q s := by
  by_cases lt : f.pos < 12
  · have at' : f.pos = (⟨f.pos, lt⟩ : Fin 12).val := rfl
    generalize (⟨f.pos, lt⟩ : Fin 12) = q' at at'
    rw [judgeWallAdd_at at'] at h
    split_ifs at h with ids windows usable free fresh few read
    cases h
    refine ⟨at', not_or.mp ids, (badWindow_any_iff _).mp windows, ?_, ?_, (duplicate_any_iff _ _).mp fresh,
      Nat.le_of_lt_succ (Nat.lt_of_not_le few), fun occ => not_not.mp fun ne => read ⟨occ, ne⟩⟩
    · simpa only [not_or, not_le] using usable
    · rwa [not_and_or, not_not, not_not] at free
  · rw [judgeWallAdd, ordIndex_of_le (Nat.le_of_not_lt lt)] at h
    cases h

/-- Settles O38. -/
theorem registeredToteIsNewAndPlaced : Obligations.RegisteredToteIsNewAndPlaced := by
  unfold Obligations.RegisteredToteIsNewAndPlaced
  refine ⟨fun f s q h => ?_, fun f s => ⟨fun far => ?_, fun q at' => ?_⟩⟩
  · obtain ⟨at', ⟨⟨ref, tote⟩, windows, -, free, fresh, few, read⟩⟩ := judgeWallAdd_eq_ok h
    exact ⟨at', ref, tote, windows, free.imp id fun occ => ⟨occ, read occ⟩, fresh, few⟩
  · show judgeWallAdd f s = _
    rw [judgeWallAdd, ordIndex_of_le far]
  · intro x p2 p3 p4 p5 p6 p7 p8
    have table := judgeWallAdd_at at' s
    have n2 : p2 → ¬ (f.ref = 0 ∨ f.tote = 0) := fun ⟨a, b⟩ => not_or.mpr ⟨a, b⟩
    have n3 : p3 → ¬ f.windows.any badWindow = true := fun h => (badWindow_any_iff _).mpr h.2
    have n4 : p4 → ¬ (s.wall.pos[q].state = .closed ∨ s.wall.pos[q].state = .faulted ∨
        s.prof.profile.orderCount ≤ f.pos) := fun ⟨_, a, b, c⟩ => not_or.mpr ⟨a, not_or.mpr ⟨b, Nat.not_le.mpr c⟩⟩
    have n5 : p5 → ¬ (s.wall.pos[q].state ≠ .empty ∧ s.wall.pos[q].state ≠ .occupied) := fun ⟨_, h⟩ ⟨a, b⟩ => h.elim a b
    have n6 : p6 → ¬ ((allRecords s).any fun r => r.tote == f.tote) = true := fun h => (duplicate_any_iff _ _).mpr h.2
    have n7 : p7 → ¬ 2 ≤ (allRecords s).countP fun r => r.ref == f.ref := fun h => Nat.not_le.mpr (Nat.lt_succ_of_le h.2)
    refine ⟨fun h => ?_, fun h2 h3 => ?_, fun h3 h4 => ?_, fun h4 h5 => ?_, fun h5 h6 => ?_, fun h6 h7 => ?_,
      fun h7 h8 => ?_, fun h8 => ?_⟩
    · refine table.trans (if_pos ?_)
      rwa [← not_not (a := f.ref = 0 ∨ f.tote = 0), not_or]
    · exact table.trans ((if_neg (n2 h2)).trans (if_pos (not_not.mp fun no => h3 ⟨h2, (badWindow_any_iff _).mp no⟩)))
    · refine table.trans ((if_neg (n2 h3.1)).trans ((if_neg (n3 h3)).trans (if_pos (not_not.mp fun no => h4 ⟨h3, ?_⟩))))
      simpa only [not_or, not_le] using no
    · refine table.trans ((if_neg (n2 h4.1.1)).trans ((if_neg (n3 h4.1)).trans ((if_neg (n4 h4)).trans (if_pos ?_))))
      exact not_or.mp fun h => h5 ⟨h4, h⟩
    · refine table.trans ((if_neg (n2 h5.1.1.1)).trans ((if_neg (n3 h5.1.1)).trans ((if_neg (n4 h5.1)).trans
        ((if_neg (n5 h5)).trans (if_pos (not_not.mp fun no => h6 ⟨h5, (duplicate_any_iff _ _).mp no⟩))))))
    · refine table.trans ((if_neg (n2 h6.1.1.1.1)).trans ((if_neg (n3 h6.1.1.1)).trans ((if_neg (n4 h6.1.1)).trans
        ((if_neg (n5 h6.1)).trans ((if_neg (n6 h6)).trans (if_pos (Nat.lt_of_not_le fun le => h7 ⟨h6, le⟩)))))))
    · refine table.trans ((if_neg (n2 h7.1.1.1.1.1)).trans ((if_neg (n3 h7.1.1.1.1)).trans ((if_neg (n4 h7.1.1.1)).trans
        ((if_neg (n5 h7.1.1)).trans ((if_neg (n6 h7.1)).trans ((if_neg (n7 h7)).trans (if_pos ?_)))))))
      exact Classical.not_imp.mp fun h => h8 ⟨h7, h⟩
    · obtain ⟨h7, read⟩ := h8
      refine table.trans ((if_neg (n2 h7.1.1.1.1.1)).trans ((if_neg (n3 h7.1.1.1.1)).trans ((if_neg (n4 h7.1.1.1)).trans
        ((if_neg (n5 h7.1.1)).trans ((if_neg (n6 h7.1)).trans ((if_neg (n7 h7)).trans (if_neg ?_)))))))
      exact fun ⟨occ, ne⟩ => ne (read occ)

/-! ## The record a WALL-ADD makes (R62, R65) -/

theorem registered_of_empty {x : OrdPos} (h : x.state = .empty) (r : Rec) (pr : Profile) (cs : List (Nat × Nat)) :
    registered x r pr cs = { x with state := .expected, record := some r } := by
  simp only [registered, h]

theorem registered_of_weight {x : OrdPos} {g : Nat} (h : x.state = .occupied) (latest : x.latest = some (.grams g))
    (r : Rec) (pr : Profile) (cs : List (Nat × Nat)) : registered x r pr cs =
      { x with state := .active, idRead := none,
               record := some { r with comps := recoveredComps pr cs, baseline := some g } } := by
  simp only [registered, h, latest]

theorem registered_of_noWeight {x : OrdPos} (h : x.state = .occupied) (latest : ∀ g, x.latest ≠ some (.grams g))
    (r : Rec) (pr : Profile) (cs : List (Nat × Nat)) : registered x r pr cs =
      { x with state := .arrived, idRead := none, record := some { r with comps := recoveredComps pr cs } } := by
  cases e : x.latest with
  | none => simp only [registered, h, e]
  | some weight =>
    cases weight with
    | grams g => exact absurd e (latest g)
    | overload => simp only [registered, h, e]

theorem recoveredComps_spec (pr : Profile) (cs : List (Nat × Nat)) :
    (recoveredComps pr cs).length = pr.compartments ∧ (∀ c ∈ recoveredComps pr cs, c.shut = false) ∧
    ∀ j, j < pr.compartments → (recoveredComps pr cs)[j]? = some (match cs[j]? with
      | none => {}
      | some c => { weight := min c.1 pr.weightCap, volume := min c.2 pr.volumeCap }) := by
  refine ⟨by simp [recoveredComps], fun c hc => ?_, fun j hj => ?_⟩
  · obtain ⟨j, -, rfl⟩ := List.mem_map.mp hc
    cases e : cs[j]? <;> rfl
  · refine (List.getElem?_map ..).trans ((congrArg _ (List.getElem?_range hj)).trans (congrArg some ?_))
    beta_reduce
    cases e : cs[j]? <;> rfl

/-- The compartments of a record just made: as many as the profile has, empty and not shut. -/
theorem makeRecord_comps (pr : Profile) (seq : Nat) (f : WallAddFields) :
    (makeRecord pr seq f).comps.length = pr.compartments ∧
    ∀ c ∈ (makeRecord pr seq f).comps, c.shut = false ∧ c.weight = 0 ∧ c.volume = 0 := by
  refine ⟨by simp [makeRecord], fun c hc => ?_⟩
  obtain ⟨j, -, rfl⟩ := List.mem_map.mp hc
  exact ⟨rfl, rfl, rfl⟩

/-- The items of the record that do not hang on the state of its position. -/
theorem exists_registered {x : OrdPos} (h : x.state = .empty ∨ x.state = .occupied) (pr : Profile) (seq : Nat)
    (f : WallAddFields) : ∃ rec : Rec, (registered x (makeRecord pr seq f) pr f.charges).record = some rec ∧
      (∃ (comps : List Comp) (b : Option Nat), rec = { makeRecord pr seq f with comps := comps, baseline := b }) ∧
      rec.comps.length = pr.compartments ∧ (∀ c ∈ rec.comps, c.shut = false) ∧
      (x.state = .empty → (registered x (makeRecord pr seq f) pr f.charges).state = .expected ∧ rec.baseline = none ∧
        ∀ c ∈ rec.comps, c.weight = 0 ∧ c.volume = 0) ∧
      (x.state = .occupied → (registered x (makeRecord pr seq f) pr f.charges).idRead = none ∧
        (∀ g, x.latest = some (.grams g) →
          (registered x (makeRecord pr seq f) pr f.charges).state = .active ∧ rec.baseline = some g) ∧
        ((∀ g, x.latest ≠ some (.grams g)) →
          (registered x (makeRecord pr seq f) pr f.charges).state = .arrived ∧ rec.baseline = none) ∧
        ∀ j, j < pr.compartments → rec.comps[j]? = some (match f.charges[j]? with
          | none => {}
          | some c => { weight := min c.1 pr.weightCap, volume := min c.2 pr.volumeCap })) := by
  obtain ⟨fullLen, open', charges⟩ := recoveredComps_spec pr f.charges
  rcases h with empty | occ
  · obtain ⟨len, fresh⟩ := makeRecord_comps pr seq f
    rw [registered_of_empty empty]
    exact ⟨_, rfl, ⟨_, none, rfl⟩, len, fun c hc => (fresh c hc).1, fun _ => ⟨rfl, rfl, fun c hc => (fresh c hc).2⟩,
      fun occ => absurd (empty.symm.trans occ) (by decide)⟩
  · by_cases weighed : ∃ g, x.latest = some (.grams g)
    · obtain ⟨g, latest⟩ := weighed
      rw [registered_of_weight occ latest]
      refine ⟨_, rfl, ⟨_, some g, rfl⟩, fullLen, open', fun empty => absurd (empty.symm.trans occ) (by decide), fun _ =>
        ⟨rfl, fun g' e => ⟨rfl, ?_⟩, fun no => absurd latest (no g), charges⟩⟩
      rw [latest] at e
      cases e
      rfl
    · have no : ∀ g, x.latest ≠ some (.grams g) := fun g e => weighed ⟨g, e⟩
      rw [registered_of_noWeight occ no]
      exact ⟨_, rfl, ⟨_, none, rfl⟩, fullLen, open', fun empty => absurd (empty.symm.trans occ) (by decide), fun _ =>
        ⟨rfl, fun g e => absurd e (no g), fun _ => ⟨rfl, rfl⟩, charges⟩⟩

/-- Whether WALL-ADD is answered CLAMPED. -/
theorem clamped_iff (pr : Profile) (x : OrdPos) (f : WallAddFields) :
    ((f.windows.any fun w => decide (pr.compartments < w.count)) ||
      (x.state == .occupied && chargeClamped pr f.charges)) = true ↔
    (∃ v ∈ f.windows, pr.compartments < v.count) ∨ x.state = .occupied ∧
      ∃ c ∈ f.charges.take pr.compartments, pr.weightCap < c.1 ∨ pr.volumeCap < c.2 := by
  simp only [chargeClamped, Bool.or_eq_true, Bool.and_eq_true, List.any_eq_true, decide_eq_true_eq, beq_iff_eq]

theorem ownWallAdd_ok {r : Request} {f : WallAddFields} {s : State} {q : Fin 12} (h : judgeWallAdd f s = .ok q) :
    ownWallAdd r f s =
      let pr := s.prof.profile
      let seq := nextRegistration s.wall.counter
      let x := registered s.wall.pos[q] (makeRecord pr seq f) pr f.charges
      let content := Content.added seq x.state (makeRecord pr seq f).windows
      recordEntered (answer r
        (if ((f.windows.any fun w => decide (pr.compartments < w.count)) ||
          (s.wall.pos[q].state == .occupied && chargeClamped pr f.charges)) = true then .clamped content else .ok content)
        (notifyWall q (.added x.state) (modOrd q (fun _ => x) (setCounter seq s)))) := by
  simp only [ownWallAdd, h]

/-- Settles O37. -/
theorem wallAddRegistersOrAnswers : Obligations.WallAddRegistersOrAnswers := by
  unfold Obligations.WallAddRegistersOrAnswers
  refine ⟨fun s r f h body => ?_, fun s => ⟨rfl, rfl⟩⟩
  have runs : exec .wallAdd s = .next (ownWallAdd r f (popRequest s)) := live_runRequest h (.inl rfl) body
  refine ⟨fun b e => ?_, fun q ok => ?_⟩
  · simp only [runs, ownWallAdd, e]
  · intro pr seq w
    obtain ⟨-, placed⟩ := judgeWallAdd_eq_ok ok
    obtain ⟨rec, hrec, ⟨comps, b, shape⟩, len, unshut, empty, occupied⟩ := exists_registered placed.free pr seq f
    refine ⟨_, rec, hrec, ?_⟩
    have windows : rec.windows = (makeRecord pr seq f).windows := by rw [shape]
    refine ⟨by rw [shape]; rfl, by rw [shape]; rfl, by rw [shape]; rfl, by rw [shape]; rfl, by rw [shape]; rfl,
      by rw [shape]; rfl, by rw [shape]; rfl, windows, by rw [shape]; rfl, by rw [shape]; rfl, by rw [shape]; rfl, len,
      unshut, empty, occupied, _, fun yes => ?_, fun no => ?_, runs.trans (congrArg Host.Outcome.next (ownWallAdd_ok ok))⟩
    · rw [windows]
      exact if_pos ((clamped_iff pr s.wall.pos[q] f).mpr yes)
    · rw [windows]
      exact if_neg fun yes => no ((clamped_iff pr s.wall.pos[q] f).mp yes)

/-! ## WALL-URGE (R66) -/

/-- The records of an order with the urgent flag set. -/
def urge (ref : Nat) (u : Bool) (x : OrdPos) : OrdPos :=
  { x with record := x.record.map fun r => if r.ref = ref then { r with urgent := u } else r }

theorem setUrgent_eq_foldl (ref : Nat) (u : Bool) (s : State) :
    setUrgent ref u s = ordIndices.foldl (fun s q => modOrd q (urge ref u) s) s := rfl

theorem urged_iff (ref : Nat) (u : Bool) (s : State) :
    ((allRecords s).any fun x => x.ref == ref && x.urgent != u) = true ↔ ∃ x ∈ allRecords s, x.ref = ref ∧ x.urgent ≠ u := by
  simp only [List.any_eq_true, Bool.and_eq_true, beq_iff_eq, bne_iff_ne]

/-- Settles O39. -/
theorem wallUrgeSetsEveryRecord : Obligations.WallUrgeSetsEveryRecord := by
  unfold Obligations.WallUrgeSetsEveryRecord
  intro s r ref b h mode body n u
  have runs : exec .wallUrge s = .next (ownWallUrge r (ref, b) (popRequest s)) := live_runRequest h (.inr mode) body
  have same : allRecords (popRequest s) = allRecords s := rfl
  have found : n ≠ 0 → ownWallUrge r (ref, b) (popRequest s) =
      if ((allRecords s).any fun x => x.ref == ref && x.urgent != flagOf b) = true then arbitrate u else u := fun some' => if_neg some'
  obtain ⟨-, -, offers, -, src, counter, put, -, -, -, lines, -⟩ :=
    foldl_modOrd_frame (urge ref (flagOf b)) ordIndices (popRequest s)
  refine ⟨fun zero => runs.trans (congrArg Host.Outcome.next (if_pos zero)), fun some' changed => ?_, fun some' same' => ?_,
    fun q => forall_modOrd (urge ref (flagOf b)) (popRequest s) q, src, offers, lines, put, counter, rfl, rfl⟩
  · rw [runs, found some', if_pos ((urged_iff ref (flagOf b) s).mpr changed)]
  · rw [runs, found some', if_neg fun yes => ?_]
    obtain ⟨x, mem, ref', ne⟩ := (urged_iff ref (flagOf b) s).mp yes
    exact ne (same' x mem ref')

end Sys2Proof.Machine

namespace Sys2Proof.Machine

/-!
The wall manager's other requests: WALL-WINDOW, WALL-SHUT, WALL-REBASE and WALL-RELEASE (R67, R71 to R73), and the opening
and closing of an order position (R76).
-/

/-! ## WALL-WINDOW and WALL-SHUT -/

theorem badWindow_iff (w : WindowField) : badWindow w = true ↔ 1 < w.side ∨ 1 < w.invert := by
  rw [badWindow, Bool.or_eq_true, decide_eq_true_eq, decide_eq_true_eq]

theorem ownWallWindow_range {r : Request} {n c : Nat} {w : WindowField} {s : State}
    (h : 12 ≤ n ∨ 2 < c ∨ 1 < w.side ∨ 1 < w.invert) : ownWallWindow r (n, c, w) s = answer r .range s := by
  unfold ownWallWindow
  split
  · next q t ord temp =>
    have near : ¬ 12 ≤ n := fun far => by rw [ordIndex_of_le far] at ord; cases ord
    have class' : ¬ 2 < c := fun far => by rw [tempOfCode_eq_none far] at temp; cases temp
    exact if_pos ((badWindow_iff w).mpr ((h.resolve_left near).resolve_left class'))
  · rfl

/-- A WALL-WINDOW whose values are good, for a position that exists. -/
theorem ownWallWindow_at {r : Request} {c : Nat} {w : WindowField} {q : Fin 12} {t : Temp} (temp : tempOfCode c = some t)
    (side : w.side ≤ 1) (invert : w.invert ≤ 1) (s : State) :
    (s.wall.pos[q].record = none → ownWallWindow r (q.val, c, w) s = answer r (.reject .position) s) ∧
    ∀ x, s.wall.pos[q].record = some x → ownWallWindow r (q.val, c, w) s =
      if s.wall.pos[q].state.holds = false then answer r (.reject .position) s
      else if cycleServes q t s then answer r .busy s
      else
        wallChanged (answer r
          (if x.count < w.count then .clamped (.window (storeWindow x.count w)) else .ok (.window (storeWindow x.count w)))
          (modRec q (fun y => { y with windows := y.windows.set t (storeWindow x.count w), full := y.full.set t false }) s)) := by
  have good : ¬ badWindow w = true := fun bad => by
    have := (badWindow_iff w).mp bad
    omega
  refine ⟨fun gone => ?_, fun x record => ?_⟩
  · simp only [ownWallWindow, ordIndex_val, temp, if_neg good, gone]
  · simp only [ownWallWindow, ordIndex_val, temp, if_neg good, record]

theorem ownWallShut_range {r : Request} {n j : Nat} {s : State} (h : 12 ≤ n) : ownWallShut r (n, j) s = answer r .range s := by
  unfold ownWallShut
  simp only [ordIndex_of_le h]

/-- Settles O40. -/
theorem wallWindowAndWallShut : Obligations.WallWindowAndWallShut := by
  unfold Obligations.WallWindowAndWallShut
  refine ⟨fun s r n c w h mode body => ?_, fun s r n j h mode body => ?_⟩
  · intro u
    have runs : exec .wallWindow s = .next (ownWallWindow r (n, c, w) u) := live_runRequest h (.inr mode) body
    refine ⟨fun bad => runs.trans (congrArg _ (ownWallWindow_range bad)), fun q t at' temp side invert => ?_⟩
    subst at'
    obtain ⟨missing, given⟩ := ownWallWindow_at (r := r) temp side invert u
    refine ⟨fun unusable => ?_, fun x record holds => ⟨fun serves => ?_, fun free => ?_⟩⟩
    · cases record : s.wall.pos[q].record with
      | none => rw [runs, missing record]
      | some x =>
        rw [runs, given x record]
        exact congrArg _ (if_pos (unusable.resolve_right (by rw [record]; nofun)))
    all_goals have held : ¬ u.wall.pos[q].state.holds = false := fun e => Bool.true_eq_false.mp (holds.symm.trans e)
    · rw [runs, given x record, if_neg held]
      exact congrArg _ (if_pos serves)
    · have unlit : ¬ cycleServes q t u = true := Bool.eq_false_iff.mp free
      rw [runs, given x record, if_neg held, if_neg unlit]
      rfl
  · intro u
    have runs : exec .wallShut s = .next (ownWallShut r (n, j) u) := live_runRequest h (.inr mode) body
    refine ⟨fun far => runs.trans (congrArg _ (ownWallShut_range far)), fun q at' => ?_⟩
    subst at'
    refine ⟨fun gone => ?_, fun x record => ⟨fun beyond => ?_, fun c comp => ⟨fun out => ?_, fun holds hit => ?_,
      fun holds hit shut => ?_, fun holds hit shut => ?_⟩⟩⟩
    · have gone' : u.wall.pos[q].record = none := gone
      simp only [runs, ownWallShut, ordIndex_val, gone']
    all_goals have record' : u.wall.pos[q].record = some x := record
    · simp only [runs, ownWallShut, ordIndex_val, record', List.getElem?_eq_none beyond]
    · have out' : u.wall.pos[q].state.holds = false := out
      simp only [runs, ownWallShut, ordIndex_val, record', comp, out', if_true]
    all_goals have holds' : u.wall.pos[q].state.holds = true := holds
    · have hit' : cycleTargets q j u = true := hit
      simp only [runs, ownWallShut, ordIndex_val, record', comp, holds', hit', Bool.true_eq_false, if_false, if_true]
    all_goals have hit' : cycleTargets q j u = false := hit
    · simp only [runs, ownWallShut, ordIndex_val, record', comp, holds', hit', shut, Bool.true_eq_false,
        Bool.false_eq_true, if_false, if_true]
    · simp only [runs, ownWallShut, ordIndex_val, record', comp, holds', hit', shut, Bool.true_eq_false,
        Bool.false_eq_true, if_false]

/-! ## WALL-REBASE -/

/-- Settles O41. -/
theorem wallRebaseSetsBaseline : Obligations.WallRebaseSetsBaseline := by
  unfold Obligations.WallRebaseSetsBaseline
  intro s r n h mode body u
  have runs : exec .wallRebase s = .next (ownWallRebase r n u) := live_runRequest h (.inr mode) body
  refine ⟨fun far => ?_, fun q at' => ?_⟩
  · simp only [runs, ownWallRebase, ordIndex_of_le far]
  subst at'
  refine ⟨fun target => ?_, fun free st => ?_, fun free st heavy => ?_, fun g x free st latest record => ?_⟩
  · have target' : isTarget q u = true := target
    simp only [runs, ownWallRebase, ordIndex_val, target', if_true]
  all_goals have free' : isTarget q u = false := free
  · have st' : u.wall.pos[q].state ≠ .active := st
    simp only [runs, ownWallRebase, ordIndex_val, free', if_pos st', Bool.false_eq_true, if_false]
  all_goals have st' : ¬ u.wall.pos[q].state ≠ .active := not_not.mpr st
  · cases latest : s.wall.pos[q].latest with
    | none =>
      have latest' : u.wall.pos[q].latest = none := latest
      simp only [runs, ownWallRebase, ordIndex_val, free', if_neg st', Bool.false_eq_true, if_false, latest']
    | some weight =>
      cases weight with
      | grams g => exact absurd latest (heavy g)
      | overload =>
        have latest' : u.wall.pos[q].latest = some .overload := latest
        simp only [runs, ownWallRebase, ordIndex_val, free', if_neg st', Bool.false_eq_true, if_false, latest']
  · intro v
    have latest' : u.wall.pos[q].latest = some (.grams g) := latest
    have record' : u.wall.pos[q].record = some x := record
    refine ⟨fun clean => ?_, fun disturbed => ?_⟩
    · have undisturbed : (x.cond != Cond.clean) = false := by rw [clean]; rfl
      simp only [runs, ownWallRebase, ordIndex_val, free', if_neg st', latest', record', Option.any_some, undisturbed,
        Bool.false_eq_true, if_false, v]
    · have disturbed' : (x.cond != Cond.clean) = true := bne_iff_ne.mpr disturbed
      simp only [runs, ownWallRebase, ordIndex_val, free', if_neg st', latest', record', Option.any_some, disturbed',
        Bool.false_eq_true, if_false, if_true, cleanRecord, v]

/-! ## WALL-RELEASE -/

/-- What a WALL notice RELEASED says of a position: the charges of its record, or the id read without one. -/
def OrdPos.releasedEvent (fault : Bool) (x : OrdPos) : WallEvent :=
  match x.record with
  | none => .released [] fault x.idRead
  | some r => .released r.comps fault none

theorem notifyReleased_eq (q : Fin 12) (fault : Bool) (s : State) :
    notifyReleased q fault s = notifyWall q (s.wall.pos[q].releasedEvent fault) s := by
  cases e : s.wall.pos[q].record with
  | none => simp only [notifyReleased, OrdPos.releasedEvent, e]
  | some r => simp only [notifyReleased, OrdPos.releasedEvent, e]

/-- The position once its tote is ordered out. -/
def orderedOff (q : Fin 12) (s : State) : State :=
  modLine (lineOf (.ord q)) (FieldLine.hand (.gate .exit) false)
    (modOrd q (OrdPos.leave (s.prof.profile.leaveTimeout * 10)) (notifyReleased q false s))

theorem isFaulted_orderedOff (q : Fin 12) (s : State) : isFaulted (.ord q) (orderedOff q s) = false := by
  show decide ((modOrd q _ (notifyReleased q false s)).wall.pos[q].state = .faulted) = false
  rw [modOrd_self]
  rfl

theorem releaseOrd_eq (q : Fin 12) (s : State) : releaseOrd q s =
    if s.wall.pos[q].removeLight then modLine (lineOf (.ord q)) (FieldLine.hand (.light .all .dark) false) (orderedOff q s)
    else orderedOff q s := by
  have sound : isFaulted (.ord q) (modOrd q (OrdPos.leave (s.prof.profile.leaveTimeout * 10)) (notifyReleased q false s)) =
      false := isFaulted_orderedOff q s
  have exit : exitOrd q (modOrd q (OrdPos.leave (s.prof.profile.leaveTimeout * 10)) (notifyReleased q false s)) =
      orderedOff q s := handOrder_of_sound sound _
  simp only [releaseOrd, exit, handOrder_of_sound (isFaulted_orderedOff q s)]

theorem releaseOrd_wall (q : Fin 12) (s : State) :
    (releaseOrd q s).wall = (modOrd q (OrdPos.leave (s.prof.profile.leaveTimeout * 10)) s).wall := by
  rw [releaseOrd_eq]
  split_ifs <;> simp [orderedOff]

theorem releaseOrd_link (q : Fin 12) (s : State) : (releaseOrd q s).link = (notifyReleased q false s).link := by
  rw [releaseOrd_eq]
  split_ifs <;> rfl

theorem notifyReleased_frame (q : Fin 12) (fault : Bool) (s : State) : let t := notifyReleased q fault s
    t.inputs = s.inputs ∧ t.offers = s.offers ∧ t.arb = s.arb ∧ t.src = s.src ∧ t.wall = s.wall ∧ t.put = s.put ∧
    t.picker = s.picker ∧ t.bench = s.bench ∧ t.prof = s.prof ∧ t.lines = s.lines ∧ t.pending = s.pending := by
  rw [notifyReleased_eq]
  exact notify_frame ..

theorem releaseOrd_frame (q : Fin 12) (s : State) : let t := releaseOrd q s
    t.inputs = s.inputs ∧ t.offers = s.offers ∧ t.arb = s.arb ∧ t.src = s.src ∧ t.put = s.put ∧
    t.picker = s.picker ∧ t.bench = s.bench ∧ t.prof = s.prof ∧ t.pending = s.pending := by
  obtain ⟨inputs, offers, arb, src, -, put, picker, bench, prof, -, pending⟩ := notifyReleased_frame q false s
  rw [releaseOrd_eq]
  split_ifs <;> exact ⟨inputs, offers, arb, src, put, picker, bench, prof, pending⟩

/-- The orders that a tote ordered out hands to the line of its position. -/
def exitOrders (lit : Bool) (l : FieldLine) : FieldLine :=
  if lit then FieldLine.hand (.light .all .dark) false (FieldLine.hand (.gate .exit) false l)
  else FieldLine.hand (.gate .exit) false l

theorem releaseOrd_lines (q : Fin 12) (s : State) (i : Fin 16) : (releaseOrd q s).lines[i] =
    if lineOf (.ord q) = i then exitOrders s.wall.pos[q].removeLight s.lines[i] else s.lines[i] := by
  have before : (modOrd q (OrdPos.leave (s.prof.profile.leaveTimeout * 10)) (notifyReleased q false s)).lines = s.lines :=
    (notifyReleased_frame q false s).2.2.2.2.2.2.2.2.2.1
  rw [releaseOrd_eq]
  unfold exitOrders orderedOff
  by_cases lit : s.wall.pos[q].removeLight = true
  · rw [if_pos lit, if_pos lit, modLine_getElem, modLine_getElem, before]
    split_ifs <;> rfl
  · rw [if_neg lit, if_neg lit, modLine_getElem, before]

/-- Settles O42. -/
theorem wallReleaseActsByState : Obligations.WallReleaseActsByState := by
  unfold Obligations.WallReleaseActsByState
  refine ⟨fun s r n h body => ?_, fun q s _ => ?_⟩
  · intro u
    have runs : exec .wallRelease s = .next (ownWallRelease r n u) := live_runRequest h (.inl rfl) body
    refine ⟨fun far => ?_, fun q at' => ?_⟩
    · simp only [runs, ownWallRelease, ordIndex_of_le far]
    subst at'
    have same : u.wall.pos[q].state = s.wall.pos[q].state := rfl
    have table := runs
    simp only [ownWallRelease, ordIndex_val, same] at table
    refine ⟨fun st => ?_, fun st => ?_, fun st => ?_, fun st => ?_, fun st => ?_, fun st => ⟨fun target => ?_, fun free => ?_⟩⟩
    · rcases st with st | st <;> simp only [table, st]
    · simp only [table, st]
    · rcases st with st | st <;> simp only [table, st]
    · simp only [table, st]
    · simp only [table, st]
    · have target' : isTarget q u = true := target
      rcases st with st | st <;> simp only [table, st, target', if_true]
    · have free' : isTarget q u = false := free
      rcases st with st | st <;> simp only [table, st, free', Bool.false_eq_true, if_false]
  · intro t
    have wall : t.wall = _ := releaseOrd_wall q s
    have lines : ∀ i : Fin 16, t.lines[i] = _ := releaseOrd_lines q s
    have link : t.link = _ := releaseOrd_link q s
    obtain ⟨inputs, offers, arb, src, put, picker, bench, prof, pending⟩ := releaseOrd_frame q s
    refine ⟨?_, fun q' ne => ?_, ?_, fun dark => ?_, fun lit => ?_, fun i ne => ?_, ?_, inputs, offers, arb, src, put,
      picker, bench, prof, pending⟩
    · rw [wall, modOrd_self] <;> rfl
    · rw [wall, modOrd_getElem, if_neg (Ne.symm ne)]
    · rw [wall] <;> rfl
    · rw [lines, if_pos rfl, dark] <;> rfl
    · rw [lines, if_pos rfl, lit] <;> rfl
    · rw [lines, if_neg (Ne.symm ne)]
    · rw [link, notifyReleased_eq]
      cases e : s.wall.pos[q].record with
      | none => simp only [notifyWall, OrdPos.releasedEvent, e]
      | some x => simp only [notifyWall, OrdPos.releasedEvent, e]

/-! ## POS-OPEN-ORDER and POS-CLOSE-ORDER -/

/-- Settles O44. -/
theorem orderPositionsOpenAndClose : Obligations.OrderPositionsOpenAndClose := by
  unfold Obligations.OrderPositionsOpenAndClose
  intro s r n body u
  have opens : s.canRun .posOpenOrder r → exec .posOpenOrder s = .next (ownPosOpenOrder r n u) := fun h =>
    live_runRequest h (.inl rfl) body
  have closes : s.canRun .posCloseOrder r → exec .posCloseOrder s = .next (ownPosCloseOrder r n u) := fun h =>
    live_runRequest h (.inl rfl) body
  have beyond : 12 ≤ n ∨ s.prof.profile.orderCount ≤ n →
      ownPosOpenOrder r n u = answer r .range u ∧ ownPosCloseOrder r n u = answer r .range u := fun far => by
    by_cases lt : n < 12
    · have count : u.prof.profile.orderCount ≤ n := far.resolve_left (Nat.not_le.mpr lt)
      obtain ⟨q, rfl⟩ : ∃ q : Fin 12, n = q.val := ⟨⟨n, lt⟩, rfl⟩
      simp only [ownPosOpenOrder, ownPosCloseOrder, ordIndex_val, if_pos count, and_self]
    · simp only [ownPosOpenOrder, ownPosCloseOrder, ordIndex_of_le (Nat.le_of_not_lt lt), and_self]
  refine ⟨fun h far => (opens h).trans (congrArg _ (beyond far).1), fun h far => (closes h).trans (congrArg _ (beyond far).2),
    fun q at' lt => ⟨fun h => ?_, fun h => ?_⟩⟩
  · subst at'
    have within : ¬ u.prof.profile.orderCount ≤ q.val := Nat.not_le.mpr lt
    have same : u.wall.pos[q].state = s.wall.pos[q].state := rfl
    have table := opens h
    simp only [ownPosOpenOrder, ordIndex_val, if_neg within, same] at table
    refine ⟨fun st => ?_, fun open' sound => ?_⟩
    · have survey : exec .posOpenOrder s = .next (beginSurvey (.ord q) (holdFor r (.openOrder q) u)) := by
        rcases st with st | st <;> simp only [table, st]
      rw [survey, beginSurvey, handOrder, bne_self_eq_false, Bool.and_false]
      rfl
    · cases st : s.wall.pos[q].state <;> simp only [table, st]
      · exact absurd st open'
      · exact absurd st sound
  · intro closed close
    subst at'
    have within : ¬ u.prof.profile.orderCount ≤ q.val := Nat.not_le.mpr lt
    have same : u.wall.pos[q].state = s.wall.pos[q].state := rfl
    have table := closes h
    simp only [ownPosCloseOrder, ordIndex_val, if_neg within, same] at table
    have closeOrd_eq : ∀ v : State, v.wall.pos[q].surveyT = s.wall.pos[q].surveyT → closeOrd q v = close v := fun v e => by
      have shut : v.wall.pos[q].shutDown = closed := by rw [OrdPos.shutDown, e]
      have self : (modOrd q OrdPos.shutDown v).wall.pos[q] = closed := (modOrd_self ..).trans shut
      have mod : modOrd q OrdPos.shutDown v = { v with wall := { v.wall with pos := v.wall.pos.set q closed } } := by
        rw [modOrd, shut]
      rw [closeOrd, notifyOrd, self, mod]
    refine ⟨fun st => ?_, fun st => ?_, fun st gone => ?_, fun x st record => ?_, fun open' used sound => ?_⟩
    · simp only [table, st]
    · simp only [table, st, closeOrd_eq u rfl]
    · have gone' : u.wall.pos[q].record = none := gone
      simp only [table, st, closeFaultedOrd, gone', Option.isSome_none, Bool.false_eq_true, if_false, closeOrd_eq u rfl]
    · have record' : u.wall.pos[q].record = some x := record
      have released : notifyReleased q true u = notify (.wall q (some (x.ref, x.tote)) (.released x.comps true none)) u := by
        simp only [notifyReleased, notifyWall, record', Option.map_some]
      have survey : (notify (.wall q (some (x.ref, x.tote)) (.released x.comps true none)) u).wall.pos[q].surveyT =
          s.wall.pos[q].surveyT := by rw [notify_wall]; rfl
      simp only [table, st, closeFaultedOrd, record', Option.isSome_some, if_true, released, closeOrd_eq _ survey]
    · cases st : s.wall.pos[q].state <;> simp only [table, st]
      · exact absurd st open'
      · exact absurd st sound
      · exact absurd st used

end Sys2Proof.Machine

namespace Sys2Proof.Machine

/-!
The opening and closing of a source position (R39, R41), and the requests that change the bench mode (R138, R139, R141).
-/

theorem bothEmpty_iff (x : SrcPos) : x.bothEmpty = true ↔ x.face.state = .empty ∧ x.lane.state = .empty := by
  rw [SrcPos.bothEmpty, Bool.and_eq_true, beq_iff_eq, beq_iff_eq]

theorem allEmpty_iff (s : State) : srcIndices.all (fun p => s.src[p].bothEmpty) = true ↔
    ∀ p : Fin 4, s.src[p].face.state = .empty ∧ s.src[p].lane.state = .empty := by
  rw [List.all_eq_true]
  exact ⟨fun h p => (bothEmpty_iff _).mp (h p (mem_srcIndices p)), fun h p _ => (bothEmpty_iff _).mpr (h p)⟩

theorem noneOpen_iff (s : State) : srcIndices.all (fun p => s.src[p].state != .opn) = true ↔
    ∀ p : Fin 4, s.src[p].state ≠ .opn := by
  rw [List.all_eq_true]
  exact ⟨fun h p => bne_iff_ne.mp (h p (mem_srcIndices p)), fun h p _ => bne_iff_ne.mpr (h p)⟩

/-! ## POS-CLOSE and POS-OPEN -/

/-- The POSITION notice of a source position that has just been changed. -/
theorem notifySrc_modSrc (p : Fin 4) (f : SrcPos → SrcPos) (s : State) : notifySrc p (modSrc p f s) =
    notify (.position (.src p) (.source (f s.src[p]).state) (f s.src[p]).cause) { s with src := s.src.set p (f s.src[p]) } := by
  rw [notifySrc, modSrc_self]
  rfl

/-- Settles O43. -/
theorem sourcePositionsOpenAndClose : Obligations.SourcePositionsOpenAndClose := by
  unfold Obligations.SourcePositionsOpenAndClose
  refine ⟨fun s r n h body => ?_, fun s r n h body => ?_⟩
  · intro u
    have runs : exec .posClose s = .next (ownPosClose r n u) := live_runRequest h (.inl rfl) body
    refine ⟨fun far => ?_, fun p at' lt => ?_⟩
    · rw [runs]
      by_cases near : n < 4
      · obtain ⟨p, rfl⟩ : ∃ p : Fin 4, n = p.val := ⟨⟨n, near⟩, rfl⟩
        have count : u.prof.profile.sourceCount ≤ p.val := far.resolve_left (Nat.not_le.mpr near)
        simp only [ownPosClose, srcIndex_val, if_pos count]
      · simp only [ownPosClose, srcIndex_of_le (Nat.le_of_not_lt near)]
    intro closed v
    subst at'
    have within : ¬ u.prof.profile.sourceCount ≤ p.val := Nat.not_le.mpr lt
    have same : u.src[p].state = s.src[p].state := rfl
    have close : closeSrc p u = v := notifySrc_modSrc p (fun x => x.blank .closed none) u
    simp only [ownPosClose, srcIndex_val, if_neg within, same, close] at runs
    refine ⟨fun st face lane => ?_, fun st held => ?_, fun st => ?_, fun st => ?_, fun st => ?_⟩
    · have empty : u.src[p].bothEmpty = true := (bothEmpty_iff _).mpr ⟨face, lane⟩
      simp only [runs, st, empty, if_true]
    · have used : u.src[p].bothEmpty = false := by
        rw [← Bool.not_eq_true, bothEmpty_iff, not_and_or]
        exact held
      simp only [runs, st, used, Bool.false_eq_true, if_false, notifySrc_modSrc]
      rfl
    · simp only [runs, st]
    · simp only [runs, st]
    · simp only [runs, st]
  · intro u
    have runs : exec .posOpen s = .next (ownPosOpen r n u) := live_runRequest h (.inl rfl) body
    refine ⟨fun far => ?_, fun p at' lt => ?_⟩
    · rw [runs]
      by_cases near : n < 4
      · obtain ⟨p, rfl⟩ : ∃ p : Fin 4, n = p.val := ⟨⟨n, near⟩, rfl⟩
        have count : u.prof.profile.sourceCount ≤ p.val := far.resolve_left (Nat.not_le.mpr near)
        simp only [ownPosOpen, srcIndex_val, if_pos count]
      · simp only [ownPosOpen, srcIndex_of_le (Nat.le_of_not_lt near)]
    subst at'
    have within : ¬ u.prof.profile.sourceCount ≤ p.val := Nat.not_le.mpr lt
    have same : u.src[p].state = s.src[p].state := rfl
    simp only [ownPosOpen, srcIndex_val, if_neg within, same] at runs
    refine ⟨fun st => ?_, fun st => ?_, fun st => ?_⟩
    · simp only [runs, st]
    · simp only [runs, st, notifySrc_modSrc]
      rfl
    · have survey : exec .posOpen s = .next (beginSurvey (.src p) (holdFor r (.openSource p) u)) := by
        rcases st with st | st <;> simp only [runs, st]
      rw [survey, beginSurvey, handOrder, bne_self_eq_false, Bool.and_false]
      rfl

/-! ## BENCH-START, BENCH-DRAIN and RESTART -/

theorem setMode_eq (m : BenchMode) (s : State) :
    setMode m s = notify (.benchMode m s.bench.mode) { s with bench := { s.bench with mode := m } } := rfl

theorem setMode_src (m : BenchMode) (s : State) : (setMode m s).src = s.src := notify_src ..

theorem setMode_mode (m : BenchMode) (s : State) : (setMode m s).bench.mode = m := by
  rw [setMode, notify_bench]
  rfl

/-- A drain that begins is complete at once when every face and lane is EMPTY, and goes on otherwise (R139). -/
theorem judgeDrain_setMode (s : State) :
    ((∀ p : Fin 4, s.src[p].face.state = .empty ∧ s.src[p].lane.state = .empty) →
      judgeDrain (setMode .draining s) = setMode .drained (setMode .draining s)) ∧
    (¬ (∀ p : Fin 4, s.src[p].face.state = .empty ∧ s.src[p].lane.state = .empty) →
      judgeDrain (setMode .draining s) = setMode .draining s) := by
  have src := setMode_src .draining s
  have all : srcIndices.all (fun p => (setMode .draining s).src[p].bothEmpty) = true ↔ _ := allEmpty_iff _
  rw [src] at all
  refine ⟨fun empty => if_pos ⟨setMode_mode .draining s, ?_⟩, fun held => if_neg fun ⟨_, empty⟩ => held ?_⟩
  · rw [src]
    exact all.mpr empty
  · rw [src] at empty
    exact all.mp empty

theorem kind_of_restart {r : Request} (h : rowOf r = .restart) : r.kind = 0x0F := by
  unfold rowOf at h
  split at h
  case h_15 kind => exact BitVec.eq_of_toNat_eq kind
  case h_20 => split at h <;> [cases h; (split_ifs at h <;> cases h)]
  all_goals cases h

/-- Settles O45. -/
theorem benchModeRequests : Obligations.BenchModeRequests := by
  unfold Obligations.BenchModeRequests
  refine ⟨fun s r h => ?_, fun s r h => ?_, fun s r h => ?_⟩
  · intro u
    have runs : exec .benchStart s = .next (ownBenchStart r () u) := live_runRequest h (.inl rfl) rfl
    refine ⟨fun busy => runs.trans (congrArg _ (if_pos busy)), fun idle => ?_⟩
    have off : ¬ (u.bench.mode = .service ∨ u.bench.mode = .draining) := by
      show ¬ (s.bench.mode = .service ∨ s.bench.mode = .draining)
      rcases idle with m | m <;> rw [m] <;> decide
    refine ⟨fun shut => ?_, fun ⟨p, open'⟩ => ?_⟩
    · exact runs.trans (congrArg _ ((if_neg off).trans (if_pos ((noneOpen_iff u).mpr shut))))
    · have some' : ¬ srcIndices.all (fun p => u.src[p].state != .opn) = true := fun all => (noneOpen_iff u).mp all p open'
      refine ⟨fun storing => ?_, fun still => ?_⟩
      · exact runs.trans (congrArg _ ((if_neg off).trans ((if_neg some').trans (if_pos storing))))
      · exact runs.trans (congrArg _ ((if_neg off).trans ((if_neg some').trans (if_neg (Bool.eq_false_iff.mp still)))))
  · intro u v
    have runs : s.bench.mode ≠ .starting → exec .benchDrain s = .next (ownBenchDrain r () u) := fun mode =>
      live_runRequest h (.inr mode) rfl
    have same : u.bench.mode = s.bench.mode := rfl
    obtain ⟨whole, part⟩ := judgeDrain_setMode u
    have drain : s.bench.mode = .service → exec .benchDrain s =
        .next (attempt (answer r (.ok .none) (judgeDrain (setMode .draining u)))) := fun m => by
      simp only [runs (by rw [m]; decide), ownBenchDrain, same, m]
    have begun : s.bench.mode = .service → setMode .draining u = v :=
      congrArg fun x => notify (.benchMode .draining x) { u with bench := { s.bench with mode := .draining } }
    refine ⟨fun m ⟨p, held⟩ => ?_, fun m empty => ?_, fun m => ?_⟩
    · rw [drain m, part fun all => held.elim (fun no => no (all p).1) fun no => no (all p).2, begun m]
    · rw [drain m, whole empty, begun m, setMode_eq, show v.bench = { s.bench with mode := .draining } from notify_bench ..]
    · rcases m with m | m <;> simp only [runs (by rw [m]; decide), ownBenchDrain, same, m]
  · have runs : exec .restart s = .next (ownRestart r () (popRequest s)) := live_runRequest h (.inl rfl) rfl
    have kind : replyKind r.kind = 0x8F := by
      rw [kind_of_restart h.2.2.2.2.2]
      decide
    rw [runs, ownRestart, answer, kind]
    rfl

end Sys2Proof.Machine

namespace Sys2Proof.Machine

/-!
The locks and the stored image (R150 to R153), and the requests that report and change nothing (R149, R169).
-/

/-! ## The locks and the store -/

theorem completeStore_of_storing {o : StoreOutcome} {s : State} (h : s.prof.storing = true) : completeStore o s =
    notify (.stored o (s.prof.completed o).storedLock (s.prof.completed o).effLock) (setProf (s.prof.completed o) s) :=
  if_pos h

theorem completeStore_of_still {o : StoreOutcome} {s : State} (h : s.prof.storing = false) : completeStore o s = s :=
  if_neg (Bool.eq_false_iff.mp h)

theorem exec_storeCompletion {s : State} (off : s.inputs.reset = false) (o : StoreOutcome) :
    exec (.storeCompletion o) s = .next (completeStore o s) := live_of_off off (completeStore o)

/-- Settles O47. -/
theorem locksAndTheStoredImage : Obligations.LocksAndTheStoredImage := by
  unfold Obligations.LocksAndTheStoredImage
  refine ⟨⟨?_, by decide⟩, fun s r => ⟨fun h => ?_, fun h => ?_⟩, fun s off => ⟨fun o still => ?_, fun storing => ?_⟩⟩
  · intro l
    cases l <;> decide
  · have runs : exec .profileStore s = .next (ownProfileStore r () (popRequest s)) := live_runRequest h (.inl rfl) rfl
    refine ⟨fun busy => runs.trans (congrArg _ (if_pos busy)), fun still denied => ?_, fun still admitted => ?_⟩
    · exact runs.trans (congrArg _ ((if_neg (Bool.eq_false_iff.mp still)).trans (if_pos denied)))
    · exact runs.trans (congrArg _ ((if_neg (Bool.eq_false_iff.mp still)).trans (if_neg (Bool.eq_false_iff.mp admitted))))
  · have runs : exec .lockShift s = .next (ownLockShift r () (popRequest s)) := live_runRequest h (.inl rfl) rfl
    exact ⟨fun busy => runs.trans (congrArg _ (if_pos busy)),
      fun still => runs.trans (congrArg _ (if_neg (Bool.eq_false_iff.mp still)))⟩
  · rw [exec_storeCompletion off, completeStore_of_still still]
  · refine ⟨?_, _, _, s.prof.spoiled + 1, failedCheck_disagrees s.prof.spoiled s.prof.profile, ?_⟩
    · exact (exec_storeCompletion off .ok).trans (congrArg _ (completeStore_of_storing storing))
    · exact (exec_storeCompletion off .failed).trans (congrArg _ (completeStore_of_storing storing))

/-! ## PROFILE-GET and the QUERYs -/

theorem profileFields_getElem?_eq_none {n : Nat} (h : 26 ≤ n) : profileFields[n]? = none := List.getElem?_eq_none h

theorem mem_recordsOf (ref : Nat) (s : State) (q : Fin 12) (x : Rec) :
    (q, x) ∈ recordsOf ref s ↔ s.wall.pos[q].record = some x ∧ x.ref = ref := by
  rw [recordsOf, (perm_sortBySeq _).mem_iff, List.mem_filterMap]
  constructor
  · rintro ⟨q', -, h⟩
    obtain ⟨y, filtered, e⟩ := Option.map_eq_some_iff.mp h
    cases e
    obtain ⟨record, ref'⟩ := Option.filter_eq_some_iff.mp filtered
    exact ⟨record, beq_iff_eq.mp ref'⟩
  · rintro ⟨record, ref'⟩
    exact ⟨q, mem_ordIndices q, Option.map_eq_some_iff.mpr
      ⟨x, Option.filter_eq_some_iff.mpr ⟨record, beq_iff_eq.mpr ref'⟩, rfl⟩⟩

/-- The records of an order as a QUERY ORDER lists them: position, state, record. -/
def orderEntries (ref : Nat) (s : State) : List (Fin 12 × OrdState × Rec) :=
  (recordsOf ref s).map fun y => (y.1, s.wall.pos[y.1].state, y.2)

theorem mem_orderEntries (ref : Nat) (s : State) (q : Fin 12) (st : OrdState) (x : Rec) : (q, st, x) ∈ orderEntries ref s ↔
    s.wall.pos[q].record = some x ∧ x.ref = ref ∧ s.wall.pos[q].state = st := by
  rw [orderEntries, List.mem_map]
  constructor
  · rintro ⟨⟨q', x'⟩, mem, e⟩
    obtain ⟨record, ref'⟩ := (mem_recordsOf ref s q' x').mp mem
    cases e
    exact ⟨record, ref', rfl⟩
  · rintro ⟨record, ref', rfl⟩
    exact ⟨(q, x), (mem_recordsOf ref s q x).mpr ⟨record, ref'⟩, rfl⟩

theorem orderEntries_sorted (ref : Nat) (s : State) : (orderEntries ref s).Pairwise fun a b => a.2.2.seq ≤ b.2.2.seq :=
  List.Pairwise.map _ (fun _ _ h => h) (inSeqOrder_sortBySeq _)

theorem ownQueryOrder_cases (r : Request) (ref : Nat) (s : State) :
    (recordsOf ref s = [] → ownQueryOrder r (.id ref) s = answer r .notFound s) ∧
    (recordsOf ref s ≠ [] → ownQueryOrder r (.id ref) s = answer r (.ok (.records (orderEntries ref s))) s) := by
  unfold orderEntries
  cases e : recordsOf ref s with
  | nil => exact ⟨fun _ => by simp only [ownQueryOrder, e], fun ne => absurd rfl ne⟩
  | cons x xs => exact ⟨nofun, fun _ => by simp only [ownQueryOrder, e]⟩

/-- The place of a record in the list, counted from 1 (R1). -/
theorem placeOf_spec {t : Nat} {s : State} {o : Offer} (h : findOffer t s = some o) :
    ∃ i, s.offers[i]? = some o ∧ placeOf t s = i + 1 := by
  refine ⟨_, ?_, rfl⟩
  rw [← List.find?_eq_getElem?_findIdx]
  exact h

theorem readQuery_id {f : Byte} (hf : f = 2 ∨ f = 3) {bs : List Byte} {t : Nat} (h : readId bs = some t) :
    readQuery (f :: bs) = some (.id t) := by
  rcases hf with rfl | rfl <;> simp [readQuery, h]

/-- Settles O48. -/
theorem queriesAndProfileGetReport : Obligations.QueriesAndProfileGetReport := by
  unfold Obligations.QueriesAndProfileGetReport
  refine ⟨fun s r h => ?_, fun s r => ⟨fun h rest body => ?_, fun h n rest => ?_,
    fun h t bs body read => ?_, fun h ref bs body read => ?_⟩⟩
  · intro u report
    have runs : ∀ a, readProfileGet r.body = some a → exec .profileGet s = .next (ownProfileGet r a u) := fun a read =>
      live_runRequest h (.inl rfl) read
    refine ⟨fun body => runs none (by rw [body]; rfl), fun i rest body => ?_⟩
    have runs := runs (some i.toNat) (by rw [body]; rfl)
    refine ⟨fun far => ?_, fun f at' => ?_⟩
    · simp only [runs, ownProfileGet, profileFields_getElem?_eq_none far]
    · simp only [runs, ownProfileGet, at']
      rfl
  · have runs : exec .queryBench s = .next (ownQueryBench r .bench (popRequest s)) :=
      live_runRequest h (.inl rfl) (by rw [body]; rfl)
    refine runs.trans (congrArg (fun b => Host.Outcome.next (answer r (.ok (.bench b)) (clearLost (popRequest s)))) ?_)
    simp only [benchReport, popRequest, List.length_tail]
    rfl
  · have runs : ∀ a, readQuery r.body = some a → exec .queryPosition s = .next (ownQueryPosition r a (popRequest s)) :=
      fun a read => live_runRequest h (.inl rfl) read
    refine ⟨fun p body at' => ?_, fun q body at' => ?_, fun body far => ?_, fun body far => ?_⟩
    · have runs := runs (.position 0 p.val) (by rw [body, ← at']; rfl)
      simp only [runs, ownQueryPosition, srcIndex_val]
      rfl
    · have runs := runs (.position 1 q.val) (by rw [body, ← at']; rfl)
      simp only [runs, ownQueryPosition, ordIndex_val]
      rfl
    · have runs := runs (.position 0 n.toNat) (by rw [body]; rfl)
      simp only [runs, ownQueryPosition, srcIndex_of_le far]
    · have runs := runs (.position 1 n.toNat) (by rw [body]; rfl)
      simp only [runs, ownQueryPosition, ordIndex_of_le far]
  · have runs : exec .queryOffer s = .next (ownQueryOffer r (.id t) (popRequest s)) :=
      live_runRequest h (.inl rfl) (body ▸ readQuery_id (.inl rfl) read)
    have same : findOffer t (popRequest s) = findOffer t s := rfl
    refine ⟨fun gone => ?_, fun o found => ?_⟩
    · simp only [runs, ownQueryOffer, same, gone]
    · obtain ⟨i, at', place⟩ := placeOf_spec found
      have place' : placeOf t (popRequest s) = i + 1 := place
      refine ⟨i, at', ?_⟩
      simp only [runs, ownQueryOffer, same, found, place']
      rfl
  · have runs : exec .queryOrder s = .next (ownQueryOrder r (.id ref) (popRequest s)) :=
      live_runRequest h (.inl rfl) (body ▸ readQuery_id (.inr rfl) read)
    obtain ⟨empty, listed⟩ := ownQueryOrder_cases r ref (popRequest s)
    refine ⟨fun gone => runs.trans (congrArg _ (empty ?_)), fun ⟨q, x, record, ref'⟩ => ?_⟩
    · refine List.eq_nil_iff_forall_not_mem.mpr fun ⟨q, x⟩ mem => ?_
      obtain ⟨record, ref'⟩ := (mem_recordsOf ref (popRequest s) q x).mp mem
      exact gone q x record ref'
    · refine ⟨_, mem_orderEntries ref (popRequest s), orderEntries_sorted ref (popRequest s),
        runs.trans (congrArg _ (listed ?_))⟩
      exact List.ne_nil_of_mem ((mem_recordsOf ref (popRequest s) q x).mpr ⟨record, ref'⟩)

end Sys2Proof.Machine

namespace Sys2Proof.Machine

/-!
The values of PROFILE-SET (R147): what each field takes and refuses, and that no other field changes.
-/

/-! ## Numeric fields -/

theorem clampTo_eq (lo hi n : Nat) :
    clampTo lo hi n = (if n < lo then lo else if hi < n then hi else n, decide (n < lo ∨ hi < n)) := by
  unfold clampTo
  split_ifs with low high
  · rw [decide_eq_true (.inl low)]
  · rw [decide_eq_true (.inr high)]
  · rw [decide_eq_false (not_or.mpr ⟨low, high⟩)]

theorem store_of_range {f : ProfileField} {lo hi : Nat} (h : f.range = some (lo, hi)) (v : List Byte) (p : Profile) :
    f.store v p = some (f.setNum (clampTo lo hi (u16At v 0)).1 p, (clampTo lo hi (u16At v 0)).2) := by
  simp only [ProfileField.store, h]

theorem read_setNum_self {f : ProfileField} {lo hi : Nat} (h : f.range = some (lo, hi)) (n : Nat) (p : Profile) :
    f.read (f.setNum n p) = .num n := by
  cases f <;> cases h <;> rfl

/-- A field that is set has no effect on what another field holds (R147). -/
theorem read_setNum_of_ne {f g : ProfileField} (h : g ≠ f) (n : Nat) (p : Profile) : g.read (f.setNum n p) = g.read p := by
  cases f <;> cases g <;> try rfl
  all_goals exact absurd rfl h

/-! ## Enumerated fields -/

/-- A profile that differs from another in one field alone. -/
def OnlyField (f : ProfileField) (p' p : Profile) : Prop := ∀ g : ProfileField, g ≠ f → g.read p' = g.read p

theorem onlyField_coldCapable (x : Vector Bool 4) (p : Profile) : OnlyField .coldCapable { p with coldCapable := x } p := by
  intro g h
  cases g
  case coldCapable => exact absurd rfl h
  all_goals rfl

theorem onlyField_laneDepth (x : Vector Nat 4) (p : Profile) : OnlyField .laneDepth { p with laneDepth := x } p := by
  intro g h
  cases g
  case laneDepth => exact absurd rfl h
  all_goals rfl

theorem onlyField_mask (x : Mask) (p : Profile) : OnlyField .mask { p with mask := x } p := by
  intro g h
  cases g
  case mask => exact absurd rfl h
  all_goals rfl

theorem onlyField_rotate (x : Bool) (p : Profile) : OnlyField .rotate { p with rotate := x } p := by
  intro g h
  cases g
  case rotate => exact absurd rfl h
  all_goals rfl

theorem onlyField_coldAlternation (x : Bool) (p : Profile) :
    OnlyField .coldAlternation { p with coldAlternation := x } p := by
  intro g h
  cases g
  case coldAlternation => exact absurd rfl h
  all_goals rfl

theorem onlyField_ladder (x : List ReqClass) (p : Profile) : OnlyField .ladder { p with ladder := x } p := by
  intro g h
  cases g
  case ladder => exact absurd rfl h
  all_goals rfl

theorem onlyField_lock (x : Lock) (p : Profile) : OnlyField .lock { p with lock := x } p := by
  intro g h
  cases g
  case lock => exact absurd rfl h
  all_goals rfl

/-- The entries of a value all of whose bytes are 0 or 1. -/
theorem map_entryOf {v : List Byte} (h : ∀ b ∈ v, b = 0 ∨ b = 1) : v.map entryOf = (v.map fun b => b == 1).map some := by
  rw [List.map_map]
  refine List.map_congr_left fun b mem => ?_
  rcases h b mem with rfl | rfl <;> rfl

theorem toNat_of_entry {b : Byte} (h : b = 0 ∨ b = 1) : (b == 1).toNat = b.toNat := by
  rcases h with rfl | rfl <;> rfl

theorem entryOf_eq_none {b : Byte} (h0 : b ≠ 0) (h1 : b ≠ 1) : entryOf b = none := by
  rw [entryOf, if_neg h0, if_neg h1]

/-- A value with a byte other than 0 and 1 has an entry that is none. -/
theorem none_mem_entries {v : List Byte} (h : ∃ b ∈ v, b ≠ 0 ∧ b ≠ 1) : none ∈ v.map entryOf := by
  obtain ⟨b, mem, h0, h1⟩ := h
  exact List.mem_map.mpr ⟨b, mem, entryOf_eq_none h0 h1⟩

/-- A value of as many entries as its field takes is refused when one of them is bad (R147). -/
theorem store_of_badEntry {f : ProfileField} {n : Nat} {v : List Byte} (p : Profile)
    (field : (f, n) ∈ [(ProfileField.coldCapable, 4), (.laneDepth, 4), (.mask, 6), (.rotate, 1), (.coldAlternation, 1)])
    (len : v.length = n) (bad : ∃ b ∈ v, b ≠ 0 ∧ b ≠ 1) : f.store v p = none := by
  have bad := none_mem_entries bad
  have len : (v.map entryOf).length = n := (List.length_map ..).trans len
  unfold ProfileField.store
  generalize v.map entryOf = es at bad len
  simp only [List.mem_cons, List.not_mem_nil, or_false, Prod.mk.injEq] at field
  rcases field with ⟨rfl, rfl⟩ | ⟨rfl, rfl⟩ | ⟨rfl, rfl⟩ | ⟨rfl, rfl⟩ | ⟨rfl, rfl⟩
  all_goals
    simp only [ProfileField.range]
    split <;> simp_all

theorem store_of_entries {v : List Byte} (good : ∀ b ∈ v, b = 0 ∨ b = 1) (p : Profile) :
    (∀ a b c d, v = [a, b, c, d] →
      ProfileField.coldCapable.store v p = some ({ p with coldCapable := #v[a == 1, b == 1, c == 1, d == 1] }, false) ∧
      ProfileField.laneDepth.store v p = some ({ p with laneDepth := #v[a.toNat, b.toNat, c.toNat, d.toNat] }, false)) ∧
    (∀ a b c d e g, v = [a, b, c, d, e, g] → ProfileField.mask.store v p = some ({ p with
      mask := { line := a == 1, wall := b == 1, picker := c == 1, position := d == 1, bench := e == 1, stored := g == 1 } },
      false)) ∧
    ∀ a, v = [a] → ProfileField.rotate.store v p = some ({ p with rotate := a == 1 }, false) ∧
      ProfileField.coldAlternation.store v p = some ({ p with coldAlternation := a == 1 }, false) := by
  have entries := map_entryOf good
  refine ⟨fun a b c d e => ?_, fun a b c d e g eq => ?_, fun a e => ?_⟩
  · subst e
    simp only [List.forall_mem_cons] at good
    obtain ⟨ga, gb, gc, gd, -⟩ := good
    simp only [ProfileField.store, ProfileField.range, entries, List.map_cons, toNat_of_entry ga, toNat_of_entry gb,
      toNat_of_entry gc, toNat_of_entry gd, and_self]
  · subst eq
    simp only [ProfileField.store, ProfileField.range, entries, List.map_cons]
  · subst e
    simp only [ProfileField.store, ProfileField.range, entries, List.map_cons, and_self]

/-! ## The ladder and the lock -/

theorem isLadder_iff (l : List ReqClass) : isLadder l = true ↔ l.Perm [.ret, .expedite, .cold, .ambient] := by
  simp only [isLadder, Bool.and_eq_true, decide_eq_true_eq, List.all_eq_true, List.contains_iff_mem]
  constructor
  · rintro ⟨len, all⟩
    have sub : [ReqClass.ret, .expedite, .cold, .ambient].Subperm l := List.subperm_of_subset (by decide) all
    exact (sub.perm_of_length_le (by simp [len])).symm
  · intro perm
    exact ⟨perm.length_eq, fun c mem => perm.mem_iff.mpr mem⟩

theorem filterMap_classOf {v : List Byte} {l : List ReqClass} (h : v.map classOf = l.map some) : v.filterMap classOf = l := by
  have back : (v.map classOf).filterMap id = v.filterMap classOf := List.filterMap_map ..
  rw [← back, h, List.filterMap_map]
  exact List.filterMap_some

theorem store_ladder {v : List Byte} {l : List ReqClass} (h : v.map classOf = l.map some)
    (perm : l.Perm [.ret, .expedite, .cold, .ambient]) (p : Profile) :
    ProfileField.ladder.store v p = some ({ p with ladder := l }, false) := by
  have len : v.length = 4 := by
    rw [← List.length_map (f := classOf), h, List.length_map, perm.length_eq]
    rfl
  simp only [ProfileField.store, ProfileField.range, List.take_of_length_le len.le, filterMap_classOf h,
    (isLadder_iff l).mpr perm, if_true]

theorem store_badLadder {v : List Byte} (len : v.length = 4)
    (bad : ∀ l : List ReqClass, v.map classOf = l.map some → ¬ l.Perm [.ret, .expedite, .cold, .ambient]) (p : Profile) :
    ProfileField.ladder.store v p = none := by
  have no : ¬ isLadder (v.filterMap classOf) = true := fun ladder => by
    have perm := (isLadder_iff _).mp ladder
    have named : ∀ b ∈ v, (classOf b).isSome := List.filterMap_length_eq_length.mp (by rw [perm.length_eq, len]; rfl)
    refine bad _ ?_ perm
    rw [List.map_filterMap_some_eq_filter_map_isSome, List.filter_eq_self.mpr]
    exact List.forall_mem_map.mpr named
  simp only [ProfileField.store, ProfileField.range, List.take_of_length_le len.le, if_neg no]

theorem store_lock {b : Byte} (p : Profile) :
    ProfileField.lock.store [b] p = (lockOf b).map fun l => ({ p with lock := l }, false) := rfl

theorem lockOf_eq_none {b : Byte} (h0 : b ≠ 0) (h1 : b ≠ 1) (h3 : b ≠ 3) : lockOf b = none := by
  rw [lockOf, if_neg h0, if_neg h1, if_neg h3]

end Sys2Proof.Machine

namespace Sys2Proof.Machine

/-!
PROFILE-SET and its hand-over (R146, R148): the positions that follow a lowered count, the notices they give, and the
settling of the obligation.
-/

/-! ## Notices alone -/

/-- The link of `u` is that of `s` with notices appended, each with the bench clock of `s` and a body that `allowed` allows,
and perhaps the lost flag set (R167, R168). -/
structure Noted (allowed : NoticeBody → Prop) (s u : State) : Prop where
  link : u.link = { s.link with out := u.link.out, lost := u.link.lost }
  out : ∃ ns : List Notice, u.link.out = s.link.out ++ ns.map OutEntry.notice ∧
    ∀ n ∈ ns, n.clock = s.bench.clock ∧ allowed n.body

theorem Noted.of_link {allowed : NoticeBody → Prop} {s u : State} (h : u.link = s.link) : Noted allowed s u :=
  ⟨by rw [h], [], by rw [h]; simp, nofun⟩

theorem Noted.mono {P Q : NoticeBody → Prop} {s u : State} (h : Noted P s u) (le : ∀ b, P b → Q b) : Noted Q s u := by
  obtain ⟨link, ns, out, all⟩ := h
  exact ⟨link, ns, out, fun n mem => ⟨(all n mem).1, le _ (all n mem).2⟩⟩

theorem Noted.trans {allowed : NoticeBody → Prop} {s u v : State} (h : Noted allowed s u) (clock : u.bench.clock = s.bench.clock)
    (k : Noted allowed u v) : Noted allowed s v := by
  obtain ⟨link, ns, out, all⟩ := h
  obtain ⟨link', ns', out', all'⟩ := k
  refine ⟨by rw [link', link], ns ++ ns', by rw [out', out]; simp, fun n mem => ?_⟩
  rcases List.mem_append.mp mem with old | new
  · exact all n old
  · exact ⟨(all' n new).1.trans clock, (all' n new).2⟩

theorem notify_noted {allowed : NoticeBody → Prop} {b : NoticeBody} (h : allowed b) (s : State) : Noted allowed s (notify b s) := by
  rcases notify_cases b s with e | ⟨e, -⟩ | e <;> rw [e]
  · exact Noted.of_link rfl
  · exact ⟨rfl, [⟨s.bench.clock, b⟩], rfl, fun n mem => by rw [List.mem_singleton.mp mem]; exact ⟨rfl, h⟩⟩
  · exact ⟨rfl, [], (List.append_nil _).symm, nofun⟩

/-! ## The source positions at or above a lowered source count (R42) -/

/-- What a position that comes to be at or above the source count becomes. -/
def SrcPos.lowered (x : SrcPos) : SrcPos :=
  match x.state with
  | .closed => x
  | .closing => x
  | .faulted => x.blank .closed none
  | .opn => if x.face.state = .empty ∧ x.lane.state = .empty then x.blank .closed none else { x with state := .closing }

/-- Whether a lowering of the source count reaches a position. -/
def reachesSrc (pr : Profile) (old : Nat) (p : Fin 4) : Prop := pr.sourceCount ≤ p.val ∧ p.val < old

theorem notifySrc_lowered {p : Fin 4} {f : SrcPos → SrcPos} {s : State} (h : s.src[p].lowered = f s.src[p]) :
    notifySrc p (modSrc p f s) =
      notify (.position (.src p) (.source s.src[p].lowered.state) s.src[p].lowered.cause) (modSrc p SrcPos.lowered s) := by
  rw [notifySrc_modSrc, modSrc, h]

/-- One position follows a lowering: it stays, or changes its state with its POSITION notice. -/
theorem followSourceCount_cases (old : Nat) (s : State) (p : Fin 4) :
    (followSourceCount old s p = s ∧ (reachesSrc s.prof.profile old p → s.src[p].lowered = s.src[p])) ∨
    (reachesSrc s.prof.profile old p ∧ s.src[p].lowered.state ≠ s.src[p].state ∧
      followSourceCount old s p = notify (.position (.src p) (.source s.src[p].lowered.state) s.src[p].lowered.cause)
        (modSrc p SrcPos.lowered s)) := by
  unfold followSourceCount
  by_cases reach : s.prof.profile.sourceCount ≤ p.val ∧ p.val < old
  · rw [if_pos reach]
    cases st : s.src[p].state with
    | closed => exact .inl ⟨rfl, fun _ => by simp only [SrcPos.lowered, st]⟩
    | closing => exact .inl ⟨rfl, fun _ => by simp only [SrcPos.lowered, st]⟩
    | faulted =>
      have low : s.src[p].lowered = s.src[p].blank .closed none := by simp only [SrcPos.lowered, st]
      exact .inr ⟨reach, by rw [low]; exact nofun, notifySrc_lowered low⟩
    | opn =>
      by_cases empty : s.src[p].face.state = .empty ∧ s.src[p].lane.state = .empty
      · have low : s.src[p].lowered = s.src[p].blank .closed none := by simp only [SrcPos.lowered, st, if_pos empty]
        have both : s.src[p].bothEmpty = true := (bothEmpty_iff _).mpr empty
        exact .inr ⟨reach, by rw [low]; exact nofun, (if_pos both).trans (notifySrc_lowered low)⟩
      · have low : s.src[p].lowered = s.src[p].putState .closing := by simp only [SrcPos.lowered, st, if_neg empty]; rfl
        have both : ¬ s.src[p].bothEmpty = true := fun h => empty ((bothEmpty_iff _).mp h)
        exact .inr ⟨reach, by rw [low]; exact nofun, (if_neg both).trans (notifySrc_lowered low)⟩
  · exact .inl ⟨if_neg reach, fun h => absurd h reach⟩

/-- All but the source positions and the link stay. -/
structure SrcAndLink (s u : State) : Prop where
  inputs : u.inputs = s.inputs
  offers : u.offers = s.offers
  arb : u.arb = s.arb
  wall : u.wall = s.wall
  put : u.put = s.put
  picker : u.picker = s.picker
  bench : u.bench = s.bench
  prof : u.prof = s.prof
  lines : u.lines = s.lines
  pending : u.pending = s.pending

/-- The positions in `done` have followed a lowering of the source count, the others have not yet. -/
structure SourcesFollowed (old : Nat) (s : State) (done : List (Fin 4)) (u : State) : Prop where
  rest : SrcAndLink s u
  noted : Noted (fun b => ∃ p : Fin 4, u.src[p].state ≠ s.src[p].state ∧
    b = .position (.src p) (.source u.src[p].state) u.src[p].cause) s u
  reached : ∀ p ∈ done, reachesSrc s.prof.profile old p → u.src[p] = s.src[p].lowered
  beyond : ∀ p ∈ done, ¬ reachesSrc s.prof.profile old p → u.src[p] = s.src[p]
  waiting : ∀ p, p ∉ done → u.src[p] = s.src[p]

theorem SourcesFollowed.start (old : Nat) (s : State) : SourcesFollowed old s [] s :=
  ⟨⟨rfl, rfl, rfl, rfl, rfl, rfl, rfl, rfl, rfl, rfl⟩, Noted.of_link rfl, nofun, nofun, fun _ _ => rfl⟩

theorem SourcesFollowed.step {old : Nat} {s u : State} {done : List (Fin 4)} {p : Fin 4}
    (h : SourcesFollowed old s done u) (new : p ∉ done) : SourcesFollowed old s (p :: done) (followSourceCount old u p) := by
  obtain ⟨rest, noted, reached, beyond, waiting⟩ := h
  have prof : u.prof = s.prof := rest.prof
  have here : u.src[p] = s.src[p] := waiting p new
  rcases followSourceCount_cases old u p with ⟨e, stays⟩ | ⟨reach, moved, e⟩
  · rw [e]
    rw [prof, here] at stays
    refine ⟨rest, noted, fun p' mem r => ?_, fun p' mem r => ?_, fun p' out => ?_⟩
    · rcases List.mem_cons.mp mem with rfl | mem
      · exact here.trans (stays r).symm
      · exact reached p' mem r
    · rcases List.mem_cons.mp mem with rfl | mem
      · exact here
      · exact beyond p' mem r
    · exact waiting p' fun mem => out (List.mem_cons_of_mem _ mem)
  · rw [here] at moved e
    rw [prof] at reach
    have self : (modSrc p SrcPos.lowered u).src[p] = s.src[p].lowered := by rw [modSrc_self, here]
    have other : ∀ p', p' ≠ p → (modSrc p SrcPos.lowered u).src[p'] = u.src[p'] := fun p' ne => modSrc_other ne.symm ..
    rw [e]
    refine ⟨?_, ?_, fun p' mem r => ?_, fun p' mem r => ?_, fun p' out => ?_⟩
    · obtain ⟨inputs, offers, arb, wall, put, picker, bench, prof, lines, pending⟩ := rest
      obtain ⟨inputs', offers', arb', -, wall', put', picker', bench', prof', lines', pending'⟩ := notify_frame
        (.position (.src p) (.source s.src[p].lowered.state) s.src[p].lowered.cause)
        (modSrc p SrcPos.lowered u)
      exact ⟨inputs'.trans inputs, offers'.trans offers, arb'.trans arb, wall'.trans wall, put'.trans put,
        picker'.trans picker, bench'.trans bench, prof'.trans prof, lines'.trans lines, pending'.trans pending⟩
    · rw [notify_src]
      have before : Noted (fun b => ∃ p' : Fin 4, (modSrc p SrcPos.lowered u).src[p'].state ≠ s.src[p'].state ∧
          b = .position (.src p') (.source (modSrc p SrcPos.lowered u).src[p'].state) (modSrc p SrcPos.lowered u).src[p'].cause)
          s (modSrc p SrcPos.lowered u) := by
        have carried : Noted (fun b => ∃ p' : Fin 4, u.src[p'].state ≠ s.src[p'].state ∧
            b = .position (.src p') (.source u.src[p'].state) u.src[p'].cause) s (modSrc p SrcPos.lowered u) :=
          ⟨noted.link, noted.out⟩
        refine carried.mono fun b ⟨p', changed, eq⟩ => ⟨p', ?_⟩
        have ne : p' ≠ p := fun eq => changed (by rw [eq, here])
        rw [other p' ne]
        exact ⟨changed, eq⟩
      refine before.trans (congrArg Bench.clock rest.bench) (notify_noted ⟨p, ?_, ?_⟩ _)
      · rwa [self]
      · rw [self]
    all_goals rw [notify_src]
    · rcases List.mem_cons.mp mem with rfl | mem
      · exact self
      · exact (other p' fun eq => new (eq ▸ mem)).trans (reached p' mem r)
    · rcases List.mem_cons.mp mem with rfl | mem
      · exact absurd reach r
      · exact (other p' fun eq => new (eq ▸ mem)).trans (beyond p' mem r)
    · exact (other p' fun eq => out (eq ▸ List.mem_cons_self ..)).trans
        (waiting p' fun mem => out (List.mem_cons_of_mem _ mem))

theorem SourcesFollowed.foldl {old : Nat} {s : State} : ∀ {ps done : List (Fin 4)} {u : State},
    SourcesFollowed old s done u → (ps.reverse ++ done).Nodup →
      SourcesFollowed old s (ps.reverse ++ done) (ps.foldl (followSourceCount old) u)
  | [], _, _, h, _ => h
  | p :: ps, done, u, h, nodup => by
    have shift : (p :: ps).reverse ++ done = ps.reverse ++ (p :: done) := by simp
    rw [shift] at nodup ⊢
    exact SourcesFollowed.foldl (h.step (List.nodup_cons.mp nodup.of_append_right).1) nodup

/-- Every position has followed a lowering of the source count. -/
theorem sourcesFollowed (old : Nat) (s : State) :
    SourcesFollowed old s srcIndices.reverse (srcIndices.foldl (followSourceCount old) s) := by
  have all := (SourcesFollowed.start old s).foldl (ps := srcIndices) (by decide)
  rwa [List.append_nil] at all

/-! ## The order positions at or above a lowered order count (R76) -/

/-- Whether a lowering of the order count closes a position. -/
def reachesOrd (pr : Profile) (old : Nat) (s : State) (q : Fin 12) : Prop :=
  pr.orderCount < old ∧ pr.orderCount ≤ q.val ∧ (s.wall.pos[q].state = .empty ∨ s.wall.pos[q].state = .faulted)

/-- The notices that the closing of an order position gives. -/
def closingNotice (s : State) (q : Fin 12) (b : NoticeBody) : Prop :=
  b = .position (.ord q) (.order .closed) none ∨ ∃ r : Rec, s.wall.pos[q].record = some r ∧
    b = .wall q (some (r.ref, r.tote)) (.released r.comps true none)

/-- All but the order positions and the link stay. -/
structure WallAndLink (s u : State) : Prop where
  inputs : u.inputs = s.inputs
  offers : u.offers = s.offers
  arb : u.arb = s.arb
  src : u.src = s.src
  counter : u.wall.counter = s.wall.counter
  put : u.put = s.put
  picker : u.picker = s.picker
  bench : u.bench = s.bench
  prof : u.prof = s.prof
  lines : u.lines = s.lines
  pending : u.pending = s.pending

theorem WallAndLink.trans {s u v : State} (h : WallAndLink s u) (k : WallAndLink u v) : WallAndLink s v :=
  ⟨k.inputs.trans h.inputs, k.offers.trans h.offers, k.arb.trans h.arb, k.src.trans h.src, k.counter.trans h.counter,
    k.put.trans h.put, k.picker.trans h.picker, k.bench.trans h.bench, k.prof.trans h.prof, k.lines.trans h.lines,
    k.pending.trans h.pending⟩

theorem notify_wallAndLink (b : NoticeBody) (s : State) : WallAndLink s (notify b s) := by
  obtain ⟨inputs, offers, arb, src, wall, put, picker, bench, prof, lines, pending⟩ := notify_frame b s
  exact ⟨inputs, offers, arb, src, by rw [wall], put, picker, bench, prof, lines, pending⟩

theorem modOrd_wallAndLink (q : Fin 12) (f : OrdPos → OrdPos) (s : State) : WallAndLink s (modOrd q f s) :=
  ⟨rfl, rfl, rfl, rfl, rfl, rfl, rfl, rfl, rfl, rfl, rfl⟩

/-- An order position that is closed: its items, its POSITION notice, and nothing else. -/
theorem closeOrd_spec (q : Fin 12) (s : State) : WallAndLink s (closeOrd q s) ∧
    (closeOrd q s).wall = (modOrd q OrdPos.shutDown s).wall ∧
    Noted (fun b => b = .position (.ord q) (.order .closed) none) s (closeOrd q s) := by
  have note : closeOrd q s = notify (.position (.ord q) (.order .closed) none) (modOrd q OrdPos.shutDown s) := by
    rw [closeOrd, notifyOrd, modOrd_self] <;> rfl
  have said : Noted (fun b => b = .position (.ord q) (.order .closed) none) (modOrd q OrdPos.shutDown s)
      (notify (.position (.ord q) (.order .closed) none) (modOrd q OrdPos.shutDown s)) :=
    notify_noted (allowed := fun b => b = .position (.ord q) (.order .closed) none) rfl _
  rw [note]
  exact ⟨(modOrd_wallAndLink ..).trans (notify_wallAndLink ..), notify_wall ..,
    (Noted.of_link rfl : Noted _ s (modOrd q OrdPos.shutDown s)).trans rfl said⟩

/-- The same for a FAULTED position, whose record is given up first. -/
theorem closeFaultedOrd_spec (q : Fin 12) (s : State) : WallAndLink s (closeFaultedOrd q s) ∧
    (closeFaultedOrd q s).wall = (modOrd q OrdPos.shutDown s).wall ∧
    Noted (closingNotice s q) s (closeFaultedOrd q s) := by
  unfold closeFaultedOrd
  cases e : s.wall.pos[q].record with
  | none =>
    obtain ⟨rest, wall, noted⟩ := closeOrd_spec q s
    exact ⟨rest, wall, noted.mono fun _ => .inl⟩
  | some r =>
    have released : notifyReleased q true s = notify (.wall q (some (r.ref, r.tote)) (.released r.comps true none)) s := by
      simp only [notifyReleased, notifyWall, e, Option.map_some]
    obtain ⟨rest, wall, noted⟩ := closeOrd_spec q (notifyReleased q true s)
    have noted' : Noted (closingNotice s q) (notifyReleased q true s) (closeOrd q (notifyReleased q true s)) :=
      noted.mono fun _ => .inl
    rw [released] at rest wall noted'
    rw [Option.isSome_some, if_pos rfl, released]
    refine ⟨(notify_wallAndLink ..).trans rest, ?_, (notify_noted (.inr ⟨r, e, rfl⟩) s).trans ?_ noted'⟩
    · rw [wall, modOrd_wall, modOrd_wall, notify_wall]
    · rw [notify_bench]

/-- One position follows a lowering: it stays, or is closed with its notices. -/
theorem followOrderCount_cases (old : Nat) (s : State) (q : Fin 12) :
    (followOrderCount old s q = s ∧ ¬ reachesOrd s.prof.profile old s q) ∨
    (reachesOrd s.prof.profile old s q ∧ WallAndLink s (followOrderCount old s q) ∧
      (followOrderCount old s q).wall = (modOrd q OrdPos.shutDown s).wall ∧
      Noted (closingNotice s q) s (followOrderCount old s q)) := by
  unfold followOrderCount
  by_cases reach : s.prof.profile.orderCount < old ∧ s.prof.profile.orderCount ≤ q.val
  · rw [if_pos reach]
    obtain ⟨rest, wall, noted⟩ := closeOrd_spec q s
    cases st : s.wall.pos[q].state
    case empty => exact .inr ⟨⟨reach.1, reach.2, .inl st⟩, rest, wall, noted.mono fun _ => .inl⟩
    case faulted => exact .inr ⟨⟨reach.1, reach.2, .inr st⟩, closeFaultedOrd_spec q s⟩
    all_goals
      refine .inl ⟨rfl, fun ⟨_, _, is⟩ => ?_⟩
      rw [st] at is
      exact absurd is (by decide)
  · exact .inl ⟨if_neg reach, fun ⟨low, at', _⟩ => reach ⟨low, at'⟩⟩

/-- The positions in `done` have followed a lowering of the order count, the others have not yet. -/
structure OrdersFollowed (old : Nat) (s : State) (done : List (Fin 12)) (u : State) : Prop where
  rest : WallAndLink s u
  noted : Noted (fun b => ∃ q : Fin 12, reachesOrd s.prof.profile old s q ∧ closingNotice s q b) s u
  reached : ∀ q ∈ done, reachesOrd s.prof.profile old s q → u.wall.pos[q] = s.wall.pos[q].shutDown
  beyond : ∀ q ∈ done, ¬ reachesOrd s.prof.profile old s q → u.wall.pos[q] = s.wall.pos[q]
  waiting : ∀ q, q ∉ done → u.wall.pos[q] = s.wall.pos[q]

theorem OrdersFollowed.start (old : Nat) (s : State) : OrdersFollowed old s [] s :=
  ⟨⟨rfl, rfl, rfl, rfl, rfl, rfl, rfl, rfl, rfl, rfl, rfl⟩, Noted.of_link rfl, nofun, nofun, fun _ _ => rfl⟩

theorem OrdersFollowed.step {old : Nat} {s u : State} {done : List (Fin 12)} {q : Fin 12}
    (h : OrdersFollowed old s done u) (new : q ∉ done) : OrdersFollowed old s (q :: done) (followOrderCount old u q) := by
  obtain ⟨rest, noted, reached, beyond, waiting⟩ := h
  have here : u.wall.pos[q] = s.wall.pos[q] := waiting q new
  have same : reachesOrd u.prof.profile old u q ↔ reachesOrd s.prof.profile old s q := by
    unfold reachesOrd
    rw [rest.prof, here]
  rcases followOrderCount_cases old u q with ⟨e, stays⟩ | ⟨reach, rest', wall, noted'⟩
  · rw [e]
    refine ⟨rest, noted, fun q' mem r => ?_, fun q' mem r => ?_, fun q' out => ?_⟩
    · rcases List.mem_cons.mp mem with rfl | mem
      · exact absurd (same.mpr r) stays
      · exact reached q' mem r
    · rcases List.mem_cons.mp mem with rfl | mem
      · exact here
      · exact beyond q' mem r
    · exact waiting q' fun mem => out (List.mem_cons_of_mem _ mem)
  · have self : (followOrderCount old u q).wall.pos[q] = s.wall.pos[q].shutDown := by rw [wall, modOrd_self, here]
    have other : ∀ q', q' ≠ q → (followOrderCount old u q).wall.pos[q'] = u.wall.pos[q'] := fun q' ne => by
      rw [wall, modOrd_getElem, if_neg ne.symm]
    have said : ∀ b, closingNotice u q b → ∃ q : Fin 12, reachesOrd s.prof.profile old s q ∧ closingNotice s q b :=
      fun b h => ⟨q, same.mp reach, by unfold closingNotice at h ⊢; rwa [here] at h⟩
    refine ⟨rest.trans rest', noted.trans (congrArg Bench.clock rest.bench) (noted'.mono said), fun q' mem r => ?_,
      fun q' mem r => ?_, fun q' out => ?_⟩
    · rcases List.mem_cons.mp mem with rfl | mem
      · exact self
      · exact (other q' fun eq => new (eq ▸ mem)).trans (reached q' mem r)
    · rcases List.mem_cons.mp mem with rfl | mem
      · exact absurd (same.mp reach) r
      · exact (other q' fun eq => new (eq ▸ mem)).trans (beyond q' mem r)
    · exact (other q' fun eq => out (eq ▸ List.mem_cons_self ..)).trans
        (waiting q' fun mem => out (List.mem_cons_of_mem _ mem))

theorem OrdersFollowed.foldl {old : Nat} {s : State} : ∀ {qs done : List (Fin 12)} {u : State},
    OrdersFollowed old s done u → (qs.reverse ++ done).Nodup →
      OrdersFollowed old s (qs.reverse ++ done) (qs.foldl (followOrderCount old) u)
  | [], _, _, h, _ => h
  | q :: qs, done, u, h, nodup => by
    have shift : (q :: qs).reverse ++ done = qs.reverse ++ (q :: done) := by simp
    rw [shift] at nodup ⊢
    exact OrdersFollowed.foldl (h.step (List.nodup_cons.mp nodup.of_append_right).1) nodup

/-- Every order position has followed a lowering of the order count. -/
theorem ordersFollowed (old : Nat) (s : State) :
    OrdersFollowed old s ordIndices.reverse (ordIndices.foldl (followOrderCount old) s) := by
  have all := (OrdersFollowed.start old s).foldl (qs := ordIndices) (by decide)
  rwa [List.append_nil] at all

/-! ## PROFILE-SET -/

theorem reached_eq (old : Nat) (s : State) (p : Fin 4) : (srcIndices.foldl (followSourceCount old) s).src[p] = s.src[p] ∨
    (srcIndices.foldl (followSourceCount old) s).src[p] = s.src[p].lowered := by
  obtain ⟨-, -, reached, beyond, -⟩ := sourcesFollowed old s
  have all : p ∈ srcIndices.reverse := List.mem_reverse.mpr (mem_srcIndices p)
  by_cases r : reachesSrc s.prof.profile old p
  · exact .inr (reached p all r)
  · exact .inl (beyond p all r)

/-- The hand-over of a lowered lane depth, before the arbitration (R42). -/
theorem followDepth_foldl (s : State) : srcIndices.foldl followDepth s = { s with src := (srcIndices.foldl followDepth s).src } ∧
    ∀ p : Fin 4, (srcIndices.foldl followDepth s).src[p] = s.src[p].synced s.prof.profile.laneDepth[p] := by
  refine ⟨rfl, fun p => ?_⟩
  simp only [srcIndices, List.foldl_cons, List.foldl_nil, followDepth, modSrc_getElem, modSrc_prof]
  fin_cases p <;> simp

theorem synced_eq (x : SrcPos) (d : Nat) :
    x.synced d = { x with depth := if x.lane.state = .empty then d else x.depth } := by
  unfold SrcPos.synced
  split_ifs <;> rfl

/-- The rows of PROFILE-SET that set nothing, and the one that does (R146). -/
theorem ownProfileSet_rows (r : Request) (f? : Option ProfileField) (v : List Byte) (s : State) :
    (s.prof.storing = true → ownProfileSet r (f?, v) s = answer r .busy s) ∧
    (s.prof.storing = false → lockDenies s.prof.effLock s.inputs.key = true → ownProfileSet r (f?, v) s = answer r .denied s) ∧
    (s.prof.storing = false → lockDenies s.prof.effLock s.inputs.key = false →
      (f? = none → ownProfileSet r (f?, v) s = answer r .range s) ∧
      ∀ f, f? = some f →
        (f.drained = true → (s.bench.mode = .service ∨ s.bench.mode = .draining) →
          ownProfileSet r (f?, v) s = answer r .busy s) ∧
        (f.drained = false ∨ (s.bench.mode ≠ .service ∧ s.bench.mode ≠ .draining) →
          (f.store v s.prof.profile = none → ownProfileSet r (f?, v) s = answer r .range s) ∧
          ∀ p clamped, f.store v s.prof.profile = some (p, clamped) → ownProfileSet r (f?, v) s =
            answer r (if clamped then .clamped (.profileValue (f.read p)) else .ok (.profileValue (f.read p)))
              (handChange f s.prof.profile (setProfile p s)))) := by
  refine ⟨fun busy => if_pos busy, fun still denied => (if_neg (Bool.eq_false_iff.mp still)).trans (if_pos denied),
    fun still admitted => ?_⟩
  have unlocked : ¬ s.prof.storing = true ∧ ¬ lockDenies s.prof.effLock s.inputs.key = true :=
    ⟨Bool.eq_false_iff.mp still, Bool.eq_false_iff.mp admitted⟩
  refine ⟨fun unknown => ?_, fun f known => ⟨fun drained mode => ?_, fun free => ?_⟩⟩
  · simp only [ownProfileSet, if_neg unlocked.1, if_neg unlocked.2, unknown]
  · simp only [ownProfileSet, if_neg unlocked.1, if_neg unlocked.2, known, if_pos (And.intro drained mode)]
  · have idle : ¬ (f.drained = true ∧ (s.bench.mode = .service ∨ s.bench.mode = .draining)) := by
      rintro ⟨drained, mode⟩
      rcases free with undrained | ⟨notService, notDraining⟩
      · rw [drained] at undrained
        cases undrained
      · exact mode.elim notService notDraining
    refine ⟨fun refused => ?_, fun p clamped taken => ?_⟩
    · simp only [ownProfileSet, if_neg unlocked.1, if_neg unlocked.2, known, if_neg idle, refused]
    · simp only [ownProfileSet, if_neg unlocked.1, if_neg unlocked.2, known, if_neg idle, taken]

/-- The values that the enumerated fields take and refuse (R147). -/
theorem enumeratedFields (v : List Byte) (p : Profile) :
    let takes := fun (f : ProfileField) (x : ProfileValue) => ∃ p' : Profile, f.store v p = some (p', false) ∧
      f.read p' = x ∧ ∀ g : ProfileField, g ≠ f → g.read p' = g.read p
    let bits := v.map fun b => b == 1
    ((∀ b ∈ v, b = 0 ∨ b = 1) →
      (v.length = 4 → takes .coldCapable (.flags bits) ∧ takes .laneDepth (.nums (v.map BitVec.toNat))) ∧
      (v.length = 6 → takes .mask (.flags bits)) ∧
      (v.length = 1 → takes .rotate (.flag (bits == [true])) ∧ takes .coldAlternation (.flag (bits == [true])))) ∧
    (v = [0] → takes .lock (.lock .opn)) ∧ (v = [1] → takes .lock (.lock .keyed)) ∧
    (v = [3] → takes .lock (.lock .fixed)) := by
  intro takes bits
  refine ⟨fun good => ⟨fun len => ?_, fun len => ?_, fun len => ?_⟩, fun e => ?_, fun e => ?_, fun e => ?_⟩
  · obtain ⟨a, b, c, d, e⟩ := List.length_eq_four.mp len
    obtain ⟨four, -, -⟩ := store_of_entries good p
    obtain ⟨cold, depth⟩ := four a b c d e
    refine ⟨⟨_, cold, ?_, onlyField_coldCapable _ p⟩, ⟨_, depth, ?_, onlyField_laneDepth _ p⟩⟩ <;> (subst e; rfl)
  · obtain ⟨a, b, c, d, e, g, eq⟩ : ∃ a b c d e g, v = [a, b, c, d, e, g] :=
      match v, len with
      | [a, b, c, d, e, g], _ => ⟨a, b, c, d, e, g, rfl⟩
    obtain ⟨-, six, -⟩ := store_of_entries good p
    exact ⟨_, six a b c d e g eq, by subst eq; rfl, onlyField_mask _ p⟩
  · obtain ⟨a, e⟩ := List.length_eq_one_iff.mp len
    obtain ⟨-, -, one⟩ := store_of_entries good p
    obtain ⟨rotate, alternation⟩ := one a e
    have flag : (bits == [true]) = (a == 1) := by
      subst e
      show ([a == 1] == [true]) = (a == 1)
      cases a == 1 <;> rfl
    rw [flag]
    exact ⟨⟨_, rotate, rfl, onlyField_rotate _ p⟩, ⟨_, alternation, rfl, onlyField_coldAlternation _ p⟩⟩
  all_goals
    subst e
    exact ⟨_, store_lock p, rfl, onlyField_lock _ p⟩

/-- Settles O46. -/
theorem profileSetChecksThenSets : Obligations.ProfileSetChecksThenSets := by
  unfold Obligations.ProfileSetChecksThenSets
  refine ⟨⟨fun s r f? v h body => ?_, fun f lo hi v p range => ?_, fun v p => ?_⟩, fun s old => ?_⟩
  · intro u
    have runs : exec .profileSet s = .next (ownProfileSet r (f?, v) u) := live_runRequest h (.inl rfl) body
    rw [runs]
    obtain ⟨busy, denied, sets⟩ := ownProfileSet_rows r f? v u
    refine ⟨fun storing => congrArg _ (busy storing), fun still lock => congrArg _ (denied still lock), fun still lock => ?_⟩
    obtain ⟨unknown, known⟩ := sets still lock
    refine ⟨fun e => congrArg _ (unknown e), fun f e => ?_⟩
    obtain ⟨drained, rest⟩ := known f e
    refine ⟨fun d m => congrArg _ (drained d m), fun free => ?_⟩
    obtain ⟨refused, taken⟩ := rest free
    exact ⟨fun e => congrArg _ (refused e), fun p clamped e => congrArg _ (taken p clamped e)⟩
  · intro n x
    have le := range_le range
    have clamped : clampTo lo hi n = (x, decide (n < lo ∨ hi < n)) := clampTo_eq lo hi n
    have stored := store_of_range range v p
    rw [show u16At v 0 = n from rfl, clamped] at stored
    have bounds : lo ≤ x ∧ x ≤ hi := by
      simp only [x]
      split_ifs <;> omega
    exact ⟨_, stored, read_setNum_self range x p, bounds.1, bounds.2, fun g ne => read_setNum_of_ne ne x p⟩
  · intro takes bits
    obtain ⟨entries, opn, keyed, fixed⟩ := enumeratedFields v p
    refine ⟨fun f n field len bad => store_of_badEntry p field len bad, entries, fun l named perm => ?_,
      fun len bad => store_badLadder len bad p, opn, keyed, fixed, fun b e h0 h1 h3 => ?_⟩
    · exact ⟨_, store_ladder named perm p, rfl, onlyField_ladder _ p⟩
    · rw [e, store_lock, lockOf_eq_none h0 h1 h3]
      rfl
  · intro pr
    obtain ⟨restSrc, notedSrc, reachedSrc, beyondSrc, -⟩ := sourcesFollowed old.sourceCount s
    obtain ⟨restOrd, notedOrd, reachedOrd, beyondOrd, -⟩ := ordersFollowed old.orderCount s
    refine ⟨rfl, ?_, ?_, rfl, ?_, ?_, ?_, ?_⟩
    · simp only [List.forall_mem_cons, List.not_mem_nil, false_imp_iff, implies_true, and_true]
      exact ⟨rfl, rfl, rfl, rfl, rfl, rfl⟩
    · simp only [List.forall_mem_cons, List.not_mem_nil, false_imp_iff, implies_true, and_true]
      exact ⟨rfl, rfl, rfl⟩
    · simp only [List.forall_mem_cons, List.not_mem_nil, false_imp_iff, implies_true, and_true]
      exact ⟨rfl, rfl, rfl, rfl, rfl, rfl, rfl, rfl, rfl, rfl, rfl, rfl⟩
    · obtain ⟨frame, depth⟩ := followDepth_foldl s
      exact ⟨_, rfl, frame, fun p => (depth p).trans (synced_eq ..)⟩
    · refine ⟨_, rfl, ?_, notedSrc.out, fun p => ?_⟩
      · exact State.eq_of_fields restSrc.inputs notedSrc.link restSrc.offers restSrc.arb rfl restSrc.wall restSrc.put
          restSrc.picker restSrc.bench restSrc.prof restSrc.lines restSrc.pending
      · intro x blank
        have all : p ∈ srcIndices.reverse := List.mem_reverse.mpr (mem_srcIndices p)
        refine ⟨fun out => beyondSrc p all fun ⟨ge, lt⟩ => ?_, fun ge lt => (reachedSrc p all ⟨ge, lt⟩).trans ?_⟩
        · exact out.elim (Nat.not_lt.mpr ge) (Nat.not_le.mpr lt)
        · show x.lowered = _
          unfold SrcPos.lowered
          cases x.state <;> rfl
    · intro u
      refine ⟨?_, ?_, fun q => ?_⟩
      · exact State.eq_of_fields restOrd.inputs notedOrd.link restOrd.offers restOrd.arb restOrd.src
          (Wall.eq_of_fields rfl restOrd.counter) restOrd.put restOrd.picker restOrd.bench restOrd.prof restOrd.lines
          restOrd.pending
      · obtain ⟨ns, out, all⟩ := notedOrd.out
        refine ⟨ns, out, fun n mem => ?_⟩
        obtain ⟨clock, q, reach, body⟩ := all n mem
        refine ⟨clock, q, ?_, body⟩
        have closed : u.wall.pos[q].state = .closed :=
          congrArg OrdPos.state (reachedOrd q (List.mem_reverse.mpr (mem_ordIndices q)) reach)
        rw [closed]
        rcases reach.2.2 with st | st <;> rw [st] <;> decide
      · have all : q ∈ ordIndices.reverse := List.mem_reverse.mpr (mem_ordIndices q)
        by_cases reach : reachesOrd s.prof.profile old.orderCount s q
        · exact (reachedOrd q all reach).trans (if_pos reach).symm
        · exact (beyondOrd q all reach).trans (if_neg reach).symm

end Sys2Proof.Machine

namespace Sys2Proof.Machine

/-!
The logic inputs HOLD and KEY (R131, R132, R154): the lights of the lit cycle and the remove lights, position by position.
-/

/-! ## Orders on the field lines -/

theorem lineOf_injective : Function.Injective lineOf := by
  intro a b h
  cases a <;> cases b <;> simp only [lineOf, Fin.mk.injEq] at h
  · exact congrArg _ (Fin.ext h)
  · omega
  · omega
  · exact congrArg _ (Fin.ext (by omega))

/-- An order for a position reaches its line alone, and not while the position is FAULTED (R157). -/
theorem handOrder_line {o : Order} (notSurvey : o ≠ .survey) (pos pos' : Pos) (s : State) :
    (handOrder pos o s).lines[lineOf pos'] =
      if pos = pos' then
        if isFaulted pos s then s.lines[lineOf pos'] else FieldLine.hand o false s.lines[lineOf pos']
      else s.lines[lineOf pos'] := by
  have other : (o != .survey) = true := bne_iff_ne.mpr notSurvey
  unfold handOrder
  rw [other, Bool.and_true]
  by_cases faulted : isFaulted pos s = true
  · simp only [faulted, if_true, ite_self]
  · simp only [Bool.not_eq_true] at faulted
    simp only [faulted, Bool.false_eq_true, if_false, modLine_getElem, lineOf_injective.eq_iff]

theorem handLight_line (pos pos' : Pos) (d : Display) (w : Show) (s : State) :
    (handOrder pos (.light d w) s).lines[lineOf pos'] =
      if pos = pos' then
        if isFaulted pos s then s.lines[lineOf pos'] else FieldLine.hand (.light d w) false s.lines[lineOf pos']
      else s.lines[lineOf pos'] :=
  handOrder_line (o := .light d w) nofun pos pos' s

/-- Two LIGHT orders, for the source display and the target compartment of a cycle. -/
def twoLights (c : Cycle) (w w' : Show) (s : State) : State := lightTarget c w' (lightSource c w s)

theorem showCycle_eq (c : Cycle) (s : State) : showCycle c s = twoLights c c.sourceShow c.targetShow s := rfl

theorem darkCycle_eq (c : Cycle) (s : State) : darkCycle c none s = twoLights c .dark .dark s := rfl

theorem twoLights_frame (c : Cycle) (w w' : Show) (s : State) : let t := twoLights c w w' s
    t.src = s.src ∧ t.wall = s.wall ∧ t.bench = s.bench ∧ t.offers = s.offers ∧ t.arb = s.arb ∧ t.prof = s.prof ∧
    t.put = s.put ∧ t.picker = s.picker ∧ t.link = s.link ∧ t.inputs = s.inputs ∧ t.pending = s.pending := by
  simp [twoLights, lightTarget, lightSource]

theorem twoLights_lineSrc (c : Cycle) (w w' : Show) (s : State) (p : Fin 4) :
    (twoLights c w w' s).lines[lineOf (.src p)] = if c.src = p then
      if isFaulted (.src p) s then s.lines[lineOf (.src p)]
      else FieldLine.hand (.light .source w) false s.lines[lineOf (.src p)]
      else s.lines[lineOf (.src p)] := by
  unfold twoLights lightTarget lightSource
  rw [handLight_line, if_neg nofun, handLight_line]
  by_cases e : c.src = p
  · subst e
    rw [if_pos rfl, if_pos rfl]
  · rw [if_neg e, if_neg fun h => e (Pos.src.inj h)]

theorem twoLights_lineOrd (c : Cycle) (w w' : Show) (s : State) (q : Fin 12) :
    (twoLights c w w' s).lines[lineOf (.ord q)] = if c.tgt = q then
      if isFaulted (.ord q) s then s.lines[lineOf (.ord q)]
      else FieldLine.hand (.light (.comp c.comp) w') false s.lines[lineOf (.ord q)]
      else s.lines[lineOf (.ord q)] := by
  have before : ∀ q : Fin 12, (lightSource c w s).lines[lineOf (.ord q)] = s.lines[lineOf (.ord q)] := fun q => by
    rw [lightSource, handLight_line, if_neg nofun]
  have faulted : ∀ q : Fin 12, isFaulted (.ord q) (lightSource c w s) = isFaulted (.ord q) s := fun q => by
    rw [lightSource]
    simp only [isFaulted, handOrder_wall]
  rw [twoLights, lightTarget, handLight_line, before, faulted]
  by_cases e : c.tgt = q
  · subst e
    rw [if_pos rfl, if_pos rfl]
  · rw [if_neg e, if_neg fun h => e (Pos.ord.inj h)]

/-! ## A change made at every order position and its line -/

/-- Change an order position, and its line by what the position was. -/
def atOrd (f : OrdPos → OrdPos) (g : OrdPos → FieldLine → FieldLine) (s : State) (q : Fin 12) : State :=
  modLine (lineOf (.ord q)) (g s.wall.pos[q]) (modOrd q f s)

/-- The order positions in `done` and their lines have been changed, nothing else has. -/
structure ChangedOrds (f : OrdPos → OrdPos) (g : OrdPos → FieldLine → FieldLine) (s : State) (done : List (Fin 12))
    (u : State) : Prop where
  rest : u = { s with wall := { s.wall with pos := u.wall.pos }, lines := u.lines }
  changed : ∀ q ∈ done, u.wall.pos[q] = f s.wall.pos[q] ∧
    u.lines[lineOf (.ord q)] = g s.wall.pos[q] s.lines[lineOf (.ord q)]
  same : ∀ q, q ∉ done → u.wall.pos[q] = s.wall.pos[q] ∧ u.lines[lineOf (.ord q)] = s.lines[lineOf (.ord q)]
  sources : ∀ p : Fin 4, u.lines[lineOf (.src p)] = s.lines[lineOf (.src p)]

theorem ChangedOrds.step {f : OrdPos → OrdPos} {g : OrdPos → FieldLine → FieldLine} {s u : State} {done : List (Fin 12)}
    {q : Fin 12} (h : ChangedOrds f g s done u) (new : q ∉ done) : ChangedOrds f g s (q :: done) (atOrd f g u q) := by
  obtain ⟨rest, changed, same, sources⟩ := h
  have pos : ∀ q', (atOrd f g u q).wall.pos[q'] = if q = q' then f u.wall.pos[q'] else u.wall.pos[q'] :=
    fun q' => modOrd_getElem q q' f u
  have line : ∀ i : Fin 16, (atOrd f g u q).lines[i] = if lineOf (.ord q) = i then g u.wall.pos[q] u.lines[i] else u.lines[i] :=
    fun i => modLine_getElem _ i _ _
  refine ⟨?_, fun q' mem => ?_, fun q' out => ?_, fun p => ?_⟩
  · rw [rest]
    rfl
  · rw [pos, line]
    by_cases e : q = q'
    · subst e
      rw [if_pos rfl, if_pos rfl, (same q new).1, (same q new).2]
      exact ⟨rfl, rfl⟩
    · rw [if_neg e, if_neg fun h => e (Pos.ord.inj (lineOf_injective h))]
      exact changed q' ((List.mem_cons.mp mem).resolve_left (Ne.symm e))
  · have e : q ≠ q' := fun e => out (e ▸ List.mem_cons_self ..)
    rw [pos, line, if_neg e, if_neg fun h => e (Pos.ord.inj (lineOf_injective h))]
    exact same q' fun mem => out (List.mem_cons_of_mem _ mem)
  · rw [line, if_neg fun h => Pos.noConfusion (lineOf_injective h)]
    exact sources p

theorem ChangedOrds.foldl {f : OrdPos → OrdPos} {g : OrdPos → FieldLine → FieldLine} {s : State} :
    ∀ {qs done : List (Fin 12)} {u : State}, ChangedOrds f g s done u → (qs.reverse ++ done).Nodup →
      ChangedOrds f g s (qs.reverse ++ done) (qs.foldl (atOrd f g) u)
  | [], _, _, h, _ => h
  | q :: qs, done, u, h, nodup => by
    have shift : (q :: qs).reverse ++ done = qs.reverse ++ (q :: done) := by simp
    rw [shift] at nodup ⊢
    exact ChangedOrds.foldl (h.step (List.nodup_cons.mp nodup.of_append_right).1) nodup

/-- The change made at every order position. -/
theorem foldl_atOrd (f : OrdPos → OrdPos) (g : OrdPos → FieldLine → FieldLine) (s : State) :
    let u := ordIndices.foldl (atOrd f g) s
    u = { s with wall := { s.wall with pos := u.wall.pos }, lines := u.lines } ∧
    (∀ q : Fin 12, u.wall.pos[q] = f s.wall.pos[q] ∧ u.lines[lineOf (.ord q)] = g s.wall.pos[q] s.lines[lineOf (.ord q)]) ∧
    ∀ p : Fin 4, u.lines[lineOf (.src p)] = s.lines[lineOf (.src p)] := by
  have start : ChangedOrds f g s [] s := ⟨rfl, nofun, fun _ _ => ⟨rfl, rfl⟩, fun _ => rfl⟩
  obtain ⟨rest, changed, -, sources⟩ := start.foldl (qs := ordIndices) (by decide)
  exact ⟨rest, fun q => changed q (by simp [mem_ordIndices]), sources⟩

/-! ## The remove lights -/

/-- The dark LIGHT order that a remove light gets as it goes off. -/
def darkened (x : OrdPos) (l : FieldLine) : FieldLine :=
  if x.removeLight then if x.state = .faulted then l else FieldLine.hand (.light .all .dark) false l else l

theorem modOrd_of_eq {q : Fin 12} {f : OrdPos → OrdPos} {s : State} (h : f s.wall.pos[q] = s.wall.pos[q]) :
    modOrd q f s = s := by
  have pos : s.wall.pos.set q (f s.wall.pos[q]) = s.wall.pos := by rw [h]; exact Vector.set_getElem_self ..
  rw [modOrd, pos]

theorem modLine_of_eq {i : Fin 16} {f : FieldLine → FieldLine} {s : State} (h : f s.lines[i] = s.lines[i]) :
    modLine i f s = s := by
  have lines : s.lines.set i (f s.lines[i]) = s.lines := by rw [h]; exact Vector.set_getElem_self ..
  rw [modLine, lines]

theorem lightOff_eq (s : State) (q : Fin 12) : lightOff q s = atOrd (OrdPos.setLight false) darkened s q := by
  unfold lightOff atOrd
  by_cases on : s.wall.pos[q].removeLight = true
  · have state : (modOrd q (OrdPos.setLight false) s).wall.pos[q].state = s.wall.pos[q].state := by rw [modOrd_self]; rfl
    rw [if_pos on]
    by_cases faulted : s.wall.pos[q].state = .faulted
    · have out : isFaulted (.ord q) (modOrd q (OrdPos.setLight false) s) = true := beq_iff_eq.mpr (state.trans faulted)
      refine (if_pos (by rw [out]; rfl)).trans (modLine_of_eq ?_).symm
      simp only [darkened, if_pos on, if_pos faulted]
    · have sound : isFaulted (.ord q) (modOrd q (OrdPos.setLight false) s) = false :=
        beq_eq_false_iff_ne.mpr fun h => faulted (state.symm.trans h)
      rw [handOrder_of_sound sound]
      congr 1
      funext l
      simp only [darkened, on, if_true, if_neg faulted]
  · have off : OrdPos.setLight false s.wall.pos[q] = s.wall.pos[q] := by
      rw [Bool.not_eq_true] at on
      rw [OrdPos.setLight, ← on]
    rw [if_neg on, modOrd_of_eq off, modLine_of_eq]
    simp only [darkened, if_neg on]

/-- Whether the remove light of a position is to be restored: its record is a misput, and it is ACTIVE (R86). -/
def OrdPos.toRestore (x : OrdPos) : Bool := decide (x.state = .active) && x.record.any fun r => r.misput

theorem toRestore_iff (x : OrdPos) :
    x.toRestore = true ↔ x.state = .active ∧ ∃ r, x.record = some r ∧ r.misput = true := by
  rw [OrdPos.toRestore, Bool.and_eq_true, decide_eq_true_eq, Option.any_eq_true]

/-- A position whose remove light is restored, and the LIGHT order for it. -/
def OrdPos.restored (x : OrdPos) : OrdPos := if x.toRestore then x.setLight true else x

def restoredLine (x : OrdPos) (l : FieldLine) : FieldLine :=
  if x.toRestore then FieldLine.hand (.light .all .removeAll) false l else l

theorem restoreLight_eq {s : State} (free : s.picker.cond ≠ .held) (q : Fin 12) :
    restoreLight s q = atOrd OrdPos.restored restoredLine s q := by
  unfold restoreLight atOrd
  by_cases mark : s.wall.pos[q].toRestore = true
  · obtain ⟨state, x, record, misput⟩ := (toRestore_iff _).mp mark
    have sound : isFaulted (.ord q) (modOrd q (OrdPos.setLight true) s) = false := by
      refine beq_eq_false_iff_ne.mpr ?_
      rw [modOrd_self]
      show s.wall.pos[q].state ≠ .faulted
      rw [state]
      decide
    have marked : s.wall.pos[q].record.any (fun r => r.misput) = true := by rw [record]; exact misput
    have pos : modOrd q OrdPos.restored s = modOrd q (OrdPos.setLight true) s := by
      rw [modOrd, modOrd, OrdPos.restored, if_pos mark]
    have line : restoredLine s.wall.pos[q] = FieldLine.hand (.light .all .removeAll) false := by
      funext l
      exact if_pos mark
    rw [if_pos ⟨state, marked⟩, lightOn, if_neg free, handOrder_of_sound sound, pos, line]
  · have unmarked : ¬ (s.wall.pos[q].state = .active ∧ s.wall.pos[q].record.any (fun r => r.misput) = true) :=
      fun ⟨state, h⟩ => mark ((toRestore_iff _).mpr ⟨state, (Option.any_eq_true ..).mp h⟩)
    rw [if_neg unmarked, modOrd_of_eq (f := OrdPos.restored) (if_neg mark),
      modLine_of_eq (f := restoredLine s.wall.pos[q]) (if_neg mark)]

theorem foldl_restoreLight {s : State} (free : s.picker.cond ≠ .held) : ∀ (qs : List (Fin 12)),
    qs.foldl restoreLight s = qs.foldl (atOrd OrdPos.restored restoredLine) s := by
  intro qs
  induction qs generalizing s with
  | nil => rfl
  | cons q qs ih =>
    rw [List.foldl_cons, List.foldl_cons, restoreLight_eq free]
    exact ih (s := atOrd OrdPos.restored restoredLine s q) free

/-! ## HOLD_ON and HOLD_OFF -/

/-- The lit cycle when it shows something at a position. -/
def shownAt (s : State) (pos : Pos) : Option Cycle :=
  s.put.cycle.filter fun c => decide (pos = .src c.src ∨ pos = .ord c.tgt)

/-- A LIGHT order as it reaches the line of a position, which it does not while the position is FAULTED. -/
def sentTo (s : State) (pos : Pos) (o : Order) (l : FieldLine) : FieldLine :=
  if isFaulted pos s then l else FieldLine.hand o false l

/-- The line of a position with the LIGHT order for what the lit cycle shows there, if it shows anything. -/
def withLight (s : State) (pos : Pos) (order : Cycle → Order) (l : FieldLine) : FieldLine :=
  match shownAt s pos with
  | none => l
  | some c => sentTo s pos (order c) l

/-- The two displays of the lit cycle, if there is one, each with what it is to show. -/
def lightCycle (w w' : Cycle → Show) (s : State) : State :=
  match s.put.cycle with
  | none => s
  | some c => twoLights c (w c) (w' c) s

theorem lightCycle_frame (w w' : Cycle → Show) (s : State) : let t := lightCycle w w' s
    t.src = s.src ∧ t.wall = s.wall ∧ t.bench = s.bench ∧ t.offers = s.offers ∧ t.arb = s.arb ∧ t.prof = s.prof ∧
    t.put = s.put ∧ t.picker = s.picker ∧ t.link = s.link ∧ t.inputs = s.inputs ∧ t.pending = s.pending := by
  unfold lightCycle
  split
  · exact ⟨rfl, rfl, rfl, rfl, rfl, rfl, rfl, rfl, rfl, rfl, rfl⟩
  · exact twoLights_frame ..

theorem lightCycle_lineSrc (w w' : Cycle → Show) (s : State) (p : Fin 4) :
    (lightCycle w w' s).lines[lineOf (.src p)] =
      withLight s (.src p) (fun c => .light .source (w c)) s.lines[lineOf (.src p)] := by
  unfold lightCycle withLight shownAt
  cases s.put.cycle with
  | none => rfl
  | some c =>
    dsimp only
    rw [twoLights_lineSrc]
    by_cases e : c.src = p
    · have here : (some c).filter (fun c => decide (Pos.src p = .src c.src ∨ Pos.src p = .ord c.tgt)) = some c :=
        Option.filter_eq_some_iff.mpr ⟨rfl, decide_eq_true (.inl (congrArg _ e.symm))⟩
      rw [if_pos e, here] <;> rfl
    · have gone : (some c).filter (fun c => decide (Pos.src p = .src c.src ∨ Pos.src p = .ord c.tgt)) = none := by
        simp [Ne.symm e]
      rw [if_neg e, gone]

theorem lightCycle_lineOrd (w w' : Cycle → Show) (s : State) (q : Fin 12) :
    (lightCycle w w' s).lines[lineOf (.ord q)] =
      withLight s (.ord q) (fun c => .light (.comp c.comp) (w' c)) s.lines[lineOf (.ord q)] := by
  unfold lightCycle withLight shownAt
  cases s.put.cycle with
  | none => rfl
  | some c =>
    dsimp only
    rw [twoLights_lineOrd]
    by_cases e : c.tgt = q
    · have here : (some c).filter (fun c => decide (Pos.ord q = .src c.src ∨ Pos.ord q = .ord c.tgt)) = some c :=
        Option.filter_eq_some_iff.mpr ⟨rfl, decide_eq_true (.inr (congrArg _ e.symm))⟩
      rw [if_pos e, here] <;> rfl
    · have gone : (some c).filter (fun c => decide (Pos.ord q = .src c.src ∨ Pos.ord q = .ord c.tgt)) = none := by
        simp [Ne.symm e]
      rw [if_neg e, gone]

theorem darkenAll_eq (s : State) : darkenAll s =
    ordIndices.foldl (atOrd (OrdPos.setLight false) darkened) (lightCycle (fun _ => .dark) (fun _ => .dark) s) := by
  have step : (fun s q => lightOff q s) = atOrd (OrdPos.setLight false) darkened := funext₂ lightOff_eq
  unfold darkenAll lightCycle
  rw [step]
  cases s.put.cycle <;> rfl

theorem restoreAll_eq {s : State} (free : s.picker.cond ≠ .held) : restoreAll s =
    ordIndices.foldl (atOrd OrdPos.restored restoredLine) (lightCycle Cycle.sourceShow Cycle.targetShow s) := by
  have picker := (lightCycle_frame Cycle.sourceShow Cycle.targetShow s).2.2.2.2.2.2.2.1
  rw [← foldl_restoreLight (by rwa [picker])]
  unfold restoreAll lightCycle
  cases s.put.cycle <;> rfl

theorem setPicker_frame (c : PickerCond) (k : PickerCause) (s : State) : let t := setPicker c k s
    t.inputs = s.inputs ∧ t.offers = s.offers ∧ t.arb = s.arb ∧ t.src = s.src ∧ t.wall = s.wall ∧ t.put = s.put ∧
    t.picker = { s.picker with cond := c } ∧ t.bench = s.bench ∧ t.prof = s.prof ∧ t.lines = s.lines ∧
    t.pending = s.pending := notify_frame ..

theorem startIdle_picker (s : State) : (startIdle s).picker = { s.picker with
    idleT := if s.put.cycle.isSome ∧ s.picker.cond = .active then some (s.prof.profile.idleTimeout * 10)
      else s.picker.idleT } := by
  unfold startIdle
  split_ifs <;> rfl

theorem startIdle_eq (s : State) : startIdle s = { s with picker := (startIdle s).picker } := by
  unfold startIdle
  split_ifs <;> rfl

theorem shownAt_congr {s a : State} (put : a.put = s.put) (pos : Pos) : shownAt a pos = shownAt s pos := by
  unfold shownAt
  rw [put]

theorem sentTo_congr {s a : State} (src : a.src = s.src) (wall : a.wall = s.wall) (pos : Pos) (o : Order) (l : FieldLine) :
    sentTo a pos o l = sentTo s pos o l := by
  have faulted : isFaulted pos a = isFaulted pos s := by
    cases pos with
    | src p => simp only [isFaulted, src]
    | ord q => simp only [isFaulted, wall]
  unfold sentTo
  rw [faulted]

/-- What HOLD_ON does, on a state whose picker is HELD already: every light goes off (R86). -/
theorem darkenAll_spec (a : State) : let t := darkenAll a
    (t.inputs = a.inputs ∧ t.picker = a.picker ∧ t.put = a.put ∧ t.offers = a.offers ∧ t.src = a.src ∧ t.arb = a.arb ∧
      t.bench = a.bench ∧ t.prof = a.prof ∧ t.pending = a.pending ∧ t.wall.counter = a.wall.counter ∧ t.link = a.link) ∧
    (∀ q : Fin 12, t.wall.pos[q] = a.wall.pos[q].setLight false) ∧
    (∀ p : Fin 4, t.lines[lineOf (.src p)] =
      withLight a (.src p) (fun _ => .light .source .dark) a.lines[lineOf (.src p)]) ∧
    ∀ q : Fin 12, t.lines[lineOf (.ord q)] = darkened a.wall.pos[q] 
      (withLight a (.ord q) (fun c => .light (.comp c.comp) .dark) a.lines[lineOf (.ord q)]) := by
  intro t
  have eq : t = _ := darkenAll_eq a
  obtain ⟨rest, each, sources⟩ := foldl_atOrd (OrdPos.setLight false) darkened
    (lightCycle (fun _ => .dark) (fun _ => .dark) a)
  obtain ⟨src, wall, bench, offers, arb, prof, put, picker, link, inputs, pending⟩ :=
    lightCycle_frame (fun _ => .dark) (fun _ => .dark) a
  have lineSrc := lightCycle_lineSrc (fun _ => .dark) (fun _ => .dark) a
  have lineOrd := lightCycle_lineOrd (fun _ => .dark) (fun _ => .dark) a
  rw [← eq] at rest each sources
  clear_value t
  generalize lightCycle (fun _ => .dark) (fun _ => .dark) a = b at *
  refine ⟨⟨(congrArg State.inputs rest).trans inputs, (congrArg State.picker rest).trans picker,
    (congrArg State.put rest).trans put, (congrArg State.offers rest).trans offers, (congrArg State.src rest).trans src,
    (congrArg State.arb rest).trans arb, (congrArg State.bench rest).trans bench, (congrArg State.prof rest).trans prof,
    (congrArg State.pending rest).trans pending, ?_, (congrArg State.link rest).trans link⟩, fun q => ?_,
    fun p => (sources p).trans (lineSrc p), fun q => ?_⟩
  · refine (congrArg (fun u : State => u.wall.counter) rest).trans ?_
    show b.wall.counter = a.wall.counter
    rw [wall]
  · rw [(each q).1, wall]
  · rw [(each q).2, wall, lineOrd q]

/-- What HOLD_OFF does before its arbitration: every light comes back (R85, R86). -/
theorem restoreAll_spec {a : State} (free : a.picker.cond ≠ .held) : let t := restoreAll a
    (t.inputs = a.inputs ∧ t.picker = a.picker ∧ t.put = a.put ∧ t.offers = a.offers ∧ t.src = a.src ∧ t.arb = a.arb ∧
      t.bench = a.bench ∧ t.prof = a.prof ∧ t.pending = a.pending ∧ t.link = a.link) ∧
    (∀ q : Fin 12, t.wall.pos[q] = a.wall.pos[q].restored) ∧
    (∀ p : Fin 4, t.lines[lineOf (.src p)] =
      withLight a (.src p) (fun c => .light .source c.sourceShow) a.lines[lineOf (.src p)]) ∧
    ∀ q : Fin 12, t.lines[lineOf (.ord q)] = restoredLine a.wall.pos[q] 
      (withLight a (.ord q) (fun c => .light (.comp c.comp) c.targetShow) a.lines[lineOf (.ord q)]) := by
  intro t
  have eq : t = _ := restoreAll_eq free
  obtain ⟨rest, each, sources⟩ := foldl_atOrd OrdPos.restored restoredLine
    (lightCycle Cycle.sourceShow Cycle.targetShow a)
  obtain ⟨src, wall, bench, offers, arb, prof, put, picker, link, inputs, pending⟩ :=
    lightCycle_frame Cycle.sourceShow Cycle.targetShow a
  have lineSrc := lightCycle_lineSrc Cycle.sourceShow Cycle.targetShow a
  have lineOrd := lightCycle_lineOrd Cycle.sourceShow Cycle.targetShow a
  rw [← eq] at rest each sources
  clear_value t
  generalize lightCycle Cycle.sourceShow Cycle.targetShow a = b at *
  refine ⟨⟨(congrArg State.inputs rest).trans inputs, (congrArg State.picker rest).trans picker,
    (congrArg State.put rest).trans put, (congrArg State.offers rest).trans offers, (congrArg State.src rest).trans src,
    (congrArg State.arb rest).trans arb, (congrArg State.bench rest).trans bench, (congrArg State.prof rest).trans prof,
    (congrArg State.pending rest).trans pending, (congrArg State.link rest).trans link⟩, fun q => ?_,
    fun p => (sources p).trans (lineSrc p), fun q => ?_⟩
  · rw [(each q).1, wall]
  · rw [(each q).2, wall, lineOrd q]

theorem withLight_congr {s a : State} (put : a.put = s.put) (src : a.src = s.src) (wall : a.wall = s.wall) (pos : Pos)
    (order : Cycle → Order) (l : FieldLine) : withLight a pos order l = withLight s pos order l := by
  unfold withLight
  rw [shownAt_congr put]
  cases shownAt s pos with
  | none => rfl
  | some c => exact sentTo_congr src wall ..

/-- Settles O49. -/
theorem holdAndKeyInputs : Obligations.HoldAndKeyInputs := by
  unfold Obligations.HoldAndKeyInputs
  refine ⟨fun s b => rfl, fun s off' => ?_⟩
  intro on off lit sent
  have shown : ∀ pos order l, withLight s pos order l = match lit pos with
      | none => l
      | some c => sent pos (order c) l := fun _ _ _ => rfl
  refine ⟨fun held => ?_, fun free => ?_, fun free => ?_, fun held => ?_⟩
  · exact (live_of_off (s := on) off' holdGoesOn).trans (congrArg _ (if_pos held))
  · have runs : exec .holdOn s = .next (darkenAll (setPicker .held .holdOn (stopIdle on))) :=
      (live_of_off (s := on) off' holdGoesOn).trans (congrArg _ (if_neg free))
    obtain ⟨inputs, offers, arb, src, wall, put, picker, bench, prof, lines, pending⟩ :=
      setPicker_frame .held .holdOn (stopIdle on)
    have link : (setPicker .held .holdOn (stopIdle on)).link = (notify (.picker .held s.picker.cond .holdOn) s).link :=
      notify_link_congr (x := putCond .held (stopIdle on)) (y := s) rfl rfl rfl _
    obtain ⟨⟨inputs', picker', put', offers', src', arb', bench', prof', pending', counter', link'⟩, pos, lineSrc, lineOrd⟩ :=
      darkenAll_spec (setPicker .held .holdOn (stopIdle on))
    generalize setPicker .held .holdOn (stopIdle on) = a at *
    generalize darkenAll a = t at *
    have light := fun pos order l => (withLight_congr put src wall pos order l).trans (shown pos order l)
    refine ⟨t, runs, inputs'.trans inputs, picker'.trans picker, put'.trans put, offers'.trans offers, src'.trans src,
      arb'.trans arb, bench'.trans bench, prof'.trans prof, pending'.trans pending, ?_, fun q => ?_, fun p => ?_, fun q => ?_,
      link'.trans link⟩
    · exact counter'.trans (congrArg Wall.counter wall)
    · rw [pos, wall] <;> rfl
    · have line : a.lines[lineOf (.src p)] = s.lines[lineOf (.src p)] := by rw [lines]; rfl
      refine (lineSrc p).trans ((light (.src p) _ _).trans ?_)
      cases lit (.src p) with
      | none => exact line
      | some c => exact congrArg (sent (.src p) _) line
    · intro l
      have line : a.lines[lineOf (.ord q)] = s.lines[lineOf (.ord q)] := by rw [lines]; rfl
      have here : a.wall.pos[q] = s.wall.pos[q] := by rw [wall]; rfl
      have before : withLight a (.ord q) (fun c => .light (.comp c.comp) .dark) a.lines[lineOf (.ord q)] = l := by
        rw [line]
        refine (light (.ord q) _ _).trans ?_
        show _ = match lit (.ord q) with
          | none => s.lines[lineOf (.ord q)]
          | some c => sent (.ord q) (.light (.comp c.comp) .dark) s.lines[lineOf (.ord q)]
        cases lit (.ord q) <;> rfl
      rw [lineOrd, before, here, darkened]
      by_cases faulted : s.wall.pos[q].state = .faulted
      · have out : isFaulted (.ord q) s = true := beq_iff_eq.mpr faulted
        simp only [sent, out, faulted, if_true]
      · have sound : ¬ isFaulted (.ord q) s = true := fun h => faulted (beq_iff_eq.mp h)
        simp only [sent, if_neg sound, if_neg faulted]
  · exact (live_of_off (s := off) off' holdGoesOff).trans (congrArg _ (if_neg free))
  · have runs : exec .holdOff s =
        .next (attempt (arbitrate (restoreAll (startIdle (setPicker .active .holdOff off))))) :=
      (live_of_off (s := off) off' holdGoesOff).trans (congrArg _ (if_pos held))
    obtain ⟨inputs, offers, arb, src, wall, put, picker, bench, prof, lines, pending⟩ :=
      setPicker_frame .active .holdOff off
    have link : (setPicker .active .holdOff off).link = (notify (.picker .active .held .holdOff) s).link := by
      rw [← held]
      exact notify_link_congr (x := putCond .active off) (y := s) rfl rfl rfl _
    generalize setPicker .active .holdOff off = b at *
    have idle := startIdle_eq b
    have idleT := startIdle_picker b
    have cond : b.picker.cond = .active := by rw [picker]
    generalize startIdle b = a at *
    have free : a.picker.cond ≠ .held := by rw [idleT, cond]; decide
    obtain ⟨⟨inputs', picker', put', offers', src', arb', bench', prof', pending', link'⟩, pos, lineSrc, lineOrd⟩ :=
      restoreAll_spec free
    generalize restoreAll a = t at *
    have putA : a.put = s.put := (congrArg State.put idle).trans put
    have srcA : a.src = s.src := (congrArg State.src idle).trans src
    have wallA : a.wall = s.wall := (congrArg State.wall idle).trans wall
    have linesA : a.lines = s.lines := (congrArg State.lines idle).trans lines
    have light := fun pos order l => (withLight_congr putA srcA wallA pos order l).trans (shown pos order l)
    refine ⟨t, runs, inputs'.trans ((congrArg State.inputs idle).trans inputs), ?_, put'.trans putA,
      offers'.trans ((congrArg State.offers idle).trans offers), src'.trans srcA,
      arb'.trans ((congrArg State.arb idle).trans arb), bench'.trans ((congrArg State.bench idle).trans bench),
      prof'.trans ((congrArg State.prof idle).trans prof), pending'.trans ((congrArg State.pending idle).trans pending),
      fun q => ?_, fun p => ?_, link'.trans ((congrArg State.link idle).trans link)⟩
    · rw [picker', idleT, picker, put, prof]
      simp only [and_true]
      rfl
    · intro marked l
      have line : a.lines[lineOf (.ord q)] = s.lines[lineOf (.ord q)] := by rw [linesA]
      have here : a.wall.pos[q] = s.wall.pos[q] := by rw [wallA]
      have before : withLight a (.ord q) (fun c => .light (.comp c.comp) c.targetShow) a.lines[lineOf (.ord q)] = l := by
        rw [line]
        refine (light (.ord q) _ _).trans ?_
        show _ = match lit (.ord q) with
          | none => s.lines[lineOf (.ord q)]
          | some c => sent (.ord q) (.light (.comp c.comp) c.targetShow) s.lines[lineOf (.ord q)]
        cases lit (.ord q) <;> rfl
      rw [pos, lineOrd, before, here, OrdPos.restored, restoredLine]
      have iff : s.wall.pos[q].toRestore = true ↔ marked := toRestore_iff _
      refine ⟨fun yes => ?_, fun no => ?_⟩
      · rw [if_pos (iff.mpr yes), if_pos (iff.mpr yes)]
        exact ⟨rfl, rfl⟩
      · rw [if_neg fun h => no (iff.mp h), if_neg fun h => no (iff.mp h)]
        exact ⟨rfl, rfl⟩
    · have line : a.lines[lineOf (.src p)] = s.lines[lineOf (.src p)] := by rw [linesA]
      refine (lineSrc p).trans ((light (.src p) _ _).trans ?_)
      cases lit (.src p) with
      | none => exact line
      | some c => exact congrArg (sent (.src p) _) line

end Sys2Proof.Machine

namespace Sys2Proof.Machine

/-!
The reports and timers of a source position: arrivals (R28 to R31), departures, the settle guard and the lapse of a call
(R18, R19, R35, R36, R55).
-/

theorem validId_some {x : Nat} (low : 1 ≤ x) (high : x ≤ 4294967295) : validId (some x) = true := by
  rw [validId, Bool.and_eq_true, decide_eq_true_eq, decide_eq_true_eq]
  exact ⟨low, high⟩

theorem handOrder_eq (pos : Pos) (o : Order) (s : State) :
    handOrder pos o s = { s with lines := (handOrder pos o s).lines } := by
  unfold handOrder
  split <;> rfl

/-! ## Arrivals -/

theorem awaits_iff (f : Face) (x : Nat) :
    f.awaits x = true ↔ (f.state = .called ∨ f.state = .advancing) ∧ f.offer = some x := by
  simp only [Face.awaits, Bool.and_eq_true, Bool.or_eq_true, beq_iff_eq]

theorem repeatFace_iff (y : SrcPos) (x : Nat) :
    repeatReport y .face x = true ↔ y.face.state = .present ∧ y.face.offer = some x := by
  simp only [repeatReport, Bool.and_eq_true, beq_iff_eq]

theorem repeatLane_iff (y : SrcPos) (x : Nat) : repeatReport y .lane x = true ↔
    y.lane.state = .staged ∧ y.lane.offer = some x ∨ y.face.state = .advancing ∧ y.face.offer = some x := by
  simp only [repeatReport, Bool.or_eq_true, Bool.and_eq_true, beq_iff_eq]

/-- The advance of a tote that the lane follows forward: its slot, its order and its record (R29). -/
theorem followForward_eq (p : Fin 4) (x : Nat) (s : State) : followForward p x s = { s with
    src := s.src.set p s.src[p].followed
    lines := (handOrder (.src p) (.gate .advance) s).lines
    offers := s.offers.map fun o => if o.tote = x then { o with state := .staged, place := some (p, .face) } else o } := by
  have faulted : isFaulted (.src p) (modSrc p SrcPos.followed s) = isFaulted (.src p) s := by
    simp only [isFaulted]
    rw [modSrc_self]
    rfl
  have lines : (handOrder (.src p) (.gate .advance) (modSrc p SrcPos.followed s)).lines =
      (handOrder (.src p) (.gate .advance) s).lines := 
    handOrder_lines_congr (t := modSrc p SrcPos.followed s) (s := s) rfl faulted _
  rw [followForward, handOrder_eq, lines]
  rfl

/-- Settles O50: the table of R28 to R31 by the slot that awaits the tote. -/
theorem sourceArrivalsByTheAwaitingSlot : Obligations.SourceArrivalsByTheAwaitingSlot := by
  intro s p off
  have runs : ∀ sl id, exec (.sourceArrived p sl id) s =
      .next (if (takesReports (.src p) s && validId id) = true then takeArrival p sl id s else s) := fun sl id =>
    live_of_off off fun s => if takesReports (.src p) s && validId id then takeArrival p sl id s else s
  refine ⟨fun sl id out => ?_, fun takes => ⟨fun sl => ?_, fun x low high => ?_⟩⟩
  · rw [runs, if_neg]
    rw [Bool.and_eq_true]
    rintro ⟨takes, valid⟩
    rcases out with h | h
    · rw [takes] at h; cases h
    · rw [valid] at h; cases h
  · rw [runs, takes] <;> rfl
  · intro f l awaited atFace
    have taken : ∀ sl, exec (.sourceArrived p sl (some x)) s = .next (takeArrival p sl (some x) s) := fun sl => by
      rw [runs, takes, validId_some low high] <;> rfl
    have face : takeArrival p .face (some x) s = if f.awaits x then faceArrival p x s
        else if repeatReport s.src[p] .face x then s else sendOut p .face (some x) .wrongTote s := rfl
    have lane : takeArrival p .lane (some x) s = if l.state = .called ∧ l.offer = some x then laneArrival p x s
        else if f.state = .called ∧ f.offer = some x ∧ s.src[p].depth = 1 then followForward p x s
        else if repeatReport s.src[p] .lane x then s else sendOut p .lane (some x) .wrongTote s := rfl
    have arrival : faceArrival p x s = attempt (arbitrate (faceChecks p x f.held atFace)) := rfl
    rw [taken, taken, face, lane, arrival]
    refine ⟨fun waits held => ?_, fun h waits held => ?_, fun idle st of => ?_, fun idle no => ?_, fun st of => ?_,
      fun no st of depth => ?_, fun no no' => ⟨fun rep => ?_, fun rep => ?_⟩⟩
    · rw [if_pos ((awaits_iff f x).mpr waits), held] <;> rfl
    · rw [if_pos ((awaits_iff f x).mpr waits), held] <;> rfl
    · rw [if_neg fun h => idle ((awaits_iff f x).mp h), if_pos ((repeatFace_iff _ x).mpr ⟨st, of⟩)]
    · rw [if_neg fun h => idle ((awaits_iff f x).mp h), if_neg fun h => no ((repeatFace_iff _ x).mp h)] <;> rfl
    · rw [if_pos ⟨st, of⟩] <;> rfl
    · rw [if_neg no, if_pos ⟨st, of, depth⟩, followForward_eq] <;> rfl
    · rw [if_neg no, if_neg no', if_pos ((repeatLane_iff _ x).mpr rep)]
    · rw [if_neg no, if_neg no', if_neg fun h => rep ((repeatLane_iff _ x).mp h)] <;> rfl

/-! ## What follows a slot made EMPTY (R39, R42, R139) -/

theorem judgeDrain_cases (s : State) : let empty := ∀ p : Fin 4, s.src[p].face.state = .empty ∧ s.src[p].lane.state = .empty
    (s.bench.mode = .draining → empty →
      judgeDrain s = notify (.benchMode .drained .draining) { s with bench := { s.bench with mode := .drained } }) ∧
    (s.bench.mode ≠ .draining ∨ ¬ empty → judgeDrain s = s) := by
  refine ⟨fun mode empty => ?_, fun other => if_neg fun ⟨mode, all⟩ => ?_⟩
  · rw [judgeDrain, if_pos ⟨mode, (allEmpty_iff s).mpr empty⟩, setMode_eq, mode]
  · exact other.elim (fun no => no mode) fun no => no ((allEmpty_iff s).mp all)

theorem slotSettled_cases (s : State) (p : Fin 4) : let x := s.src[p]
    let d := if x.lane.state = .empty then s.prof.profile.laneDepth[p] else x.depth
    (x.state = .closing → x.face.state = .empty → x.lane.state = .empty → slotSettled p s =
      judgeDrain (notify (.position (.src p) (.source .closed) none) { s with src := s.src.set p { x with
        state := .closed, cause := none, face := {}, lane := {}, depth := d } })) ∧
    (x.state ≠ .closing ∨ x.face.state ≠ .empty ∨ x.lane.state ≠ .empty →
      slotSettled p s = judgeDrain { s with src := s.src.set p { x with depth := d } }) := by
  intro x d
  have synced : modSrc p (fun x => x.synced s.prof.profile.laneDepth[p]) s = modSrc p (fun _ => { x with depth := d }) s := by
    rw [modSrc, modSrc, synced_eq]
  have here : (modSrc p (fun _ => { x with depth := d }) s).src[p] = { x with depth := d } := modSrc_self ..
  have settled : slotSettled p s = judgeDrain (if x.state = .closing ∧ SrcPos.bothEmpty { x with depth := d } = true then
      closeSrc p (modSrc p (fun _ => { x with depth := d }) s) else modSrc p (fun _ => { x with depth := d }) s) := by
    rw [slotSettled, synced, here]
  rw [settled]
  refine ⟨fun state face lane => ?_, fun other => ?_⟩
  · rw [if_pos ⟨state, (bothEmpty_iff _).mpr ⟨face, lane⟩⟩, closeSrc, notifySrc_modSrc, here]
    simp only [modSrc, Vector.set_set]
    rfl
  · rw [if_neg]
    · rfl
    · rintro ⟨state, both⟩
      obtain ⟨face, lane⟩ := (bothEmpty_iff _).mp both
      exact other.elim (fun no => no state) fun other => other.elim (fun no => no face) fun no => no lane

/-! ## Departures and the settle guard -/

theorem takeDeparture_face {p : Fin 4} {s : State} (state : s.src[p].face.state = .leaving) : takeDeparture p .face s =
    if returnsOnDeparture s.src[p].face.offer s then
      arbitrate (offerDeparts s.src[p].face.offer (modSrc p (SrcPos.settling s.prof.profile.settleGuard) s))
    else offerDeparts s.src[p].face.offer (modSrc p (SrcPos.settling s.prof.profile.settleGuard) s) := if_pos state

/-- A departure of an offer of the list: an IDLE-RESCUE offer returns, any other is removed (R18). -/
theorem offerDeparts_of_found {t : Nat} {o : Offer} {s u : State} (found : findOffer t s = some o)
    (same : u.offers = s.offers) :
    (o.reason = some .idleRescue → returnsOnDeparture (some t) s = true ∧
      offerDeparts (some t) u = modOffer t (fun o => { o.toWaiting with ret := true }) u) ∧
    (o.reason ≠ some .idleRescue → returnsOnDeparture (some t) s = false ∧ offerDeparts (some t) u = dropOffer t u) := by
  have found' : findOffer t u = some o := (findOffer_congr same t).trans found
  refine ⟨fun rescue => ⟨?_, ?_⟩, fun other => ⟨?_, ?_⟩⟩
  · simp only [returnsOnDeparture, Option.bind_some, found, Option.any_some, rescue, beq_self_eq_true]
  · simp only [offerDeparts, found', rescue, if_true]
  · simp only [returnsOnDeparture, Option.bind_some, found, Option.any_some, beq_eq_false_iff_ne.mpr other]
  · simp only [offerDeparts, found', if_neg other]

/-! ## The lapse of a call -/

/-- A lapse of an offer of the list: the LAPSE notice, and the offer returned to WAITING or removed (R19). -/
theorem offerLapses_of_found {t : Nat} {o : Offer} {u : State} (found : findOffer t u = some o) (p : Fin 4) (sl : Slot) :
    offerLapses t p sl u =
      notify (.lapse t p sl (o.lapses + 1) o.summary (decide (u.prof.profile.lapseLimit ≤ o.lapses + 1)))
        (if u.prof.profile.lapseLimit ≤ o.lapses + 1 then dropOffer t u
        else modOffer t (fun x => { x.toWaiting with lapses := o.lapses + 1 }) u) := by
  unfold offerLapses
  simp only [found, decide_eq_true_eq]

theorem callExpired_of_named {p : Fin 4} {sl : Slot} {s : State} {t : Nat} (timer : s.src[p].callTimer sl = some 0)
    (named : s.src[p].named sl = some t) :
    callExpired p sl s = arbitrate (slotSettled p (offerLapses t p sl (modSrc p (SrcPos.emptied sl) s))) := by
  simp only [callExpired, timer, if_true, takeLapse, named]

/-! ## Two changes of one position or one record -/

theorem modSrc_modSrc (p : Fin 4) (f g : SrcPos → SrcPos) (s : State) :
    modSrc p f (modSrc p g s) = modSrc p (fun x => f (g x)) s := by
  have self : (modSrc p g s).src[p] = g s.src[p] := modSrc_self ..
  rw [modSrc, self, modSrc, modSrc]
  simp only [Vector.set_set]

theorem modOffer_modOffer {t : Nat} {f g : Offer → Offer} (keep : ∀ o, (g o).tote = o.tote) (s : State) :
    modOffer t f (modOffer t g s) = modOffer t (fun o => f (g o)) s := by
  simp only [modOffer, List.map_map]
  congr 1
  refine List.map_congr_left fun o _ => ?_
  by_cases h : o.tote = t
  · simp only [Function.comp, if_pos h, if_pos ((keep o).trans h)]
  · simp only [Function.comp, if_neg h]

theorem dropOffer_modOffer {t : Nat} {g : Offer → Offer} (keep : ∀ o, (g o).tote = o.tote) (s : State) :
    dropOffer t (modOffer t g s) = dropOffer t s := by
  have erased : eraseOffer t (modOffer t g s) = eraseOffer t s := by
    simp only [eraseOffer, modOffer]
    congr 1
    induction s.offers with
    | nil => rfl
    | cons o os ih =>
      by_cases h : o.tote = t
      · simp [h, keep, ih]
      · simp [h, ih]
  rw [dropOffer, erased, dropOffer]

/-- A call with no time left is moved to the face and lapses there (R35, R56). -/
theorem transferCall_of_spent {p : Fin 4} {s : State} {t : Nat} {o : Offer} (timer : s.src[p].lane.callT = some 0)
    (named : s.src[p].lane.offer = some t) (found : findOffer t s = some o) :
    transferCall p s = arbitrate (slotSettled p
      (notify (.lapse t p .face (o.lapses + 1) o.summary (decide (s.prof.profile.lapseLimit ≤ o.lapses + 1)))
        (if s.prof.profile.lapseLimit ≤ o.lapses + 1 then dropOffer t (modSrc p (fun x => { x with face := {}, lane := {} }) s)
        else modOffer t (fun x => { x.toWaiting with lapses := o.lapses + 1 })
          (modSrc p (fun x => { x with face := {}, lane := {} }) s)))) := by
  have keep : ∀ x : Offer, ({ x with place := some (p, .face) } : Offer).tote = x.tote := fun _ => rfl
  have here : (modSrc p SrcPos.transferred s).src[p] = s.src[p].transferred := modSrc_self ..
  have moved : transferCall p s =
      callExpired p .face (modOffer t (fun x => { x with place := some (p, .face) }) (modSrc p SrcPos.transferred s)) := by
    simp only [transferCall, named]
  have timer' : (modOffer t (fun x => { x with place := some (p, .face) }) (modSrc p SrcPos.transferred s)).src[p].callTimer
      .face = some 0 := (congrArg (fun x : SrcPos => x.callTimer .face) here).trans timer
  have named' : (modOffer t (fun x => { x with place := some (p, .face) }) (modSrc p SrcPos.transferred s)).src[p].named
      .face = some t := (congrArg (fun x : SrcPos => x.named .face) here).trans named
  have emptied : modSrc p (SrcPos.emptied .face)
      (modOffer t (fun x => { x with place := some (p, .face) }) (modSrc p SrcPos.transferred s)) =
      modOffer t (fun x => { x with place := some (p, .face) }) (modSrc p (fun x => { x with face := {}, lane := {} }) s) :=
    congrArg (modOffer t fun x => { x with place := some (p, .face) }) (modSrc_modSrc p _ _ s)
  have found' : findOffer t (modOffer t (fun x => { x with place := some (p, .face) })
      (modSrc p (fun x => { x with face := {}, lane := {} }) s)) = some { o with place := some (p, .face) } := by
    have before : findOffer t (modSrc p (fun x => { x with face := {}, lane := {} }) s) = some o := found
    rw [findOffer_modOffer keep, before, Option.map_some, if_pos (findOffer_tote found)]
  rw [moved, callExpired_of_named timer' named', emptied, offerLapses_of_found found', dropOffer_modOffer keep,
    modOffer_modOffer keep]
  rfl

/-- A call with time left is moved to the face as it is (R35). -/
theorem transferCall_of_running {p : Fin 4} {s : State} {n : Nat} (left : s.src[p].lane.callT = some (n + 1)) :
    let t := transferCall p s
    t.src = s.src.set p s.src[p].transferred ∧
    (∀ x, s.src[p].lane.offer = some x → t.offers = s.offers.map fun o =>
      if o.tote = x then { o with place := some (p, .face) } else o) ∧
    t.lines = s.lines ∧ t.link = s.link ∧ t.wall = s.wall ∧ t.put = s.put := by
  have runs : ∀ u : State, u.src = (modSrc p SrcPos.transferred s).src → callExpired p .face u = u := fun u e => by
    have timer : u.src[p].callTimer .face = some (n + 1) := by
      rw [e, modSrc_self]
      exact left
    exact if_neg (by rw [timer]; simp)
  cases named : s.src[p].lane.offer with
  | none =>
    have eq : transferCall p s = modSrc p SrcPos.transferred s := by
      simp only [transferCall, named]
      exact runs _ rfl
    rw [eq]
    exact ⟨rfl, nofun, rfl, rfl, rfl, rfl⟩
  | some y =>
    have eq : transferCall p s =
        modOffer y (fun o => { o with place := some (p, .face) }) (modSrc p SrcPos.transferred s) := by
      simp only [transferCall, named]
      exact runs _ rfl
    rw [eq]
    refine ⟨rfl, fun x e => ?_, rfl, rfl, rfl, rfl⟩
    cases e
    rfl

/-- The advance at the end of a settle guard (R35). -/
theorem advance_spec (p : Fin 4) (s : State) : let t := advance p s
    t.src = s.src.set p (s.src[p].advanced (s.prof.profile.callTimeout * 10)) ∧
    (∀ x, s.src[p].lane.offer = some x → t.offers = s.offers.map fun o =>
      if o.tote = x then { o with place := some (p, .face) } else o) ∧
    t.lines = (handOrder (.src p) (.gate .advance) s).lines ∧ t.link = s.link ∧ t.wall = s.wall ∧ t.put = s.put := by
  have faulted : isFaulted (.src p) (modSrc p (SrcPos.advanced (s.prof.profile.callTimeout * 10)) s) =
      isFaulted (.src p) s := by
    simp only [isFaulted]
    rw [modSrc_self]
    rfl
  have lines := handOrder_lines_congr (t := modSrc p (SrcPos.advanced (s.prof.profile.callTimeout * 10)) s) (s := s) rfl
    faulted (.gate .advance)
  obtain ⟨src, wall, -, offers, -, -, put, -, link, -, -⟩ := handOrder_frame (.src p) (.gate .advance)
    (modSrc p (SrcPos.advanced (s.prof.profile.callTimeout * 10)) s)
  cases named : s.src[p].lane.offer with
  | none =>
    have eq : advance p s = handOrder (.src p) (.gate .advance)
        (modSrc p (SrcPos.advanced (s.prof.profile.callTimeout * 10)) s) := by
      simp only [advance, named]
    rw [eq]
    exact ⟨src, nofun, lines, link, wall, put⟩
  | some y =>
    have eq : advance p s = modOffer y (fun o => { o with place := some (p, .face) }) (handOrder (.src p) (.gate .advance)
        (modSrc p (SrcPos.advanced (s.prof.profile.callTimeout * 10)) s)) := by
      simp only [advance, named]
    rw [eq]
    refine ⟨src, fun x e => ?_, lines, link, wall, put⟩
    cases e
    exact congrArg (List.map fun o : Offer => if o.tote = y then { o with place := some (p, .face) } else o) offers

/-- What the end of a settle guard does, by the lane (R35). -/
structure SettleTable (p : Fin 4) (s : State) : Prop where
  staged : s.src[p].lane.state = .staged → settleExpired p s = arbitrate (slotSettled p (advance p s))
  called : s.src[p].lane.state = .called → settleExpired p s = arbitrate (slotSettled p (transferCall p s))
  leaving : s.src[p].lane.state = .leaving → settleExpired p s = modSrc p SrcPos.stopGuard s
  empty : s.src[p].lane.state = .empty →
    settleExpired p s = arbitrate (slotSettled p (modSrc p (SrcPos.emptied .face) s))

theorem settleExpired_table {p : Fin 4} {s : State} (ended : s.src[p].face.settleT = some 0) : SettleTable p s := by
  constructor <;> (intro lane; simp only [settleExpired, ended, if_true, lane])

/-- Settles O51. -/
theorem sourceSlotsEmpty : Obligations.SourceSlotsEmpty := by
  unfold Obligations.SourceSlotsEmpty
  refine ⟨fun s p off => ?_, judgeDrain_cases, slotSettled_cases⟩
  intro x
  have departs : ∀ sl, exec (.sourceDeparted p sl) s =
      .next (if takesReports (.src p) s = true then takeDeparture p sl s else s) := fun sl =>
    live_of_off off fun s => if takesReports (.src p) s then takeDeparture p sl s else s
  have settles : exec (.settleTimerExpiry p) s = .next (settleExpired p s) := live_of_off off (settleExpired p)
  have lapses : ∀ sl, exec (.lapse p sl) s = .next (callExpired p sl s) := fun sl => live_of_off off (callExpired p sl)
  refine ⟨fun takes face => ?_, fun takes lane => ?_, fun out sl => ?_, fun other => ?_, fun other => ?_, fun running => ?_,
    fun ended => ?_, fun sl t o timer named found => ?_, fun sl running => ?_⟩
  · intro u
    have taken := (departs .face).trans (congrArg _ ((if_pos takes).trans (takeDeparture_face face)))
    refine ⟨fun unnamed => ?_, fun t o named found => ⟨fun rescue => ?_, fun other => ?_⟩⟩
    · rw [taken, unnamed] <;> rfl
    · obtain ⟨returns, offers⟩ := (offerDeparts_of_found found
        (u := modSrc p (SrcPos.settling s.prof.profile.settleGuard) s) rfl).1 rescue
      rw [taken, named, returns, offers] <;> rfl
    · obtain ⟨returns, offers⟩ := (offerDeparts_of_found found
        (u := modSrc p (SrcPos.settling s.prof.profile.settleGuard) s) rfl).2 other
      rw [taken, named, returns, offers] <;> rfl
  · exact (departs .lane).trans (congrArg _ ((if_pos takes).trans (if_pos lane)))
  · exact (departs sl).trans (congrArg _ (if_neg (Bool.eq_false_iff.mp out)))
  · rw [departs]
    split
    · exact congrArg _ (if_neg other)
    · rfl
  · rw [departs]
    split
    · exact congrArg _ (if_neg other)
    · rfl
  · exact settles.trans (congrArg _ (if_neg running))
  · have table := settleExpired_table ended
    refine ⟨fun lane => ?_, fun n lane left => ?_, fun t o lane spent named found => ?_, fun lane => ?_, fun lane => ?_⟩
    · obtain ⟨src, offers, lines, link, wall, put⟩ := advance_spec p s
      exact ⟨advance p s, settles.trans (congrArg _ (table.staged lane)), src, offers, lines, link, wall, put⟩
    · obtain ⟨src, offers, lines, link, wall, put⟩ := transferCall_of_running left
      refine ⟨transferCall p s, settles.trans (congrArg _ (table.called lane)), src.trans ?_, offers, lines, link, wall, put⟩
      exact congrArg (fun callT => s.src.set p { x with face := { state := .called, offer := x.lane.offer, callT := callT },
                                                        lane := {} }) left
    · intro v m
      rw [settles, table.called lane, transferCall_of_spent spent named found]
      rfl
    · exact settles.trans (congrArg _ (table.leaving lane))
    · exact settles.trans (congrArg _ (table.empty lane))
  · intro u
    have slot : modSrc p (SrcPos.emptied sl) s = u := by cases sl <;> rfl
    have found' : findOffer t u = some o := found
    have prof : u.prof = s.prof := rfl
    have expired := (lapses sl).trans (congrArg _ (callExpired_of_named timer named))
    rw [slot, offerLapses_of_found found', prof] at expired
    refine ⟨fun low => ?_, fun high => ?_⟩
    · rw [expired, if_neg (Nat.not_le.mpr low), decide_eq_false (Nat.not_le.mpr low)]
      rfl
    · rw [expired, if_pos high, decide_eq_true high]
  · exact (lapses sl).trans (congrArg _ (if_neg running))

end Sys2Proof.Machine

namespace Sys2Proof.Machine

/-!
The timers of the exposure bank, of the orphan judgement and of the picker monitor (R38, R121 to R126, R135), and picker
activity with the picker's keys (R91, R93, R94, R134).
-/

theorem isLitSource_of_lit {p : Fin 4} {s : State} {c : Cycle} (lit : s.put.cycle = some c) (src : c.src = p) :
    isLitSource p s = true := by
  simp only [isLitSource, lit, src, decide_true]

/-! ## A release that is asked for (R33) -/

/-- Asking for the release of an offer, by the place the offer is at. -/
structure AskTable (t : Nat) (h : HeldRelease) (p : Fin 4) (s : State) : Prop where
  present : s.src[p].face.state = .present → isLitSource p s = false → askRelease t h s = releaseSlot p .face t h.reason s
  lit : s.src[p].face.state = .present → isLitSource p s = true → askRelease t h s = s
  advancing : s.src[p].face.state = .advancing → askRelease t h s = modSrc p (SrcPos.holdRelease h) s

theorem askRelease_face {t : Nat} {h : HeldRelease} {p : Fin 4} {s : State} {o : Offer} (found : findOffer t s = some o)
    (place : o.place = some (p, .face)) : AskTable t h p s := by
  refine ⟨fun face lit => ?_, fun face lit => ?_, fun face => ?_⟩
  · simp only [askRelease, found, Option.bind_some, place, face, lit, Bool.false_eq_true, if_false]
  · simp only [askRelease, found, Option.bind_some, place, face, lit, if_true]
  · simp only [askRelease, found, Option.bind_some, place, face]

theorem askRelease_lane {t : Nat} {h : HeldRelease} {p : Fin 4} {s : State} {o : Offer} (found : findOffer t s = some o)
    (place : o.place = some (p, .lane)) (lane : s.src[p].lane.state = .staged) :
    askRelease t h s = releaseSlot p .lane t h.reason s := by
  simp only [askRelease, found, Option.bind_some, place, lane, if_true]

/-! ## Exposure (chapter 07) -/

theorem graceExpired_cases (s : State) :
    (∀ c, s.put.cycle = some c → c.grace = true → s.put.graceT = some 0 → graceExpired s = attempt (cancelCycle c none s)) ∧
    (s.put.graceT ≠ some 0 ∨ (∀ c, s.put.cycle = some c → c.grace = false) → graceExpired s = s) := by
  refine ⟨fun c cycle grace timer => ?_, fun other => ?_⟩
  · simp only [graceExpired, cycle, grace, timer, and_self, if_true]
  · cases cycle : s.put.cycle with
    | none => simp only [graceExpired, cycle]
    | some c =>
      have not : ¬ (c.grace = true ∧ s.put.graceT = some 0) := fun ⟨grace, timer⟩ =>
        other.elim (fun no => no timer) fun no => Bool.false_ne_true ((no c cycle).symm.trans grace)
      simp only [graceExpired, cycle, if_neg not]

theorem startGrace_of_ungraced {c : Cycle} (ungraced : c.grace = false) (s : State) :
    let u : State := { s with put := { s.put with
      cycle := some { c with grace := true }, graceT := some (s.prof.profile.putGrace * 10) } }
    (0 < s.prof.profile.putGrace → startGrace c s = u) ∧
    (s.prof.profile.putGrace = 0 → startGrace c s = attempt (cancelCycle { c with grace := true } none u)) := by
  intro u
  have starts : startGrace c s = graceExpired u := if_neg (Bool.eq_false_iff.mp ungraced)
  obtain ⟨expires, runs⟩ := graceExpired_cases u
  refine ⟨fun long => starts.trans (runs (.inl fun e => ?_)), fun zero => starts.trans (expires _ rfl rfl ?_)⟩
  · have := Option.some.inj e
    omega
  · show some (s.prof.profile.putGrace * 10) = some 0
    rw [zero]

/-- The expiry of the exposure of an offer of the list, by its state and place (R122). -/
structure ExpiryTable (t : Nat) (o : Offer) (s : State) : Prop where
  left : (∀ e, o.exposure = some e → e.remaining ≠ 0) → exposureExpired t s = s
  idle : o.state = .waiting ∨ o.state = .called ∨ o.state = .leaving → exposureExpired t s = s
  staged : (∃ e, o.exposure = some e ∧ e.remaining = 0) → o.state = .staged → exposureExpired t s = askRelease t .exposed s
  present : ∀ p, (∃ e, o.exposure = some e ∧ e.remaining = 0) → o.state = .present → o.place = some (p, .face) →
    (∀ c, s.put.cycle = some c → c.src ≠ p) → exposureExpired t s = askRelease t .exposed s
  lit : ∀ p c, (∃ e, o.exposure = some e ∧ e.remaining = 0) → o.state = .present → o.place = some (p, .face) →
    s.put.cycle = some c → c.src = p → exposureExpired t s = startGrace c s

theorem spent_iff (o : Offer) :
    (o.exposure.any fun e => e.remaining == 0) = true ↔ ∃ e, o.exposure = some e ∧ e.remaining = 0 := by
  rw [Option.any_eq_true]
  exact exists_congr fun e => and_congr_right fun _ => beq_iff_eq

theorem exposureExpired_table {t : Nat} {o : Offer} {s : State} (found : findOffer t s = some o) : ExpiryTable t o s := by
  refine ⟨fun left => ?_, fun st => ?_, fun spent st => ?_, fun p spent st place unlit => ?_,
    fun p c spent st place cycle src => ?_⟩
  · have unspent : ¬ (o.exposure.any fun e => e.remaining == 0) = true := fun h => by
      obtain ⟨e, exposure, zero⟩ := (spent_iff o).mp h
      exact left e exposure zero
    simp only [exposureExpired, found, if_neg unspent]
  · rcases st with st | st | st <;> simp only [exposureExpired, found, st, ite_self]
  · simp only [exposureExpired, found, (spent_iff o).mpr spent, if_true, st]
  · cases cycle : s.put.cycle with
    | none => simp only [exposureExpired, found, (spent_iff o).mpr spent, if_true, st, place, cycle]
    | some c => simp only [exposureExpired, found, (spent_iff o).mpr spent, if_true, st, place, cycle, if_neg (unlit c cycle)]
  · simp only [exposureExpired, found, (spent_iff o).mpr spent, if_true, st, place, cycle, if_pos src]

/-- Settles O53. -/
theorem exposureEvents : Obligations.ExposureEvents := by
  unfold Obligations.ExposureEvents
  refine ⟨fun s off => ?_, fun s t o off found => ?_⟩
  · have runs : exec .putGraceTimerExpiry s = .next (graceExpired s) := live_of_off off graceExpired
    obtain ⟨expires, stays⟩ := graceExpired_cases s
    exact ⟨fun c cycle grace timer => runs.trans (congrArg _ (expires c cycle grace timer)),
      fun other => runs.trans (congrArg _ (stays other))⟩
  · have runs : exec (.exposureExpiry t) s = .next (exposureExpired t s) := live_of_off off (exposureExpired t)
    have table := exposureExpired_table found
    refine ⟨live_of_off off (judgeWarning t), fun st => ?_, fun st => ?_, fun left => ?_, fun e exposure zero => ?_⟩
    · exact runs.trans (congrArg _ (table.idle (st.imp id .inl)))
    · exact runs.trans (congrArg _ (table.idle (.inr (.inr st))))
    · exact runs.trans (congrArg _ (table.left left))
    · have spent : ∃ e, o.exposure = some e ∧ e.remaining = 0 := ⟨e, exposure, zero⟩
      refine ⟨fun p st place face => ⟨fun unlit => ?_, fun c cycle src => ⟨fun grace => ?_, fun ungraced => ?_⟩⟩,
        fun p st place lane => ?_, fun p st place face => ?_⟩
      · rw [runs, table.present p spent st place unlit]
        exact congrArg _ ((askRelease_face found place).present face (isLitSource_eq_false.mpr unlit))
      · rw [runs, table.lit p c spent st place cycle src]
        exact congrArg _ (if_pos grace)
      · intro u
        obtain ⟨long, zero'⟩ := startGrace_of_ungraced ungraced s
        rw [runs, table.lit p c spent st place cycle src]
        exact ⟨fun pos => congrArg _ (long pos), fun none => congrArg _ (zero' none)⟩
      · rw [runs, table.staged spent st]
        exact congrArg _ (askRelease_lane found place lane)
      · rw [runs, table.staged spent st]
        exact congrArg _ ((askRelease_face found place).advancing face)

/-! ## The orphan timer and the idle timer -/

theorem rescueDue_iff {t : Nat} {o : Offer} {s : State} (found : findOffer t s = some o) : rescueDue s t = true ↔
    0 < s.prof.profile.rescueMargin ∧ ∃ e, o.exposure = some e ∧ e.remaining ≤ s.prof.profile.rescueMargin * 10 := by
  rw [rescueDue, found, Option.any_some, Bool.and_eq_true, decide_eq_true_eq, Option.any_eq_true]
  exact and_congr_right fun _ => exists_congr fun e => and_congr_right fun _ => decide_eq_true_iff

theorem rescueSlot_of_unnamed {s : State} {p : Fin 4} {sl : Slot} (unnamed : s.src[p].named sl = none) :
    rescueSlot s (p, sl) = s := by
  simp only [rescueSlot, unnamed]

theorem rescueSlot_of_unexamined {s : State} {p : Fin 4} {sl : Slot} (un : s.src[p].examined sl = false) :
    rescueSlot s (p, sl) = s := by
  unfold rescueSlot
  cases named : s.src[p].named sl with
  | none => rfl
  | some t => simp only [un, Bool.false_and, Bool.false_eq_true, if_false]

/-- A slot that idle rescue examines: its release is asked for when it is due, and nothing happens otherwise. -/
theorem rescueSlot_of_named {s : State} {p : Fin 4} {sl : Slot} {t : Nat} (named : s.src[p].named sl = some t) :
    (rescueDue s t = false → rescueSlot s (p, sl) = s) ∧
    (s.src[p].examined sl = true → rescueDue s t = true → rescueSlot s (p, sl) = askRelease t .idleRescue s) := by
  refine ⟨fun no => ?_, fun examined due => ?_⟩
  · simp only [rescueSlot, named, no, Bool.and_false, Bool.false_eq_true, if_false]
  · simp only [rescueSlot, named, examined, due, Bool.and_self, if_true]

/-- Settles O54. -/
theorem orphanAndIdleExpiries : Obligations.OrphanAndIdleExpiries := by
  unfold Obligations.OrphanAndIdleExpiries
  refine ⟨fun s off => ?_, fun v p => ?_⟩
  · have orphan : ∀ p, exec (.orphanTimerExpiry p) s = .next (orphanExpired p s) := fun p => live_of_off off (orphanExpired p)
    have idle : exec .idleTimerExpiry s = .next (idleExpired s) := live_of_off off idleExpired
    refine ⟨fun p t timer face named => ?_, fun p timer => ?_, fun timer => ?_, fun timer => ?_⟩
    · rw [orphan]
      simp only [orphanExpired, timer, face, and_self, if_true, named]
    · exact (orphan p).trans (congrArg _ (if_neg fun h => timer h.1))
    · exact idle.trans (congrArg _ (if_neg timer))
    · exact idle.trans (congrArg _ (if_pos timer))
  · intro f l due
    refine ⟨fun notPresent notAdvancing => ?_, fun notStaged => ?_, rescueSlot_of_unnamed (sl := .face),
      rescueSlot_of_unnamed (sl := .lane), fun t o named found => ?_, fun t o named found => ?_⟩
    · refine rescueSlot_of_unexamined ?_
      show (f.state == .present || f.state == .advancing) = false
      rw [beq_eq_false_iff_ne.mpr notPresent, beq_eq_false_iff_ne.mpr notAdvancing]
      rfl
    · exact rescueSlot_of_unexamined (sl := .lane) (beq_eq_false_iff_ne.mpr notStaged)
    · obtain ⟨stays, asks⟩ := rescueSlot_of_named (sl := .face) named
      refine ⟨fun no => stays (by rwa [← Bool.not_eq_true, rescueDue_iff found]), fun yes place => ?_⟩
      have yes := (rescueDue_iff found).mpr yes
      have table : AskTable t .idleRescue p v := askRelease_face found place
      have present : f.state = .present → v.src[p].examined .face = true := fun face => by
        show (f.state == .present || f.state == .advancing) = true
        rw [face] <;> rfl
      have advancing : f.state = .advancing → v.src[p].examined .face = true := fun face => by
        show (f.state == .present || f.state == .advancing) = true
        rw [face] <;> rfl
      refine ⟨fun face ⟨c, cycle, src⟩ => ?_, fun face unlit => ?_, fun face => ?_⟩
      · exact (asks (present face) yes).trans (table.lit face (isLitSource_of_lit cycle src))
      · exact (asks (present face) yes).trans (table.present face (isLitSource_eq_false.mpr unlit))
      · exact (asks (advancing face) yes).trans (table.advancing face)
    · obtain ⟨stays, asks⟩ := rescueSlot_of_named (sl := .lane) named
      refine ⟨fun no => stays (by rwa [← Bool.not_eq_true, rescueDue_iff found]), fun yes place lane => ?_⟩
      exact (asks (beq_iff_eq.mpr lane) ((rescueDue_iff found).mpr yes)).trans (askRelease_lane found place lane)

end Sys2Proof.Machine

/-! The reports and timers of an order position, the table of R68 and R74 (O55), and the picker's keys and lights (O57). -/

namespace Sys2Proof.Machine

/-! ## Notices of an order position that has just been changed -/

theorem notifyWall_modOrd (q : Fin 12) (e : WallEvent) (f : OrdPos → OrdPos) (s : State) : notifyWall q e (modOrd q f s) =
    notify (.wall q ((f s.wall.pos[q]).record.map fun r => (r.ref, r.tote)) e) (modOrd q f s) := by
  rw [notifyWall, modOrd_self]

theorem notifyWall_exitOrd (q : Fin 12) (e : WallEvent) (s : State) : notifyWall q e (exitOrd q s) =
    notify (.wall q (s.wall.pos[q].record.map fun r => (r.ref, r.tote)) e) (handOrder (.ord q) (.gate .exit) s) := by
  rw [notifyWall, exitOrd, handOrder_wall]

theorem modOrd_modOrd (q : Fin 12) (f g : OrdPos → OrdPos) (s : State) :
    modOrd q f (modOrd q g s) = modOrd q (fun x => f (g x)) s := by
  have inner := modOrd_self q g s
  unfold modOrd at inner ⊢
  rw [inner]
  simp

/-! ## Arrivals at an order position (R68) -/

/-- Whether a report reads the tote of the record that the position holds. -/
def OrdPos.reads (x : OrdPos) (i : Option Nat) : Bool := x.record.any fun r => i == some r.tote

theorem OrdPos.reads_of_record {x : OrdPos} {i : Option Nat} {r : Rec} (record : x.record = some r) (read : i = some r.tote) :
    x.reads i = true := by
  rw [reads, record, read, Option.any_some, beq_self_eq_true]

theorem OrdPos.reads_of_other {x : OrdPos} {i : Option Nat} (other : ∀ r, x.record = some r → i ≠ some r.tote) :
    x.reads i = false := by
  unfold reads
  cases record : x.record with
  | none => rfl
  | some r => exact beq_eq_false_iff_ne.mpr (other r record)

/-- The table of R68, by the state of the position and whether its own tote is read. -/
structure ArrivalTable (q : Fin 12) (i : Option Nat) (s : State) : Prop where
  expected : s.wall.pos[q].state = .expected → s.wall.pos[q].reads i = true → takeOrderArrival q i s =
    recordEntered (notifyWall q .arrived (modOrd q (OrdPos.putState .arrived) s))
  sentOut : (s.wall.pos[q].state = .expected ∧ s.wall.pos[q].reads i = false) ∨ s.wall.pos[q].state = .empty ∨
    s.wall.pos[q].state = .settling → takeOrderArrival q i s = notifyWall q (.wrongTote i) (exitOrd q s)
  repeated : s.wall.pos[q].state = .arrived ∨ s.wall.pos[q].state = .active ∨ s.wall.pos[q].state = .leaving →
    s.wall.pos[q].reads i = true → takeOrderArrival q i s = s
  wrong : s.wall.pos[q].state = .arrived ∨ s.wall.pos[q].state = .active ∨ s.wall.pos[q].state = .leaving →
    s.wall.pos[q].reads i = false → takeOrderArrival q i s = notifyWall q (.wrongTote i) s
  occupied : s.wall.pos[q].state = .occupied → takeOrderArrival q i s = notifyWall q (.wrongTote i) s
  closed : s.wall.pos[q].state = .closed → takeOrderArrival q i s = exitOrd q s

theorem takeOrderArrival_table (q : Fin 12) (i : Option Nat) (s : State) : ArrivalTable q i s where
  expected state own := by
    have own : (s.wall.pos[q].record.any fun r => i == some r.tote) = true := own
    simp only [takeOrderArrival, state, own, if_true]
  sentOut h := by
    rcases h with ⟨state, other⟩ | state | state
    · have other : (s.wall.pos[q].record.any fun r => i == some r.tote) = false := other
      simp only [takeOrderArrival, state, other, Bool.false_eq_true, if_false]
    all_goals simp only [takeOrderArrival, state]
  repeated h own := by
    have own : (s.wall.pos[q].record.any fun r => i == some r.tote) = true := own
    rcases h with state | state | state <;> simp only [takeOrderArrival, state, own, if_true]
  wrong h other := by
    have other : (s.wall.pos[q].record.any fun r => i == some r.tote) = false := other
    rcases h with state | state | state <;>
      simp only [takeOrderArrival, state, other, Bool.false_eq_true, if_false]
  occupied state := by simp only [takeOrderArrival, state]
  closed state := by simp only [takeOrderArrival, state]

/-- A position that becomes EMPTY stays so below the order count, and is closed at or above it (R74, R76). -/
theorem emptyOrd_cases (q : Fin 12) (s : State) :
    (q.val < s.prof.profile.orderCount → emptyOrd q s = modOrd q OrdPos.emptied s) ∧
    (s.prof.profile.orderCount ≤ q.val → (emptyOrd q s).wall.pos[q] = { surveyT := s.wall.pos[q].surveyT } ∧
      (emptyOrd q s).link = (notify (.position (.ord q) (.order .closed) none) s).link) := by
  refine ⟨fun below => if_neg (Nat.not_le.mpr below), fun above => ?_⟩
  have closes : emptyOrd q s = notify (.position (.ord q) (.order .closed) none)
      (modOrd q (fun x => x.emptied.shutDown) s) := by
    refine (if_pos above).trans ?_
    rw [closeOrd, notifyOrd, modOrd_modOrd, modOrd_self] <;> rfl
  rw [closes]
  refine ⟨?_, notify_link_congr (x := modOrd q (fun x => x.emptied.shutDown) s) (y := s) rfl rfl rfl _⟩
  rw [notify_wall, modOrd_self] <;> rfl

/-- Settles O55. -/
theorem orderPositionReports : Obligations.OrderPositionReports := by
  unfold Obligations.OrderPositionReports
  intro s q off x sentOut wrong
  have arrives : ∀ sl i, exec (.orderArrived q sl i) s = .next
      (if takesReports (.ord q) s && sl.isNone && validId i then takeOrderArrival q i s else s) := fun sl i =>
    live_of_off off fun s => if takesReports (.ord q) s && sl.isNone && validId i then takeOrderArrival q i s else s
  have departs : ∀ sl, exec (.orderDeparted q sl) s = .next
      (if takesReports (.ord q) s && sl.isNone then takeOrderDeparture q s else s) := fun sl =>
    live_of_off off fun s => if takesReports (.ord q) s && sl.isNone then takeOrderDeparture q s else s
  have settles : exec (.orderSettleTimerExpiry q) s = .next (orderSettleExpired q s) := live_of_off off (orderSettleExpired q)
  refine ⟨fun sl i no => ?_, fun sl no => ?_, fun takes state => ?_, fun i takes valid => ?_, fun timer => ?_, fun timer => ?_⟩
  · refine (arrives sl i).trans (congrArg _ (if_neg ?_))
    rw [Bool.and_eq_true, Bool.and_eq_true]
    rintro ⟨⟨takes, noSlot⟩, valid⟩
    rcases no with no | no | no
    · exact Bool.false_ne_true (no.symm.trans takes)
    · exact absurd no (by rw [Option.isNone_iff_eq_none.mp noSlot]; exact Bool.false_ne_true)
    · exact Bool.false_ne_true (no.symm.trans valid)
  · rw [departs]
    split_ifs with taken
    · rw [Bool.and_eq_true] at taken
      obtain ⟨takes, noSlot⟩ := taken
      rcases no with no | no | no
      · exact absurd (no.symm.trans takes) Bool.false_ne_true
      · exact absurd no (by rw [Option.isNone_iff_eq_none.mp noSlot]; exact Bool.false_ne_true)
      · exact congrArg _ (if_neg no)
    · rfl
  · exact (departs none).trans (congrArg _ ((if_pos (by rw [takes]; rfl)).trans (if_pos state)))
  · have taken : exec (.orderArrived q none i) s = .next (takeOrderArrival q i s) :=
      (arrives none i).trans (congrArg _ (if_pos (by rw [takes, valid]; rfl)))
    obtain ⟨expected, sent, repeated, other, occupied, closed⟩ := takeOrderArrival_table q i s
    have report := notifyWall_exitOrd q (.wrongTote i) s
    refine ⟨fun r state record own => ?_, fun state other => ?_, fun state => ?_, fun r state record own => ?_,
      fun state record => ?_, fun state => ?_, fun state => ?_⟩
    · have said : notifyWall q .arrived (modOrd q (OrdPos.putState .arrived) s) =
          notify (.wall q (some (r.ref, r.tote)) .arrived) (modOrd q (OrdPos.putState .arrived) s) := by
        have kept : (OrdPos.putState .arrived s.wall.pos[q]).record = some r := record
        rw [notifyWall_modOrd, kept] <;> rfl
      exact taken.trans (congrArg _ ((expected state (OrdPos.reads_of_record record own)).trans (congrArg recordEntered said)))
    · exact taken.trans (congrArg _ ((sent (.inl ⟨state, OrdPos.reads_of_other other⟩)).trans report))
    · exact taken.trans (congrArg _ ((sent (.inr state)).trans report))
    · exact taken.trans (congrArg _ (repeated state (OrdPos.reads_of_record record own)))
    · exact taken.trans (congrArg _ (other state (OrdPos.reads_of_other record)))
    · exact taken.trans (congrArg _ (occupied state))
    · exact taken.trans (congrArg _ (closed state))
  · exact settles.trans (congrArg _ (if_neg timer))
  · obtain ⟨below, above⟩ := emptyOrd_cases q s
    have empties : exec (.orderSettleTimerExpiry q) s = .next (emptyOrd q s) := settles.trans (congrArg _ (if_pos timer))
    exact ⟨fun h => empties.trans (congrArg _ (below h)), fun h => ⟨_, empties, above h⟩⟩

/-! ## Picker activity and keys (R91 to R94, R134) -/

theorem activity_active {s : State} (cond : s.picker.cond = .active) (pos : Pos) (report : ActivityReport) :
    activity pos report s = if s.put.cycle.isSome then
      { s with picker := { s.picker with idleT := some (s.prof.profile.idleTimeout * 10) } } else s := by
  simp only [activity, cond, startIdle, setIdleT, and_true]

theorem activity_idle {s : State} (cond : s.picker.cond = .idle) (pos : Pos) (report : ActivityReport) :
    let u := notify (.picker .active .idle (.activity pos report)) { s with picker := { s.picker with cond := .active } }
    activity pos report s = attempt (arbitrate (if s.put.cycle.isSome then
      { u with picker := { u.picker with idleT := some (s.prof.profile.idleTimeout * 10) } } else u)) := by
  intro u
  have told : setPicker .active (.activity pos report) s = u := by rw [setPicker, cond] <;> rfl
  obtain ⟨-, -, -, -, -, put, picker, -, prof, -, -⟩ := setPicker_frame .active (.activity pos report) s
  rw [told] at put picker prof
  have timed : startIdle u = if s.put.cycle.isSome then
      { u with picker := { u.picker with idleT := some (s.prof.profile.idleTimeout * 10) } } else u := by
    have ready : u.picker.cond = .active := by rw [picker]
    simp only [startIdle, ← put, ← prof, ready, and_true, setIdleT]
  simp only [activity, cond, told, timed]

/-- What a stable weight shows against a baseline, beyond the tolerance or not (R69). -/
theorem disturbanceOf_table (b ta w : Nat) :
    disturbanceOf .overload b ta = some .overload ∧
    (disturbanceOf (.grams w) b ta = some .above ↔ b + ta < w) ∧
    (disturbanceOf (.grams w) b ta = some .below ↔ w + ta < b) ∧
    (disturbanceOf (.grams w) b ta = none ↔ ¬ b + ta < w ∧ ¬ w + ta < b) := by
  refine ⟨rfl, ?_, ?_, ?_⟩ <;> simp only [disturbanceOf] <;> split_ifs <;> simp <;> omega

theorem isActivity_iff (x : OrdPos) (g : Gross) (ta : Nat) : isActivity x g ta = true ↔ ∃ (r : Rec) (b : Nat),
    x.record = some r ∧ r.baseline = some b ∧ (g = .overload ∨ ∃ w, g = .grams w ∧ (b + ta < w ∨ w + ta < b)) := by
  have beyond : ∀ b, (disturbanceOf g b ta).isSome = true ↔
      (g = .overload ∨ ∃ w, g = .grams w ∧ (b + ta < w ∨ w + ta < b)) := fun b => by
    cases g with
    | overload => simp [disturbanceOf]
    | grams w =>
      obtain ⟨-, -, -, within⟩ := disturbanceOf_table b ta w
      rw [← Option.not_isNone, Bool.not_eq_true', ← Bool.not_eq_true, Option.isNone_iff_eq_none, within]
      simp
      omega
  unfold isActivity
  cases x.record with
  | none => simp
  | some r =>
    cases baseline : r.baseline with
    | none => simp [baseline]
    | some b => simp [baseline, beyond]

theorem takeShort_cases (p : Fin 4) (s : State) :
    ((∀ c, s.put.cycle = some c → c.src ≠ p) → takeShort p s = s) ∧
    (∀ c, s.put.cycle = some c → c.src = p → takeShort p s = endCycle c true s) := by
  refine ⟨fun other => ?_, fun c lit source => ?_⟩
  · cases lit : s.put.cycle with
    | none => simp only [takeShort, lit]
    | some c => simp only [takeShort, lit, if_neg (other c lit)]
  · simp only [takeShort, lit, if_pos source]

theorem takeButton_cases (q : Fin 12) (j : Nat) (s : State) :
    ((∀ c, s.put.cycle = some c → ¬ (c.tgt = q ∧ c.comp = j ∧ c.mode = .press)) → takeButton q j s = s) ∧
    (∀ c, s.put.cycle = some c → c.tgt = q → c.comp = j → c.mode = .press →
      let c' := { c with acc := c.acc + 1 }
      (c.acc + 1 < c.n → takeButton q j s = updateCycle c c' (charge c 1 none s)) ∧
      (c.n ≤ c.acc + 1 → takeButton q j s = endCycle c' false (putCycle c' (charge c 1 none s)))) := by
  refine ⟨fun other => ?_, fun c lit target comp mode => ⟨fun more => ?_, fun last => ?_⟩⟩
  · cases lit : s.put.cycle with
    | none => simp only [takeButton, lit]
    | some c => simp only [takeButton, lit, if_neg (other c lit)]
  · simp only [takeButton, lit, if_pos (And.intro target (And.intro comp mode)), if_pos more]
  · simp only [takeButton, lit, if_pos (And.intro target (And.intro comp mode)), if_neg (Nat.not_lt.mpr last)]

/-- Settles O57. -/
theorem pickerKeys : Obligations.PickerKeys := by
  unfold Obligations.PickerKeys
  refine ⟨⟨fun pos report s => ?_, isActivity_iff, fun s off => ?_⟩, fun old new s => ?_⟩
  · intro timed
    exact ⟨fun cond => activity_active cond pos report, fun cond => by simp only [activity, cond],
      fun cond => activity_idle cond pos report⟩
  · have short : ∀ p : Fin 4, exec (.keyShort (.src p)) s = .next
        (if takesReports (.src p) s then activity (.src p) .key (takeShort p s) else s) := fun p =>
      live_of_off off fun s => if takesReports (.src p) s then activity (.src p) .key (takeShort p s) else s
    have button : ∀ (q : Fin 12) j, exec (.keyButton (.ord q) j) s = .next
        (if takesReports (.ord q) s && decide (j ≤ 5) then activity (.ord q) .key (takeButton q j s) else s) := fun q j =>
      live_of_off off fun s =>
        if takesReports (.ord q) s && decide (j ≤ 5) then activity (.ord q) .key (takeButton q j s) else s
    refine ⟨fun q => live_of_off off id, fun p j => live_of_off off id, fun p no => ?_, fun q j no => ?_,
      fun p takes => ?_, fun q j takes range => ?_⟩
    · exact (short p).trans (congrArg _ (if_neg (Bool.eq_false_iff.mp no)))
    · refine (button q j).trans (congrArg _ (if_neg ?_))
      rw [Bool.and_eq_true, decide_eq_true_eq]
      rintro ⟨takes, range⟩
      exact no.elim (fun no => Bool.false_ne_true (no.symm.trans takes)) fun far => Nat.not_le.mpr far range
    · have pressed : exec (.keyShort (.src p)) s = .next (activity (.src p) .key (takeShort p s)) :=
        (short p).trans (congrArg _ (if_pos takes))
      obtain ⟨other, own⟩ := takeShort_cases p s
      exact ⟨fun h => pressed.trans (congrArg (fun u => Host.Outcome.next (activity (.src p) .key u)) (other h)),
        fun c lit source => pressed.trans (congrArg (fun u => Host.Outcome.next (activity (.src p) .key u)) (own c lit source))⟩
    · have pressed : exec (.keyButton (.ord q) j) s = .next (activity (.ord q) .key (takeButton q j s)) :=
        (button q j).trans (congrArg _ (if_pos (by rw [takes, decide_eq_true range]; rfl)))
      obtain ⟨other, own⟩ := takeButton_cases q j s
      refine ⟨fun h => pressed.trans (congrArg (fun u => Host.Outcome.next (activity (.ord q) .key u)) (other h)),
        fun c lit target comp mode => ?_⟩
      obtain ⟨more, last⟩ := own c lit target comp mode
      exact ⟨fun h => pressed.trans (congrArg (fun u => Host.Outcome.next (activity (.ord q) .key u)) (more h)),
        fun h => pressed.trans (congrArg (fun u => Host.Outcome.next (activity (.ord q) .key u)) (last h))⟩
  · exact ⟨fun held => if_pos held, fun free => if_neg free⟩

end Sys2Proof.Machine

/-! STABLE at an order position: its owner, charging, misputs and cleaning, and the table of R69 (O56). -/

namespace Sys2Proof.Machine

/-! ## Records that change at a position -/

theorem modRec_of_record {q : Fin 12} {s : State} {r : Rec} (record : s.wall.pos[q].record = some r) (f : Rec → Rec) :
    modRec q f s = { s with wall := { s.wall with
      pos := s.wall.pos.set q { s.wall.pos[q] with record := some (f r) } } } := by
  rw [modRec, modOrd, record] <;> rfl

theorem charge_of_line {c : Cycle} {s : State} {l : OLine} (line : cycleLine c s = some l) (k : Nat) (base : Option Nat) :
    charge c k base s = judgeOrphans (modRec c.tgt (fun r => { r with
      comps := r.comps.modify c.comp fun x => { x with
        weight := x.weight + k * l.charge, volume := x.volume + k * l.volume }
      full := ⟨false, false, false⟩
      baseline := match base with
        | none => r.baseline
        | some b => some b }) s) := by
  cases base <;> simp only [charge, line, Rec.chargeUnits]

/-- A record that becomes DISTURBED by a report, with its notice, before its remove light is judged (R69). -/
theorem disturbByReport_eq {q : Fin 12} {s : State} {r : Rec} (record : s.wall.pos[q].record = some r) (d : Disturbance)
    (g : Gross) (b : Nat) :
    let u := notify (.wall q (some (r.ref, r.tote)) (.disturbed d g b s.put.cycle.isSome))
      (modRec q (fun r => { r with cond := .disturbed d, misput := r.misput || s.put.cycle.isSome }) s)
    disturbByReport q d g b s = if s.put.cycle.isSome then lightOn q u else u := by
  intro u
  have told : notifyWall q (.disturbed d g b s.put.cycle.isSome)
      (modRec q (fun r => { r with cond := .disturbed d, misput := r.misput || s.put.cycle.isSome }) s) = u := by
    rw [modRec, notifyWall_modOrd, record] <;> rfl
  simp only [disturbByReport, told]

theorem lightOff_cases (q : Fin 12) (s : State) :
    (s.wall.pos[q].removeLight = false → lightOff q s = s) ∧
    (s.wall.pos[q].removeLight = true → lightOff q s =
      handOrder (.ord q) (.light .all .dark) (modOrd q (OrdPos.setLight false) s)) :=
  ⟨fun off => if_neg (Bool.eq_false_iff.mp off), fun on => if_pos on⟩

/-! ## A stable weight by its owner (R69, R87, R92) -/

/-- What the picker monitor makes of a stable weight, on the state its owner leaves (R134). -/
def monitored (q : Fin 12) (g : Gross) (s v : State) : State :=
  if isActivity s.wall.pos[q] g s.prof.profile.ta then activity (.ord q) .stable v else v

theorem takeStable_cases (q : Fin 12) (g : Gross) (s : State) :
    let st := s.wall.pos[q].state
    let u := modOrd q (OrdPos.weighed g) s
    (st = .closed → takeStable q g s = monitored q g s s) ∧
    (st ≠ .closed → st ≠ .arrived → st ≠ .active → takeStable q g s = monitored q g s u) ∧
    (st = .arrived → takeStable q g s = monitored q g s (activateRecord q g u)) ∧
    (st = .active → takeStable q g s = monitored q g s (takeActiveStable q g u)) := by
  intro st u
  refine ⟨fun state => ?_, fun open' unarrived inactive => ?_, fun state => ?_, fun state => ?_⟩
  · have state : s.wall.pos[q].state = .closed := state
    simp only [takeStable, monitored, state, if_true]
  · have open' : s.wall.pos[q].state ≠ .closed := open'
    cases state : s.wall.pos[q].state with
    | arrived => exact absurd state unarrived
    | active => exact absurd state inactive
    | closed => exact absurd state open'
    | _ => simp only [takeStable, monitored, state, reduceCtorEq, if_false, u]
  · have state : s.wall.pos[q].state = .arrived := state
    simp only [takeStable, monitored, state, reduceCtorEq, if_false, u]
  · have state : s.wall.pos[q].state = .active := state
    simp only [takeStable, monitored, state, reduceCtorEq, if_false, u]

theorem takeActiveStable_cases (q : Fin 12) (g : Gross) (s : State) :
    (∀ c, s.put.cycle = some c → c.tgt = q → c.mode = .press → takeActiveStable q g s = s) ∧
    (∀ c, s.put.cycle = some c → c.tgt = q → c.mode = .weigh → takeActiveStable q g s = weighTarget c g s) ∧
    ((∀ c, s.put.cycle = some c → c.tgt ≠ q) → takeActiveStable q g s = judgeCondition q g s) := by
  refine ⟨fun c lit target mode => ?_, fun c lit target mode => ?_, fun other => ?_⟩
  · simp only [takeActiveStable, lit, if_pos target, mode]
  · simp only [takeActiveStable, lit, if_pos target, mode]
  · cases lit : s.put.cycle with
    | none => simp only [takeActiveStable, lit]
    | some c => simp only [takeActiveStable, lit, if_neg (other c lit)]

theorem judgeCondition_cases {q : Fin 12} {s : State} {r : Rec} (record : s.wall.pos[q].record = some r) (g : Gross) :
    let b := r.baseline.getD 0
    let j := disturbanceOf g b s.prof.profile.ta
    (condOf j = r.cond → judgeCondition q g s = s) ∧
    (j = none → r.cond ≠ .clean → judgeCondition q g s = wallChanged (cleanRecord q (notifyWall q (.clean g b) s))) ∧
    (∀ d, j = some d → r.cond ≠ .disturbed d → judgeCondition q g s = wallChanged (disturbByReport q d g b s)) := by
  intro b j
  refine ⟨fun same => ?_, fun within disturbed => ?_, fun d beyond other => ?_⟩
  · have same : condOf (disturbanceOf g (r.baseline.getD 0) s.prof.profile.ta) = r.cond := same
    simp only [judgeCondition, record, if_pos same]
  · have within : disturbanceOf g (r.baseline.getD 0) s.prof.profile.ta = none := within
    have changes : ¬ condOf none = r.cond := fun h => disturbed h.symm
    simp only [judgeCondition, record, within, if_neg changes, b]
  · have beyond : disturbanceOf g (r.baseline.getD 0) s.prof.profile.ta = some d := beyond
    have changes : ¬ condOf (some d) = r.cond := fun h => other h.symm
    simp only [judgeCondition, record, beyond, if_neg changes, b]

/-- An ARRIVED record at its first stable weight, from the state with the weight noted (R68). -/
theorem activateRecord_weighed (q : Fin 12) (w : Nat) (s : State) :
    activateRecord q (.grams w) (modOrd q (OrdPos.weighed (.grams w)) s) = recordEntered
      (notify (.wall q (s.wall.pos[q].record.map fun r => (r.ref, r.tote)) (.active w))
        (modOrd q (fun x => { x with
          latest := some (.grams w), state := .active,
          record := x.record.map fun r => { r with baseline := some w, cond := .clean } }) s)) := by
  have changed : modRec q (fun r => { r with baseline := some w, cond := .clean })
      (modOrd q (OrdPos.putState .active) (modOrd q (OrdPos.weighed (.grams w)) s)) =
      modOrd q (fun x => { x with
        latest := some (.grams w), state := .active,
        record := x.record.map fun r => { r with baseline := some w, cond := .clean } }) s := by
    rw [modRec, modOrd_modOrd, modOrd_modOrd] <;> rfl
  show recordEntered (notifyWall q (.active w) (modRec q (fun r => { r with baseline := some w, cond := .clean })
      (modOrd q (OrdPos.putState .active) (modOrd q (OrdPos.weighed (.grams w)) s)))) = _
  have named : (s.wall.pos[q].record.map fun r => { r with baseline := some w, cond := .clean }).map (fun r => (r.ref, r.tote)) =
      s.wall.pos[q].record.map fun r => (r.ref, r.tote) := by
    rw [Option.map_map] <;> rfl
  rw [changed, notifyWall_modOrd]
  exact congrArg (fun n => recordEntered (notify (.wall q n (.active w)) _)) named

theorem weighTarget_of_line {c : Cycle} {s : State} {l : OLine} {r : Rec} (line : cycleLine c s = some l)
    (record : s.wall.pos[c.tgt].record = some r) (g : Gross) : weighTarget c g s =
      actOnVerdict c (verdict g (r.baseline.getD 0) (c.n - c.acc) l.basis s.prof.profile.ta s.prof.profile.tp) g s := by
  simp only [weighTarget, line, record]

/-- Settles O56. -/
theorem stableWeightsActByOwner : Obligations.StableWeightsActByOwner := by
  unfold Obligations.StableWeightsActByOwner
  refine ⟨⟨⟨fun s p g => congrArg _ (ite_self s), fun s q g off => ?_⟩, fun c k base s => ?_, fun q d g b s r record => ?_,
    fun q s r record => ?_⟩, fun b ta w => ?_⟩
  · have stable : exec (.stable (.ord q) g) s = .next
        (if takesReports (.ord q) s && validGross g then takeStable q g s else s) :=
      live_of_off off fun s => if takesReports (.ord q) s && validGross g then takeStable q g s else s
    refine ⟨fun no => stable.trans (congrArg _ (if_neg ?_)), fun takes valid => ?_⟩
    · rw [Bool.and_eq_true]
      rintro ⟨takes, valid⟩
      exact no.elim (fun no => Bool.false_ne_true (no.symm.trans takes)) fun no => Bool.false_ne_true (no.symm.trans valid)
    intro x u act
    have taken : exec (.stable (.ord q) g) s = .next (takeStable q g s) :=
      stable.trans (congrArg _ (if_pos (by rw [takes, valid]; rfl)))
    obtain ⟨closed, noted, arrived, active⟩ := takeStable_cases q g s
    have weighed : u.wall.pos[q] = { x with latest := some g } := modOrd_self q (OrdPos.weighed g) s
    have owner : ∀ {v w : State}, takeStable q g s = monitored q g s v → v = w →
        exec (.stable (.ord q) g) s = .next (act w) := fun {v w} h e => taken.trans (congrArg _ (h.trans (congrArg act e)))
    obtain ⟨press, weigh, other⟩ := takeActiveStable_cases q g u
    refine ⟨fun state => owner (closed state) rfl, fun open' unarrived inactive => owner (noted open' unarrived inactive) rfl,
      fun w state grams => ?_, fun state overload => ?_, fun c state lit target mode => owner (active state) (press c lit target mode),
      fun c l r state lit target mode line record => ?_, fun r state free record => ?_⟩
    · subst grams
      exact owner (arrived state) (activateRecord_weighed q w s)
    · subst overload
      refine owner (arrived state) (show notifyWall q .overload u = _ from ?_)
      exact (notifyWall_modOrd q .overload (OrdPos.weighed .overload) s)
    · intro v base
      have record' : u.wall.pos[c.tgt].record = some r := by
        have own : u.wall.pos[q].record = some r := by rw [weighed]; exact record
        simpa only [target] using own
      refine owner (active state) ((weigh c lit target mode).trans ((weighTarget_of_line (s := u) line record' g).trans ?_))
      show actOnVerdict c v g u = _
      clear_value v
      cases v <;> cases g <;> rfl
    · have record' : u.wall.pos[q].record = some r := by rw [weighed]; exact record
      obtain ⟨same, clean, disturbed⟩ := judgeCondition_cases (s := u) record' g
      have judged := other free
      exact ⟨fun h => owner (active state) (judged.trans (same h)),
        fun within h => owner (active state) (judged.trans (clean within h)),
        fun d beyond h => owner (active state) (judged.trans (disturbed d beyond h))⟩
  · refine ⟨fun none => by simp only [charge, none], fun l line => (charge_of_line line k base).trans ?_⟩
    cases base <;> rfl
  · intro lit u
    have changed : notify (.wall q (some (r.ref, r.tote)) (.disturbed d g b lit))
        (modRec q (fun r => { r with cond := .disturbed d, misput := r.misput || lit }) s) = u :=
      congrArg _ (modRec_of_record record _)
    have eq := disturbByReport_eq record d g b
    have picker : u.picker = s.picker := notify_picker ..
    refine ⟨fun dark => ?_, fun misput free => ?_⟩
    · refine eq.trans ?_
      split_ifs with misput
      · have held := dark.resolve_left fun h => Bool.false_ne_true (h.symm.trans misput)
        exact (congrArg (lightOn q) changed).trans (if_pos (by rw [picker]; exact held))
      · exact changed
    · refine eq.trans ((if_pos misput).trans ((congrArg (lightOn q) changed).trans (if_neg ?_)))
      rw [picker]
      exact free
  · intro x u
    have changed : modRec q (fun r => { r with cond := .clean, misput := false }) s = u x := modRec_of_record record _
    have cleans : cleanRecord q s = lightOff q (u x) := congrArg (lightOff q) changed
    have same : (u x).wall.pos[q] = x := by
      show (s.wall.pos.set q x)[q] = x
      simp
    obtain ⟨stays, goes⟩ := lightOff_cases q (u x)
    refine ⟨fun off => cleans.trans (stays (by rw [same]; exact off)), fun on => ?_⟩
    refine cleans.trans ((goes (by rw [same]; exact on)).trans ?_)
    have dark : modOrd q (OrdPos.setLight false) (modOrd q (fun _ => x) s) = u { x with removeLight := false } :=
      modOrd_modOrd ..
    exact congrArg _ dark
  · obtain ⟨overload, above, below, within⟩ := disturbanceOf_table b ta w
    rw [above, below, within, abs_le]
    refine ⟨overload, ?_, ?_, ?_, rfl, fun d => rfl⟩ <;> omega

end Sys2Proof.Machine

/-! What the end of a put cycle leaves behind the writing of its line: the lines of the other offers, and a trail of notices
that are not LINE notices (for O58). -/

namespace Sys2Proof.Machine

/-! ## Trails of notices -/

/-- A notice of another kind than LINE (R96). -/
def notLine (b : NoticeBody) : Prop := ∀ t p i ref q d st ps, b ≠ .line t p i ref q d st ps

theorem notLine_release {t : Option Nat} {r : Reason} {p : Option (Fin 4 × Slot)} {n : Option Nat} {es : List SummaryEntry} :
    notLine (.release t r p n es) := nofun

theorem notLine_wall {q : Fin 12} {n : Option (Nat × Nat)} {e : WallEvent} : notLine (.wall q n e) := nofun

/-- Every offer record keeps its lines, and the outbound queue grows by notices other than LINE alone. -/
structure Trails (s u : State) : Prop where
  offers : ∀ t o, findOffer t s = some o → ∃ o', findOffer t u = some o' ∧ o'.lines = o.lines
  noted : Noted notLine s u
  clock : u.bench.clock = s.bench.clock

theorem Trails.trans {s u v : State} (h : Trails s u) (k : Trails u v) : Trails s v where
  offers t o found := by
    obtain ⟨o', found', lines⟩ := h.offers t o found
    obtain ⟨o'', found'', lines'⟩ := k.offers t o' found'
    exact ⟨o'', found'', lines'.trans lines⟩
  noted := h.noted.trans h.clock k.noted
  clock := k.clock.trans h.clock

theorem Trails.of_noted {s u : State} (offers : u.offers = s.offers) (bench : u.bench = s.bench) (noted : Noted notLine s u) :
    Trails s u :=
  ⟨fun t o found => ⟨o, (findOffer_congr offers t).trans found, rfl⟩, noted, by rw [bench]⟩

theorem Trails.of_link {s u : State} (offers : u.offers = s.offers) (bench : u.bench = s.bench) (link : u.link = s.link) :
    Trails s u := .of_noted offers bench (.of_link link)

theorem Trails.refl (s : State) : Trails s s := .of_link rfl rfl rfl

theorem notify_trails {b : NoticeBody} (other : notLine b) (s : State) : Trails s (notify b s) :=
  .of_noted (notify_offers ..) (notify_bench ..) (notify_noted other s)

theorem Marked.noted {s u : State} {allowed : Temp → OLine → Prop} (h : Marked s allowed u) : Noted notLine s u := by
  obtain ⟨ns, out, all⟩ := h.out
  refine ⟨h.link, ns, out, fun n mem => ?_⟩
  obtain ⟨clock, q, r, c, -, -, -, -, body⟩ := all n mem
  exact ⟨clock, by rw [body]; exact notLine_wall⟩

theorem OrphansJudged.trails {s u : State} {judged : List (Fin 4)} (h : OrphansJudged s judged u) : Trails s u :=
  .of_noted h.apart.offers h.marked.bench h.marked.noted

theorem orphanJudged (p : Fin 4) (s : State) : OrphansJudged s [p] (judgeOrphan p s) :=
  (OrphansJudged.refl s).step List.not_mem_nil

theorem attempt_trails (s : State) : Trails s (attempt s) := by
  have frame := (attempted s).frame
  exact .of_noted frame.offers frame.marked.bench frame.marked.noted

theorem orderedOut_trails (p : Fin 4) (sl : Slot) (t : Nat) (r : Reason) (s : State) : Trails s (orderedOut p sl t r s) := by
  obtain ⟨-, -, link, -, -, -, bench, -, -⟩ := orderedOut_frame p sl t r s
  refine ⟨fun x o found => ?_, .of_link link, by rw [bench]⟩
  rw [findOffer_congr (orderedOut_offers p sl t r s), findOffer_modOffer (f := Offer.orderedOut r) fun _ => rfl, found]
  exact ⟨_, rfl, by beta_reduce; split_ifs <;> rfl⟩

/-! ## What a release leaves of the wall -/

/-- A release, its lines and notices, and the wall it leaves as it was. -/
theorem releaseSlot_trails (p : Fin 4) (sl : Slot) (t : Nat) (r : Reason) (s : State) :
    Trails s (releaseSlot p sl t r s) ∧ (releaseSlot p sl t r s).wall = s.wall := by
  obtain ⟨-, -, -, -, wall, -⟩ := orderedOut_frame p sl t r s
  have out := orderedOut_trails p sl t r s
  cases releasable : s.src[p].releasable sl with
  | false => exact ⟨by rw [releaseSlot_of_not releasable]; exact .refl s, by rw [releaseSlot_of_not releasable]⟩
  | true =>
    cases found : findOffer t s with
    | none =>
      rw [releaseSlot_of_none releasable found]
      exact ⟨out, wall⟩
    | some o =>
      rw [releaseSlot_eq releasable found]
      exact ⟨out.trans (notify_trails notLine_release _), (notify_wall ..).trans wall⟩

theorem askRelease_trails (t : Nat) (h : HeldRelease) (s : State) :
    Trails s (askRelease t h s) ∧ (askRelease t h s).wall = s.wall := by
  unfold askRelease
  split
  · exact ⟨.refl s, rfl⟩
  · split
    · split_ifs
      · exact ⟨.refl s, rfl⟩
      · exact releaseSlot_trails ..
    · exact ⟨.of_link rfl rfl rfl, rfl⟩
    · exact ⟨.refl s, rfl⟩
  · split_ifs
    · exact releaseSlot_trails ..
    · exact ⟨.refl s, rfl⟩

/-- What the hand-over changes of the wall: full marks alone. -/
def MarksApart (s u : State) : Prop := ∀ q : Fin 12, u.wall.pos[q].unmarked = s.wall.pos[q].unmarked

theorem MarksApart.of_wall {s u : State} (h : u.wall = s.wall) : MarksApart s u := fun q => by rw [h]

theorem MarksApart.trans {s u v : State} (h : MarksApart s u) (k : MarksApart u v) : MarksApart s v :=
  fun q => (k q).trans (h q)

theorem judgeFace_trails (p : Fin 4) (s : State) : Trails s (judgeFace p s) ∧ MarksApart s (judgeFace p s) := by
  unfold judgeFace
  split_ifs
  · split
    · exact ⟨.refl s, fun _ => rfl⟩
    · next o _ =>
      split_ifs
      · exact ⟨(orphanJudged p s).trails, (orphanJudged p s).marked.unmarked⟩
      · obtain ⟨trails, wall⟩ := releaseSlot_trails p .face o.tote .done s
        exact ⟨trails, .of_wall wall⟩
  · exact ⟨.refl s, fun _ => rfl⟩

theorem endGrace_trails (c : Cycle) (fault : Bool) (s : State) : Trails s (endGrace c fault s) ∧
    (endGrace c fault s).wall = s.wall := by
  have stopped : Trails s (setGraceT none s) := .of_link rfl rfl rfl
  unfold endGrace
  split_ifs
  · exact ⟨stopped, rfl⟩
  · obtain ⟨trails, wall⟩ := askRelease_trails c.offer .exposed (setGraceT none s)
    exact ⟨stopped.trans trails, wall⟩
  · exact ⟨.refl s, rfl⟩

theorem handOver_trails (c : Cycle) (fault : Bool) (s : State) : Trails s (handOver c fault s) ∧
    MarksApart s (handOver c fault s) := by
  obtain ⟨ended, wall⟩ := endGrace_trails c fault s
  have idle : ∀ u, Trails u (stopIdle u) := fun u => .of_link rfl rfl rfl
  cases fault with
  | true => exact ⟨ended.trans (idle _), .of_wall wall⟩
  | false =>
    obtain ⟨judged, marks⟩ := judgeFace_trails c.src (endGrace c false s)
    exact ⟨(ended.trans judged).trans (idle _), (MarksApart.of_wall wall).trans marks⟩

/-! ## The settlement of the target (R92, R93, R98) -/

/-- What a settlement leaves: the field lines, the put sequencer, the picker, and the states of the positions. -/
structure SettleFrame (s u : State) : Prop where
  trails : Trails s u
  lines : u.lines = s.lines
  put : u.put = s.put
  picker : u.picker = s.picker
  src : ∀ p : Fin 4, u.src[p].state = s.src[p].state
  ord : ∀ q : Fin 12, u.wall.pos[q].state = s.wall.pos[q].state

theorem SettleFrame.refl (s : State) : SettleFrame s s := ⟨.refl s, rfl, rfl, rfl, fun _ => rfl, fun _ => rfl⟩

theorem SettleFrame.trans {s u v : State} (h : SettleFrame s u) (k : SettleFrame u v) : SettleFrame s v :=
  ⟨h.trails.trans k.trails, k.lines.trans h.lines, k.put.trans h.put, k.picker.trans h.picker,
    fun p => (k.src p).trans (h.src p), fun q => (k.ord q).trans (h.ord q)⟩

theorem modRec_settleFrame (q : Fin 12) (f : Rec → Rec) (s : State) : SettleFrame s (modRec q f s) :=
  ⟨.of_link rfl rfl rfl, rfl, rfl, rfl, fun _ => rfl, fun q' => by
    rw [modRec, modOrd_getElem]
    split_ifs <;> rfl⟩

theorem notify_settleFrame {b : NoticeBody} (other : notLine b) (s : State) : SettleFrame s (notify b s) :=
  ⟨notify_trails other s, notify_lines .., notify_put .., notify_picker .., fun p => by rw [notify_src],
    fun q => by rw [notify_wall]⟩

theorem judgeOrphans_settleFrame (s : State) : SettleFrame s (judgeOrphans s) := by
  have h := orphansJudged s
  refine ⟨h.trails, h.apart.lines, h.apart.put, h.apart.picker, fun p => ?_, fun q => OrdPos.state_of_unmarked (h.marked.unmarked q)⟩
  obtain ⟨t, -, e⟩ := (h.src p).1 (mem_judged p)
  rw [e] <;> rfl

theorem disturb_of_record {q : Fin 12} {s : State} {r : Rec} (record : s.wall.pos[q].record = some r) (d : Disturbance)
    (g : Gross) : disturb q d g s = judgeOrphans
      (notify (.wall q (some (r.ref, r.tote)) (.disturbed d g (r.baseline.getD 0) false))
        (modRec q (fun r => { r with cond := .disturbed d }) s)) := by
  have told : notifyWall q (.disturbed d g (r.baseline.getD 0) false) (modRec q (fun r => { r with cond := .disturbed d }) s) =
      notify (.wall q (some (r.ref, r.tote)) (.disturbed d g (r.baseline.getD 0) false))
        (modRec q (fun r => { r with cond := .disturbed d }) s) := by
    rw [modRec, notifyWall_modOrd, record] <;> rfl
  simp only [disturb, record, told]

theorem disturb_settleFrame (q : Fin 12) (d : Disturbance) (g : Gross) (s : State) : SettleFrame s (disturb q d g s) := by
  cases record : s.wall.pos[q].record with
  | none => simpa only [disturb, record] using SettleFrame.refl s
  | some r =>
    rw [disturb_of_record record]
    exact ((modRec_settleFrame ..).trans (notify_settleFrame notLine_wall _)).trans (judgeOrphans_settleFrame _)

theorem settleTarget_settleFrame (q : Fin 12) (s : State) : SettleFrame s (settleTarget q s) := by
  unfold settleTarget
  split
  · split
    · exact .refl s
    · exact disturb_settleFrame ..
  · exact .refl s

theorem settlePress_settleFrame (q : Fin 12) (s : State) : SettleFrame s (settlePress q s) := by
  unfold settlePress
  split
  · exact .refl s
  · exact modRec_settleFrame ..
  · exact disturb_settleFrame ..

/-- The record a position holds, full marks and all else of the position as in `s` (R79). -/
def HoldsOnly (q : Fin 12) (r : Rec) (s u : State) : Prop :=
  u.wall.pos[q].unmarked = OrdPos.unmarked { s.wall.pos[q] with record := some r }

theorem HoldsOnly.same {q : Fin 12} {r : Rec} {s : State} (record : s.wall.pos[q].record = some r) : HoldsOnly q r s s := by
  rw [HoldsOnly, ← record]

theorem HoldsOnly.marks {q : Fin 12} {r : Rec} {s u v : State} (h : HoldsOnly q r s u) (k : MarksApart u v) :
    HoldsOnly q r s v := (k q).trans h

theorem HoldsOnly.from {q : Fin 12} {r : Rec} {s u v : State} (wall : u.wall = s.wall) (h : HoldsOnly q r u v) :
    HoldsOnly q r s v := by
  rw [HoldsOnly, ← wall]
  exact h

theorem modRec_holdsOnly {q : Fin 12} {r : Rec} {s : State} (record : s.wall.pos[q].record = some r) (f : Rec → Rec) :
    HoldsOnly q (f r) s (modRec q f s) := by
  have now : (modRec q f s).wall.pos[q] = { s.wall.pos[q] with record := some (f r) } := by
    rw [modRec, modOrd_self, record] <;> rfl
  rw [HoldsOnly, now]

theorem disturb_holdsOnly {q : Fin 12} {s : State} {r : Rec} (record : s.wall.pos[q].record = some r) (d : Disturbance)
    (g : Gross) : HoldsOnly q { r with cond := .disturbed d } s (disturb q d g s) := by
  have held : HoldsOnly q { r with cond := .disturbed d } s (modRec q (fun r => { r with cond := .disturbed d }) s) :=
    modRec_holdsOnly record _
  rw [disturb_of_record record]
  exact (held.marks (.of_wall (notify_wall ..))).marks (orphansJudged _).marked.unmarked

/-- A record as a judgement of the latest weight leaves it (R69). -/
def Rec.judged (g : Gross) (ta : Nat) (r : Rec) : Rec :=
  match disturbanceOf g (r.baseline.getD 0) ta with
  | none => r
  | some d => { r with cond := .disturbed d }

theorem settleTarget_cases {q : Fin 12} {s : State} {r : Rec} {g : Gross} (record : s.wall.pos[q].record = some r)
    (latest : s.wall.pos[q].latest = some g) :
    (disturbanceOf g (r.baseline.getD 0) s.prof.profile.ta = none → settleTarget q s = s) ∧
    ∀ d, disturbanceOf g (r.baseline.getD 0) s.prof.profile.ta = some d → settleTarget q s = disturb q d g s := by
  refine ⟨fun within => ?_, fun d beyond => ?_⟩
  · simp only [settleTarget, record, latest, within]
  · simp only [settleTarget, record, latest, beyond]

theorem settleTarget_holdsOnly {q : Fin 12} {s : State} {r : Rec} {g : Gross} (record : s.wall.pos[q].record = some r)
    (latest : s.wall.pos[q].latest = some g) : HoldsOnly q (r.judged g s.prof.profile.ta) s (settleTarget q s) := by
  obtain ⟨stays, goes⟩ := settleTarget_cases record latest
  cases e : disturbanceOf g (r.baseline.getD 0) s.prof.profile.ta with
  | none =>
    have same : r.judged g s.prof.profile.ta = r := by simp only [Rec.judged, e]
    rw [stays e, same]
    exact .same record
  | some d =>
    have same : r.judged g s.prof.profile.ta = { r with cond := .disturbed d } := by simp only [Rec.judged, e]
    rw [goes d e, same]
    exact disturb_holdsOnly record d g

/-- A record as the end of a PRESS cycle leaves it (R92). -/
def Rec.pressed (g : Gross) (r : Rec) : Rec :=
  match g with
  | .grams w => { r with baseline := some w }
  | .overload => { r with cond := .disturbed .overload }

theorem settlePress_holdsOnly {q : Fin 12} {s : State} {r : Rec} {g : Gross} (record : s.wall.pos[q].record = some r)
    (latest : s.wall.pos[q].latest = some g) : HoldsOnly q (r.pressed g) s (settlePress q s) := by
  cases g with
  | grams w =>
    have pressed : settlePress q s = modRec q (fun r => { r with baseline := some w }) s := by
      simp only [settlePress, latest]
    rw [pressed]
    exact modRec_holdsOnly record _
  | overload =>
    have pressed : settlePress q s = disturb q .overload .overload s := by simp only [settlePress, latest]
    rw [pressed]
    exact disturb_holdsOnly record ..

end Sys2Proof.Machine

/-! The end and the cancellation of a put cycle: the line written, the target settled, the lights, the hand-over (O58). -/

namespace Sys2Proof.Machine

/-! ## The put list (R6) -/

theorem addPut_of_new {tote comp k : Nat} {es : List PutEntry} (new : ∀ e ∈ es, ¬ (e.tote = tote ∧ e.comp = comp)) :
    addPut tote comp k es = es ++ [{ tote := tote, comp := comp, units := k }] := by
  induction es with
  | nil => rfl
  | cons e es ih =>
    rw [addPut, if_neg (new e List.mem_cons_self), ih fun x mem => new x (List.mem_cons_of_mem _ mem), List.cons_append]

theorem addPut_of_found {tote comp k : Nat} {before after : List PutEntry} {e : PutEntry}
    (first : ∀ x ∈ before, ¬ (x.tote = tote ∧ x.comp = comp)) (same : e.tote = tote ∧ e.comp = comp) :
    addPut tote comp k (before ++ e :: after) = before ++ { e with units := e.units + k } :: after := by
  induction before with
  | nil => exact if_pos same
  | cons x before ih =>
    rw [List.cons_append, addPut, if_neg (first x List.mem_cons_self),
      ih fun y mem => first y (List.mem_cons_of_mem _ mem), List.cons_append]

/-! ## The line that is written (R95, R96) -/

theorem findOffer_writeLine {c : Cycle} {s : State} {o : Offer} (found : findOffer c.offer s = some o) (f : OLine → OLine) :
    findOffer c.offer (writeLine c f s) = some { o with
      lines := o.lines.modify c.line fun l => f (l.accept c.tgtTote c.comp c.acc) } := by
  rw [writeLine, findOffer_modOffer (f := fun o => { o with
    lines := o.lines.modify c.line fun l => f (l.accept c.tgtTote c.comp c.acc) }) fun _ => rfl, found, Option.map_some,
    if_pos (findOffer_tote found)]

theorem cycleLine_writeLine {c : Cycle} {s : State} {o : Offer} {l : OLine} (found : findOffer c.offer s = some o)
    (line : o.lines[c.line]? = some l) (f : OLine → OLine) :
    cycleLine c (writeLine c f s) = some (f (l.accept c.tgtTote c.comp c.acc)) := by
  rw [cycleLine, findOffer_writeLine found, Option.bind_some]
  rw [List.getElem?_modify_eq, line] <;> rfl

/-- The state with the line written and the LINE notice handed over (R95 steps 1 and 2). -/
def lineTold (c : Cycle) (short : Bool) (s : State) : State := notifyLine c (writeLine c (fun l => l.closed short) s)

theorem lineTold_cases {c : Cycle} {s : State} {o : Offer} {l : OLine} (found : findOffer c.offer s = some o)
    (line : o.lines[c.line]? = some l) (short : Bool) :
    let ended := (l.accept c.tgtTote c.comp c.acc).closed short
    (ended.state = .opn → lineTold c short s = writeLine c (fun l => l.closed short) s) ∧
    (ended.state ≠ .opn → lineTold c short s = notify
      (.line c.offer c.src c.line l.ref l.qty ended.done ended.state ended.puts) (writeLine c (fun l => l.closed short) s)) := by
  intro ended
  have now : cycleLine c (writeLine c (fun l => l.closed short) s) = some ended := cycleLine_writeLine found line _
  refine ⟨fun opn => ?_, fun closed => ?_⟩
  · simp only [lineTold, notifyLine, now, if_pos opn]
  · have told : lineTold c short s = notify
        (.line c.offer c.src c.line ended.ref ended.qty ended.done ended.state ended.puts)
        (writeLine c (fun l => l.closed short) s) := by
      simp only [lineTold, notifyLine, now, if_neg closed]
    exact told

theorem notifyLine_frame (c : Cycle) (s : State) : let t := notifyLine c s
    t.offers = s.offers ∧ t.src = s.src ∧ t.wall = s.wall ∧ t.put = s.put ∧ t.picker = s.picker ∧ t.bench = s.bench ∧
    t.prof = s.prof ∧ t.lines = s.lines := by
  unfold notifyLine
  split
  · exact ⟨rfl, rfl, rfl, rfl, rfl, rfl, rfl, rfl⟩
  · split_ifs <;> simp

theorem notify_of_masked {b : NoticeBody} {s : State} (entry : b.maskEntry s.prof.profile.mask = some false) :
    notify b s = s := by
  unfold notify
  rw [entry]

theorem notify_of_room {b : NoticeBody} {s : State} (entry : b.maskEntry s.prof.profile.mask = some true)
    (few : noticeCount s < 48) : notify b s = pushNotice b s := by
  unfold notify
  rw [entry]
  exact if_pos few

theorem notify_of_full {b : NoticeBody} {s : State} (entry : b.maskEntry s.prof.profile.mask = some true)
    (many : 48 ≤ noticeCount s) : notify b s = setLost s := by
  unfold notify
  rw [entry]
  exact if_neg (Nat.not_lt.mpr many)

/-- The notices of the first two steps of an end: the LINE notice of a line that has closed, or none (R96). -/
theorem lineTold_out {c : Cycle} {s : State} {o : Offer} {l : OLine} (found : findOffer c.offer s = some o)
    (line : o.lines[c.line]? = some l) (short : Bool) :
    let ended := (l.accept c.tgtTote c.comp c.acc).closed short
    (ended.state ≠ .opn → s.prof.profile.mask.line = true → noticeCount s < 48 → (lineTold c short s).link.out =
      s.link.out ++ [.notice ⟨s.bench.clock, .line c.offer c.src c.line l.ref l.qty ended.done ended.state ended.puts⟩]) ∧
    (ended.state = .opn ∨ s.prof.profile.mask.line = false ∨ 48 ≤ noticeCount s →
      (lineTold c short s).link.out = s.link.out) := by
  intro ended
  obtain ⟨opn, closed⟩ := lineTold_cases found line short
  have entry : ∀ {b}, s.prof.profile.mask.line = b →
      (NoticeBody.line c.offer c.src c.line l.ref l.qty ended.done ended.state ended.puts).maskEntry
        (writeLine c (fun l => l.closed short) s).prof.profile.mask = some b := fun h => congrArg some h
  refine ⟨fun h mask few => ?_, fun h => ?_⟩
  · rw [closed h, notify_of_room (entry mask) few] <;> rfl
  · by_cases state : ended.state = .opn
    · rw [opn state] <;> rfl
    · rw [closed state]
      cases mask : s.prof.profile.mask.line with
      | false => rw [notify_of_masked (entry mask)] <;> rfl
      | true =>
        have many : 48 ≤ noticeCount s := (h.resolve_left state).resolve_left fun off => Bool.false_ne_true (off.symm.trans mask)
        rw [notify_of_full (entry mask) many] <;> rfl

/-! ## The two sequences of steps (R95, R98) -/

/-- The dark LIGHT orders of a cycle, withheld while the picker is HELD (R86). -/
def dimmed (c : Cycle) (faulting : Option Pos) (s : State) : State :=
  if s.picker.cond = .held then s else darkCycle c faulting s

/-- The settlement at the end of a cycle (R92, R93). -/
def settledEnd (c : Cycle) (short : Bool) (s : State) : State :=
  match c.mode with
  | .press => settlePress c.tgt s
  | .weigh => if short then settleTarget c.tgt s else s

/-- The settlement at a cancellation (R98). -/
def settledCancel (c : Cycle) (faulting : Option Pos) (s : State) : State :=
  if faulting = some (.ord c.tgt) then s else settleTarget c.tgt s

/-- The state an end hands over (R95 steps 1 to 5). -/
def endedState (c : Cycle) (short : Bool) (s : State) : State :=
  deleteCycle (settledEnd c short (dimmed c none (lineTold c short s)))

/-- The state a cancellation hands over (R98 steps 1 to 5). -/
def cancelledState (c : Cycle) (faulting : Option Pos) (s : State) : State :=
  let u := deleteCycle (dimmed c faulting (settledCancel c faulting (writeLine c id s)))
  if faulting = some (.src c.src) then clearServed c.offer u else u

theorem endCycle_eq (c : Cycle) (short : Bool) (s : State) :
    Machine.endCycle c short s = attempt (handOver c false (endedState c short s)) := by
  cases mode : c.mode <;> simp only [endCycle, endedState, settledEnd, lineTold, dimmed, mode] <;> rfl

theorem cancelCycle_eq (c : Cycle) (faulting : Option Pos) (s : State) : cancelCycle c faulting s =
    handOver c (decide (faulting = some (.src c.src))) (cancelledState c faulting s) := rfl

theorem dimmed_frame (c : Cycle) (faulting : Option Pos) (s : State) : let t := dimmed c faulting s
    t.offers = s.offers ∧ t.src = s.src ∧ t.wall = s.wall ∧ t.put = s.put ∧ t.picker = s.picker ∧ t.bench = s.bench ∧
    t.prof = s.prof ∧ t.link = s.link := by
  unfold dimmed darkCycle lightSource lightTarget
  dsimp only
  split_ifs <;> simp

theorem dimmed_trails (c : Cycle) (faulting : Option Pos) (s : State) : Trails s (dimmed c faulting s) := by
  obtain ⟨offers, -, -, -, -, bench, -, link⟩ := dimmed_frame c faulting s
  exact .of_link offers bench link

theorem settledEnd_settleFrame (c : Cycle) (short : Bool) (s : State) : SettleFrame s (settledEnd c short s) := by
  unfold settledEnd
  split
  · exact settlePress_settleFrame ..
  · split_ifs
    · exact settleTarget_settleFrame ..
    · exact .refl s

theorem settledCancel_settleFrame (c : Cycle) (faulting : Option Pos) (s : State) :
    SettleFrame s (settledCancel c faulting s) := by
  unfold settledCancel
  split_ifs
  · exact .refl s
  · exact settleTarget_settleFrame ..

theorem endedState_trails (c : Cycle) (short : Bool) (s : State) : Trails (lineTold c short s) (endedState c short s) :=
  ((dimmed_trails ..).trans (settledEnd_settleFrame ..).trails).trans (.of_link rfl rfl rfl)

theorem endCycle_trails (c : Cycle) (short : Bool) (s : State) : Trails (lineTold c short s) (endCycle c short s) := by
  rw [endCycle_eq]
  exact ((endedState_trails ..).trans (handOver_trails ..).1).trans (attempt_trails _)

theorem cancelledState_trails (c : Cycle) (faulting : Option Pos) (s : State) :
    Trails (writeLine c id s) (cancelledState c faulting s) := by
  have settled : Trails (writeLine c id s) (deleteCycle (dimmed c faulting (settledCancel c faulting (writeLine c id s)))) :=
    ((settledCancel_settleFrame ..).trails.trans (dimmed_trails ..)).trans (.of_link rfl rfl rfl)
  unfold cancelledState
  dsimp only
  split_ifs
  · obtain ⟨-, -, -, bench, offers, -, -, link, -⟩ := clearServed_fields c.offer
      (deleteCycle (dimmed c faulting (settledCancel c faulting (writeLine c id s))))
    exact settled.trans (.of_link offers bench link)
  · exact settled

/-! ## Lights (R85, R86) -/

theorem darkCycle_lines_congr {s t : State} (lines : t.lines = s.lines)
    (src : ∀ p : Fin 4, t.src[p].state = s.src[p].state) (ord : ∀ q : Fin 12, t.wall.pos[q].state = s.wall.pos[q].state)
    (c : Cycle) (faulting : Option Pos) : (darkCycle c faulting t).lines = (darkCycle c faulting s).lines := by
  have source : (if faulting = some (.src c.src) then t else lightSource c .dark t).lines =
      (if faulting = some (.src c.src) then s else lightSource c .dark s).lines := by
    split_ifs
    · exact lines
    · exact handOrder_lines_congr lines (isFaulted_congr_src src _) _
  unfold darkCycle
  dsimp only
  by_cases target : faulting = some (.ord c.tgt)
  · rw [if_pos target, if_pos target]
    exact source
  · rw [if_neg target, if_neg target]
    refine handOrder_lines_congr source (isFaulted_congr_ord (fun q => ?_) _) _
    unfold lightSource
    split_ifs <;> simp only [handOrder_wall, ord q]

/-- The lines after the dark LIGHT orders, sent from a state with the lines and the position states of `s`. -/
theorem dimmed_lines {s t : State} (lines : t.lines = s.lines) (src : ∀ p : Fin 4, t.src[p].state = s.src[p].state)
    (ord : ∀ q : Fin 12, t.wall.pos[q].state = s.wall.pos[q].state) (picker : t.picker = s.picker) (c : Cycle)
    (faulting : Option Pos) :
    (s.picker.cond = .held → (dimmed c faulting t).lines = s.lines) ∧
    (s.picker.cond ≠ .held → (dimmed c faulting t).lines = (darkCycle c faulting s).lines) := by
  unfold dimmed
  rw [picker]
  refine ⟨fun held => ?_, fun free => ?_⟩
  · rw [if_pos held, lines]
  · rw [if_neg free]
    exact darkCycle_lines_congr lines src ord c faulting

theorem endedState_lines (c : Cycle) (short : Bool) (s : State) :
    (s.picker.cond = .held → (endedState c short s).lines = s.lines) ∧
    (s.picker.cond ≠ .held → (endedState c short s).lines = (darkCycle c none s).lines) := by
  obtain ⟨-, src, wall, -, picker, -, -, lines⟩ := notifyLine_frame c (writeLine c (fun l => l.closed short) s)
  have settled : (endedState c short s).lines = (dimmed c none (lineTold c short s)).lines :=
    (settledEnd_settleFrame ..).lines
  rw [settled]
  exact dimmed_lines (s := s) (t := lineTold c short s) (lines.trans rfl) (fun p => congrArg (fun v => v[p].state) src)
    (fun q => congrArg (fun w => w.pos[q].state) wall) (picker.trans rfl) c none

theorem cancelledState_lines (c : Cycle) (faulting : Option Pos) (s : State) :
    (s.picker.cond = .held → (cancelledState c faulting s).lines = s.lines) ∧
    (s.picker.cond ≠ .held → (cancelledState c faulting s).lines = (darkCycle c faulting s).lines) := by
  have frame := settledCancel_settleFrame c faulting (writeLine c id s)
  have dark := dimmed_lines (t := settledCancel c faulting (writeLine c id s)) (s := s) frame.lines frame.src frame.ord
    frame.picker c faulting
  have same : (cancelledState c faulting s).lines = (dimmed c faulting (settledCancel c faulting (writeLine c id s))).lines := by
    unfold cancelledState
    dsimp only
    split_ifs
    · exact (clearServed_fields ..).2.2.1
    · rfl
  rw [same]
  exact dark

/-! ## The hand-over (R97) -/

theorem releaseSlot_face_leaving (p : Fin 4) (t : Nat) (r : Reason) {s : State} (present : s.src[p].face.state = .present) :
    (releaseSlot p .face t r s).src[p].face.state = .leaving := by
  have releasable : s.src[p].releasable .face = true := (releasable_iff _ .face).mpr present
  have out : (orderedOut p .face t r s).src[p].face.state = .leaving := by
    rw [orderedOut_src, modSrc_self] <;> rfl
  cases found : findOffer t s with
  | none => rw [releaseSlot_of_none releasable found, out]
  | some o => rw [releaseSlot_eq releasable found, notify_src, out]

theorem judgeFace_of_away {p : Fin 4} {s : State} (away : s.src[p].face.state ≠ .present) : judgeFace p s = s :=
  if_neg fun h => away h.1

theorem judgeFace_cases {p : Fin 4} {s : State} {o : Offer} (present : s.src[p].face.state = .present)
    (free : s.put.cycle = none) (face : faceOffer p s = some o) :
    (o.hasOpen = true → judgeFace p s = judgeOrphan p s) ∧
    (o.hasOpen = false → judgeFace p s = releaseSlot p .face o.tote .done s) := by
  have unlit : isLitSource p s = false := by simp only [isLitSource, free]
  refine ⟨fun opn => ?_, fun done => ?_⟩
  · simp only [judgeFace, present, unlit, and_self, if_true, face, opn]
  · simp only [judgeFace, present, unlit, and_self, if_true, face, done, Bool.false_eq_true, if_false]

end Sys2Proof.Machine

/-! The table of the end and the cancellation of a put cycle (O58). -/

namespace Sys2Proof.Machine

/-! ## The target as it is left -/

theorem dimmed_wall (c : Cycle) (faulting : Option Pos) (s : State) :
    (dimmed c faulting s).wall = s.wall ∧ (dimmed c faulting s).prof = s.prof := by
  obtain ⟨-, -, wall, -, -, -, prof, -⟩ := dimmed_frame c faulting s
  exact ⟨wall, prof⟩

theorem lineTold_wall (c : Cycle) (short : Bool) (s : State) :
    (lineTold c short s).wall = s.wall ∧ (lineTold c short s).prof = s.prof := by
  obtain ⟨-, -, wall, -, -, -, prof, -⟩ := notifyLine_frame c (writeLine c (fun l => l.closed short) s)
  exact ⟨wall, prof⟩

theorem endCycle_holdsOnly {c : Cycle} {short : Bool} {s : State} {r : Rec}
    (held : HoldsOnly c.tgt r s (settledEnd c short (dimmed c none (lineTold c short s)))) :
    HoldsOnly c.tgt r s (endCycle c short s) := by
  have ended : HoldsOnly c.tgt r s (endedState c short s) := held
  rw [endCycle_eq]
  exact (ended.marks (handOver_trails ..).2).marks (attempted _).frame.marked.unmarked

theorem cancelCycle_holdsOnly {c : Cycle} {faulting : Option Pos} {s : State} {r : Rec}
    (held : HoldsOnly c.tgt r s (settledCancel c faulting (writeLine c id s))) :
    HoldsOnly c.tgt r s (cancelCycle c faulting s) := by
  have dark : HoldsOnly c.tgt r s (deleteCycle (dimmed c faulting (settledCancel c faulting (writeLine c id s)))) :=
    held.marks (.of_wall (dimmed_wall ..).1)
  have cancelled : HoldsOnly c.tgt r s (cancelledState c faulting s) := by
    unfold cancelledState
    dsimp only
    split_ifs
    · exact dark.marks (.of_wall (clearServed_fields ..).2.1)
    · exact dark
  rw [cancelCycle_eq]
  exact cancelled.marks (handOver_trails ..).2

/-- The target of a cycle by what settles it (R92, R93, R98). -/
theorem target_left {c : Cycle} {s : State} {r : Rec} {g : Gross} (record : s.wall.pos[c.tgt].record = some r)
    (latest : s.wall.pos[c.tgt].latest = some g) :
    (∀ short, c.mode = .press → HoldsOnly c.tgt (r.pressed g) s (endCycle c short s)) ∧
    (c.mode = .weigh → HoldsOnly c.tgt (r.judged g s.prof.profile.ta) s (endCycle c true s) ∧
      HoldsOnly c.tgt r s (endCycle c false s)) ∧
    (∀ faulting, faulting ≠ some (.ord c.tgt) →
      HoldsOnly c.tgt (r.judged g s.prof.profile.ta) s (cancelCycle c faulting s)) ∧
    HoldsOnly c.tgt r s (cancelCycle c (some (.ord c.tgt)) s) := by
  have before : ∀ short, (dimmed c none (lineTold c short s)).wall = s.wall ∧
      (dimmed c none (lineTold c short s)).prof = s.prof := fun short =>
    ⟨(dimmed_wall ..).1.trans (lineTold_wall ..).1, (dimmed_wall ..).2.trans (lineTold_wall ..).2⟩
  have record' : ∀ short, (dimmed c none (lineTold c short s)).wall.pos[c.tgt].record = some r := fun short => by
    rw [(before short).1]
    exact record
  have latest' : ∀ short, (dimmed c none (lineTold c short s)).wall.pos[c.tgt].latest = some g := fun short => by
    rw [(before short).1]
    exact latest
  refine ⟨fun short mode => ?_, fun mode => ⟨?_, ?_⟩, fun faulting away => ?_, ?_⟩
  · have settled : settledEnd c short (dimmed c none (lineTold c short s)) =
        settlePress c.tgt (dimmed c none (lineTold c short s)) := by simp only [settledEnd, mode]
    refine endCycle_holdsOnly (.from (before short).1 ?_)
    rw [settled]
    exact settlePress_holdsOnly (record' short) (latest' short)
  · have settled : settledEnd c true (dimmed c none (lineTold c true s)) =
        settleTarget c.tgt (dimmed c none (lineTold c true s)) := by simp only [settledEnd, mode, if_true]
    refine endCycle_holdsOnly (.from (before true).1 ?_)
    rw [settled, ← (before true).2]
    exact settleTarget_holdsOnly (record' true) (latest' true)
  · have settled : settledEnd c false (dimmed c none (lineTold c false s)) = dimmed c none (lineTold c false s) := by
      simp only [settledEnd, mode, Bool.false_eq_true, if_false]
    refine endCycle_holdsOnly (.from (before false).1 ?_)
    rw [settled]
    exact .same (record' false)
  · have settled : settledCancel c faulting (writeLine c id s) = settleTarget c.tgt (writeLine c id s) := if_neg away
    refine cancelCycle_holdsOnly (.from (u := writeLine c id s) rfl ?_)
    rw [settled]
    exact settleTarget_holdsOnly (s := writeLine c id s) record latest
  · have settled : settledCancel c (some (.ord c.tgt)) (writeLine c id s) = writeLine c id s := if_pos rfl
    refine cancelCycle_holdsOnly (.from (u := writeLine c id s) rfl ?_)
    rw [settled]
    exact .same (s := writeLine c id s) record

/-! ## The hand-over, with its grace (R97, R125) -/

theorem handOver_cases {c : Cycle} {s : State} {o : Offer} (free : s.put.cycle = none)
    (present : s.src[c.src].face.state = .present) (names : s.src[c.src].face.offer = some c.offer)
    (found : findOffer c.offer s = some o) (place : o.place = some (c.src, .face)) :
    let stopped := setGraceT none s
    (c.grace = true → handOver c false s = stopIdle (releaseSlot c.src .face c.offer .exposed stopped) ∧
      handOver c true s = stopIdle stopped) ∧
    (c.grace = false → handOver c true s = stopIdle s ∧
      (o.hasOpen = false → handOver c false s = stopIdle (releaseSlot c.src .face c.offer .done s)) ∧
      (o.hasOpen = true → handOver c false s = stopIdle (judgeOrphan c.src s))) := by
  intro stopped
  have tote := findOffer_tote found
  have face : faceOffer c.src s = some o := faceOffer_iff.mpr ⟨by rw [tote]; exact names, by rw [tote]; exact found⟩
  refine ⟨fun grace => ?_, fun ungraced => ?_⟩
  · have unlit : isLitSource c.src stopped = false := by
      have free : stopped.put.cycle = none := free
      simp only [isLitSource, free]
    have asked : askRelease c.offer .exposed stopped = releaseSlot c.src .face c.offer .exposed stopped :=
      (askRelease_face (s := stopped) found place).present present unlit
    have ended : endGrace c false s = releaseSlot c.src .face c.offer .exposed stopped := (if_pos grace).trans asked
    have leaves : (releaseSlot c.src .face c.offer .exposed stopped).src[c.src].face.state ≠ .present := by
      rw [releaseSlot_face_leaving c.src c.offer .exposed (s := stopped) present]
      exact nofun
    refine ⟨?_, congrArg stopIdle (if_pos grace)⟩
    show stopIdle (judgeFace c.src (endGrace c false s)) = _
    rw [ended, judgeFace_of_away leaves]
  · have ended : ∀ fault, endGrace c fault s = s := fun fault => if_neg (Bool.eq_false_iff.mp ungraced)
    obtain ⟨opn, done⟩ := judgeFace_cases present free face
    rw [tote] at done
    refine ⟨congrArg stopIdle (ended true), fun h => ?_, fun h => ?_⟩
    · show stopIdle (judgeFace c.src (endGrace c false s)) = _
      rw [ended, done h]
    · show stopIdle (judgeFace c.src (endGrace c false s)) = _
      rw [ended, opn h]

/-! ## The line as it is left -/

theorem modified_lines {o o' : Offer} {i : Nat} {l : OLine} {f : OLine → OLine} (line : o.lines[i]? = some l)
    (lines : o'.lines = o.lines.modify i f) : o'.lines[i]? = some (f l) ∧ ∀ j, j ≠ i → o'.lines[j]? = o.lines[j]? := by
  rw [lines]
  exact ⟨by rw [List.getElem?_modify_eq, line] <;> rfl, fun j other => List.getElem?_modify_ne _ _ (Ne.symm other)⟩

theorem endCycle_line {c : Cycle} {s : State} {o : Offer} {l : OLine} (found : findOffer c.offer s = some o)
    (line : o.lines[c.line]? = some l) (short : Bool) : ∃ o', findOffer c.offer (endCycle c short s) = some o' ∧
      o'.lines[c.line]? = some ((l.accept c.tgtTote c.comp c.acc).closed short) ∧
      ∀ i, i ≠ c.line → o'.lines[i]? = o.lines[i]? := by
  have written : findOffer c.offer (lineTold c short s) = _ :=
    (findOffer_congr (notifyLine_frame ..).1 _).trans (findOffer_writeLine found fun l => l.closed short)
  obtain ⟨o', left, lines⟩ := (endCycle_trails c short s).offers _ _ written
  exact ⟨o', left, modified_lines line lines⟩

theorem cancelled_line {c : Cycle} {s : State} {o : Offer} {l : OLine} (found : findOffer c.offer s = some o)
    (line : o.lines[c.line]? = some l) : ∃ o', findOffer c.offer (attempt (cancelCycle c none s)) = some o' ∧
      o'.lines[c.line]? = some (l.accept c.tgtTote c.comp c.acc) ∧ ∀ i, i ≠ c.line → o'.lines[i]? = o.lines[i]? := by
  have trails : Trails (writeLine c id s) (attempt (cancelCycle c none s)) :=
    ((cancelledState_trails c none s).trans (handOver_trails ..).1).trans (attempt_trails _)
  obtain ⟨o', left, lines⟩ := trails.offers _ _ (findOffer_writeLine found id)
  exact ⟨o', left, modified_lines line lines⟩

/-- Settles O58. -/
theorem cycleEndWritesTheLine : Obligations.CycleEndWritesTheLine := by
  unfold Obligations.CycleEndWritesTheLine
  refine ⟨⟨fun c s o l ok found present line => ?_, fun c s r g record latest => ?_,
    fun c s o free present names found place => handOver_cases free present names found place⟩, fun c s => ?_⟩
  · intro l' same isLine ended
    have other : ∀ n : Notice, notLine n.body → ¬ isLine n := fun n not ⟨t, p, i, ref, q, d, st, ps, e⟩ =>
      not t p i ref q d st ps e
    refine ⟨rfl, fun none => if_pos none, fun some new => (if_neg some).trans (addPut_of_new new),
      fun before e after some puts first found => (if_neg some).trans ?_, fun short => ⟨endCycle_line found line short, ?_⟩,
      cancelled_line found line, ?_⟩
    · rw [puts]
      exact addPut_of_found first found
    · obtain ⟨ns, out, all⟩ := (endCycle_trails c short s).noted.out
      obtain ⟨told, untold⟩ := lineTold_out found line short
      have rest : ∀ n ∈ ns, ¬ isLine n := fun n mem => other n (all n mem).2
      by_cases tells : ended short ≠ .opn ∧ s.prof.profile.mask.line = true ∧ noticeCount s < 48
      · obtain ⟨closed, mask, few⟩ := tells
        refine ⟨_ :: ns, by rw [out, told closed mask few, List.append_assoc]; exact rfl,
          fun _ _ _ => ⟨ns, rfl, rest⟩, fun no => ?_⟩
        rcases no with opn | off | many
        · exact absurd opn closed
        · exact absurd (off.symm.trans mask) Bool.false_ne_true
        · exact absurd few (Nat.not_lt.mpr many)
      · have silent : ended short = .opn ∨ s.prof.profile.mask.line = false ∨ 48 ≤ noticeCount s := by
          by_contra h
          simp only [not_or, Bool.not_eq_false, Nat.not_le] at h
          exact tells h
        exact ⟨ns, by rw [out, untold silent], fun closed mask few => absurd ⟨closed, mask, few⟩ tells, fun _ => rest⟩
    · have trails : Trails (writeLine c id s) (attempt (cancelCycle c none s)) :=
        ((cancelledState_trails c none s).trans (handOver_trails ..).1).trans (attempt_trails _)
      obtain ⟨ns, out, all⟩ := trails.noted.out
      exact ⟨ns, out, fun n mem => other n (all n mem).2⟩
  · obtain ⟨press, weigh, cancel, faulting⟩ := target_left record latest
    refine ⟨press, weigh, cancel, faulting, fun d beyond => ?_⟩
    rw [(settleTarget_cases record latest).2 d beyond, disturb_of_record record, modRec_of_record record]
  · intro source target
    refine ⟨fun short => ⟨_, endCycle_eq c short s, ?_, endedState_lines c short s⟩,
      fun faulting => ⟨_, cancelCycle_eq c faulting s, ?_, ?_⟩⟩
    · exact rfl
    · unfold cancelledState
      dsimp only
      split_ifs
      · rw [clearServed_put] <;> rfl
      · rfl
    · have dark : darkCycle c faulting s = target (decide (faulting = some (.ord c.tgt)))
          (source (decide (faulting = some (.src c.src))) s) := by
        simp only [darkCycle, lightSource, lightTarget, decide_eq_true_eq, source, target]
      rw [← dark]
      exact cancelledState_lines c faulting s

end Sys2Proof.Machine

/-! A fault of a source or order position (O52): what goes with it, and what a new cycle leaves of the FAULTED position. -/

namespace Sys2Proof.Machine

/-! ## An attempt and a FAULTED position -/

/-- An attempt leaves a source position without a PRESENT tote and its line alone, and begins no cycle there. -/
theorem attempt_awaySrc {p : Fin 4} {s : State} (away : s.src[p].face.state ≠ .present) :
    let t := attempt s
    t.src[p] = s.src[p] ∧ t.lines[lineOf (.src p)] = s.lines[lineOf (.src p)] ∧
      ∀ c, t.put.cycle = some c → s.put.cycle = some c ∨ c.src ≠ p := by
  intro t
  have h : Attempted s t := attempted s
  clear_value t
  cases h with
  | barred _ => exact ⟨rfl, rfl, fun c lit => .inl lit⟩
  | missed _ u looking _ =>
    exact ⟨by rw [looking.src], by rw [looking.apart.lines], fun c lit => .inl (looking.apart.put ▸ lit)⟩
  | cycle may u looking k _ fits =>
    obtain ⟨put, -, src, lines, -⟩ := startCycle_frame (k := k) (looking.active may)
    have other : k.p ≠ p := fun e => away (e ▸ fits.1)
    refine ⟨?_, ?_, fun c lit => .inr fun e => ?_⟩
    · rw [src, ← looking.src]
      exact Vector.getElem_set_ne _ _ fun e => other (Fin.ext e)
    · have shown : (showCycle k.cycle u).lines[lineOf (.src p)] = u.lines[lineOf (.src p)] := by
        rw [showCycle_eq, twoLights_lineSrc]
        exact if_neg other
      rw [lines, shown, looking.apart.lines]
    · rw [put] at lit
      exact other ((congrArg Cycle.src (Option.some.inj lit)).trans e)

/-- And so a FAULTED order position: it is the target of no new cycle. -/
theorem attempt_faultedOrd {q : Fin 12} {s : State} (faulted : s.wall.pos[q].state = .faulted) :
    let t := attempt s
    t.lines[lineOf (.ord q)] = s.lines[lineOf (.ord q)] ∧ ∀ c, t.put.cycle = some c → s.put.cycle = some c ∨ c.tgt ≠ q := by
  intro t
  have h : Attempted s t := attempted s
  clear_value t
  cases h with
  | barred _ => exact ⟨rfl, fun c lit => .inl lit⟩
  | missed _ u looking _ => exact ⟨by rw [looking.apart.lines], fun c lit => .inl (looking.apart.put ▸ lit)⟩
  | cycle may u looking k _ fits =>
    obtain ⟨put, -, -, lines, -⟩ := startCycle_frame (k := k) (looking.active may)
    obtain ⟨-, -, -, -, -, -, -, -, -, -, -, -, -, -, active, -⟩ := fits.cycle
    have other : k.cycle.tgt ≠ q := fun e => by
      subst e
      cases faulted.symm.trans active
    refine ⟨?_, fun c lit => .inr fun e => ?_⟩
    · have shown : (showCycle k.cycle u).lines[lineOf (.ord q)] = u.lines[lineOf (.ord q)] := by
        rw [showCycle_eq, twoLights_lineOrd]
        exact if_neg other
      rw [lines, shown, looking.apart.lines]
    · rw [put] at lit
      exact other ((congrArg Cycle.tgt (Option.some.inj lit)).trans e)

/-! ## The cancellation that begins a fault (R40, R75) -/

/-- What is left of the source positions but for the orphan timers. -/
def OrphansApart (s u : State) : Prop := ∀ p : Fin 4, u.src[p].setOrphan none = s.src[p].setOrphan none

theorem OrphansApart.trans {s u v : State} (h : OrphansApart s u) (k : OrphansApart u v) : OrphansApart s v :=
  fun p => (k p).trans (h p)

theorem OrphansApart.of_src {s u : State} (h : u.src = s.src) : OrphansApart s u := fun p => by rw [h]

theorem disturb_orphansApart (q : Fin 12) (d : Disturbance) (g : Gross) (s : State) : OrphansApart s (disturb q d g s) := by
  cases record : s.wall.pos[q].record with
  | none => simpa only [disturb, record] using OrphansApart.of_src rfl
  | some r =>
    rw [disturb_of_record record]
    exact fun p => ((orphansJudged _).rest p).trans (congrArg (fun v => v[p].setOrphan none) (notify_src _ _))

theorem settledCancel_orphansApart (c : Cycle) (f : Option Pos) (s : State) : OrphansApart s (settledCancel c f s) := by
  unfold settledCancel settleTarget
  split_ifs
  · exact .of_src rfl
  · split
    · split
      · exact .of_src rfl
      · exact disturb_orphansApart _ _ _ _
    · exact .of_src rfl

theorem clearServed_cycle (t : Nat) (s : State) : (clearServed t s).put.cycle = s.put.cycle := by
  rw [clearServed_put]

theorem cancelledState_cycle (c : Cycle) (f : Option Pos) (s : State) : (cancelledState c f s).put.cycle = none := by
  unfold cancelledState
  dsimp only
  split_ifs
  · exact clearServed_cycle ..
  · rfl

theorem cancelledState_src (c : Cycle) (f : Option Pos) (s : State) : OrphansApart s (cancelledState c f s) := by
  have settled : OrphansApart s (deleteCycle (dimmed c f (settledCancel c f (writeLine c id s)))) :=
    (settledCancel_orphansApart c f (writeLine c id s)).trans (.of_src (dimmed_frame ..).2.1)
  unfold cancelledState
  dsimp only
  split_ifs
  · exact settled.trans (.of_src (clearServed_fields ..).1)
  · exact settled

theorem handOver_cycle (c : Cycle) (fault : Bool) (s : State) : (handOver c fault s).put.cycle = s.put.cycle := by
  have ended : (endGrace c fault s).put.cycle = s.put.cycle := by
    unfold endGrace
    dsimp only
    split_ifs
    · rfl
    · exact (stillClosed.askRelease c.offer .exposed (setGraceT none s)).1
    · rfl
  cases fault with
  | true => exact ended
  | false => exact (stillClosed.judgeFace c.src (endGrace c false s)).1.trans ended

/-- The faulting source of the lit cycle: the cycle goes, and the orphan timers apart the source positions stay. -/
theorem cancelFor_src (p : Fin 4) (s : State) : let u := cancelFor (.src p) (isLitSource p s) s
    OrphansApart s u ∧ ∀ c, u.put.cycle = some c → c.src ≠ p := by
  intro u
  have run : u = cancelFor (.src p) (isLitSource p s) s := rfl
  clear_value u
  cases lit : s.put.cycle with
  | none =>
    simp only [cancelFor, lit] at run
    subst run
    exact ⟨.of_src rfl, fun c h => by rw [lit] at h; cases h⟩
  | some k =>
    by_cases source : k.src = p
    · have own : isLitSource p s = true := isLitSource_of_lit lit source
      simp only [cancelFor, lit, own, if_true] at run
      subst run source
      have fault : decide (some (Pos.src k.src) = some (.src k.src)) = true := decide_eq_true rfl
      rw [cancelCycle_eq, fault, handOver_cycle, cancelledState_cycle]
      refine ⟨OrphansApart.trans (cancelledState_src k (some (.src k.src)) s) (.of_src ?_), nofun⟩
      show (endGrace k true _).src = _
      cases grace : k.grace <;> simp only [endGrace, grace, Bool.false_eq_true, if_false, if_true, setGraceT]
    · have other : isLitSource p s = false := isLitSource_eq_false.mpr fun c h => by
        rw [lit] at h
        exact Option.some.inj h ▸ source
      simp only [cancelFor, lit, other, Bool.false_eq_true, if_false] at run
      subst run
      refine ⟨.of_src rfl, fun c h => ?_⟩
      rw [lit] at h
      exact Option.some.inj h ▸ source

/-- The faulting target of the lit cycle: the cycle goes, and full marks apart the wall stays. -/
theorem cancelFor_ord (q : Fin 12) (s : State) : let u := cancelFor (.ord q) (isTarget q s) s
    MarksApart s u ∧ ∀ c, u.put.cycle = some c → c.tgt ≠ q := by
  intro u
  have run : u = cancelFor (.ord q) (isTarget q s) s := rfl
  clear_value u
  cases lit : s.put.cycle with
  | none =>
    simp only [cancelFor, lit] at run
    subst run
    exact ⟨.of_wall rfl, fun c h => by rw [lit] at h; cases h⟩
  | some k =>
    by_cases target : k.tgt = q
    · have own : isTarget q s = true := by simp only [isTarget, lit, target, decide_true]
      simp only [cancelFor, lit, own, if_true] at run
      subst run target
      rw [cancelCycle_eq, handOver_cycle, cancelledState_cycle]
      refine ⟨MarksApart.trans (.of_wall ?_) (handOver_trails ..).2, nofun⟩
      have kept : settledCancel k (some (.ord k.tgt)) (writeLine k id s) = writeLine k id s := if_pos rfl
      have source : some (Pos.ord k.tgt) ≠ some (.src k.src) := nofun
      have left : cancelledState k (some (.ord k.tgt)) s =
          deleteCycle (dimmed k (some (.ord k.tgt)) (settledCancel k (some (.ord k.tgt)) (writeLine k id s))) := by
        simp only [cancelledState, if_neg source]
      rw [left, kept]
      exact (dimmed_wall k (some (.ord k.tgt)) (writeLine k id s)).1
    · have other : isTarget q s = false := by simp only [isTarget, lit, target, decide_false]
      simp only [cancelFor, lit, other, Bool.false_eq_true, if_false] at run
      subst run
      refine ⟨.of_wall rfl, fun c h => ?_⟩
      rw [lit] at h
      exact Option.some.inj h ▸ target

/-! ## The offers that go (R20, R40) -/

theorem faultRemove_cases (p : Fin 4) (sl : Slot) (named : Option Nat) (s : State) :
    ((named.bind fun t => findOffer t s) = none → faultRemove p sl named s = s) ∧
    ∀ o, (named.bind fun t => findOffer t s) = some o → faultRemove p sl named s =
      notify (.release (some o.tote) .fault (some (p, sl)) o.remainingSeconds o.summary) (dropOffer o.tote s) := by
  cases named with
  | none => exact ⟨fun _ => rfl, nofun⟩
  | some t =>
    rw [Option.bind_some]
    refine ⟨fun missing => ?_, fun o found => ?_⟩
    · simp only [faultRemove, missing]
    · simp only [faultRemove, found, findOffer_tote found]
      exact congrArg (fun x => notify (.release (some x) .fault (some (p, sl)) o.remainingSeconds o.summary) (dropOffer t s))
        (findOffer_tote found)

/-- What the removal of an offer leaves, and that no offer of the list is the one named. -/
structure Removed (named : Option Nat) (s u : State) : Prop where
  src : u.src = s.src
  lines : u.lines = s.lines
  prof : u.prof = s.prof
  cycle : u.put.cycle = s.put.cycle
  offers : ∀ o ∈ u.offers, o ∈ s.offers ∧ named ≠ some o.tote

theorem dropOffer_fields (t : Nat) (s : State) : let u := dropOffer t s
    u.src = s.src ∧ u.lines = s.lines ∧ u.prof = s.prof ∧ u.put.cycle = s.put.cycle ∧
      u.offers = s.offers.filter fun o => o.tote != t := by
  obtain ⟨src, -, lines, -, offers, -, prof, -⟩ := clearServed_fields t (eraseOffer t s)
  exact ⟨src, lines, prof, clearServed_cycle t (eraseOffer t s), offers⟩

theorem faultRemove_removed (p : Fin 4) (sl : Slot) (named : Option Nat) (s : State) :
    Removed named s (faultRemove p sl named s) := by
  obtain ⟨stays, goes⟩ := faultRemove_cases p sl named s
  cases found : named.bind fun t => findOffer t s with
  | none =>
    rw [stays found]
    refine ⟨rfl, rfl, rfl, rfl, fun o mem => ⟨mem, fun e => ?_⟩⟩
    rw [e, Option.bind_some] at found
    exact absurd (beq_self_eq_true o.tote) (List.find?_eq_none.mp found o mem)
  | some o =>
    obtain ⟨src, lines, prof, cycle, offers⟩ := dropOffer_fields o.tote s
    have name : named = some o.tote := by
      obtain ⟨t, e, found⟩ := Option.bind_eq_some_iff.mp found
      rw [e, findOffer_tote found]
    rw [goes o found]
    refine ⟨(notify_src ..).trans src, (notify_lines ..).trans lines, (notify_prof ..).trans prof,
      (congrArg PutSeq.cycle (notify_put ..)).trans cycle, fun x mem => ?_⟩
    rw [notify_offers, offers] at mem
    obtain ⟨mem, other⟩ := List.mem_filter.mp mem
    exact ⟨mem, fun e => bne_iff_ne.mp other (Option.some.inj (e.symm.trans name))⟩

theorem removeOffersAt_eq (p : Fin 4) (s : State) : removeOffersAt p s =
    faultRemove p .lane s.src[p].lane.offer (faultRemove p .face s.src[p].face.offer s) := by
  have src := (faultRemove_removed p .face s.src[p].face.offer s).src
  unfold removeOffersAt
  dsimp only
  rw [src]

theorem removeOffersAt_spec (p : Fin 4) (s : State) : let u := removeOffersAt p s
    u.src = s.src ∧ u.lines = s.lines ∧ u.prof = s.prof ∧ u.put.cycle = s.put.cycle ∧
      ∀ o ∈ u.offers, s.src[p].face.offer ≠ some o.tote ∧ s.src[p].lane.offer ≠ some o.tote := by
  have face := faultRemove_removed p .face s.src[p].face.offer s
  have lane := faultRemove_removed p .lane s.src[p].lane.offer (faultRemove p .face s.src[p].face.offer s)
  rw [← removeOffersAt_eq] at lane
  exact ⟨lane.src.trans face.src, lane.lines.trans face.lines, lane.prof.trans face.prof, lane.cycle.trans face.cycle,
    fun o mem => ⟨(face.offers o (lane.offers o mem).1).2, (lane.offers o mem).2⟩⟩

end Sys2Proof.Machine

/-! The table of faults (O52). -/

namespace Sys2Proof.Machine

/-! ## The fault of a source position (R40) -/

theorem notify_eq (b : NoticeBody) (s : State) : notify b s = { s with link := (notify b s).link } := by
  rcases notify_cases b s with h | ⟨h, -⟩ | h <;> rw [h] <;> rfl

theorem notify_modSrc (b : NoticeBody) (p : Fin 4) (f : SrcPos → SrcPos) (s : State) :
    notify b (modSrc p f s) = modSrc p f (notify b s) := by
  have link : (notify b (modSrc p f s)).link = (notify b s).link := notify_link_congr (x := modSrc p f s) (y := s) rfl rfl rfl b
  rw [notify_eq b (modSrc p f s), link, notify_eq b s] <;> rfl

theorem notify_modOrd (b : NoticeBody) (q : Fin 12) (f : OrdPos → OrdPos) (s : State) :
    notify b (modOrd q f s) = modOrd q f (notify b s) := by
  have link : (notify b (modOrd q f s)).link = (notify b s).link := notify_link_congr (x := modOrd q f s) (y := s) rfl rfl rfl b
  rw [notify_eq b (modOrd q f s), link, notify_eq b s] <;> rfl

/-- A source position as a fault leaves it: no slot states, no timers, the depth of the profile (R40, R42). -/
def SrcPos.downed (c : Cause) (d : Nat) (x : SrcPos) : SrcPos :=
  { x with state := .faulted, cause := some c, face := {}, lane := {}, depth := d }

/-- The state with the position FAULTED and its line emptied, before the notices. -/
def downed (p : Fin 4) (c : Cause) (d : Nat) (s : State) : State :=
  modLine (lineOf (.src p)) FieldLine.emptied (modSrc p (SrcPos.downed c d) s)

theorem synced_dropToFault (p : Fin 4) (c : Cause) (d : Nat) (s : State) :
    modSrc p (fun x => x.synced d) (dropToFault p c s) =
      notify (.position (.src p) (.source .faulted) (some c)) (downed p c d s) := by
  have told : dropToFault p c s = notify (.position (.src p) (.source .faulted) (some c))
      (clearLine (.src p) (modSrc p (fun x => x.blank .faulted (some c)) s)) := by
    have here : (clearLine (.src p) (modSrc p (fun x => x.blank .faulted (some c)) s)).src[p] =
        s.src[p].blank .faulted (some c) := modSrc_self p (fun x => x.blank .faulted (some c)) s
    rw [dropToFault, notifySrc, here] <;> rfl
  have both : modSrc p (fun x => x.synced d) (clearLine (.src p) (modSrc p (fun x => x.blank .faulted (some c)) s)) =
      downed p c d s :=
    congrArg (modLine (lineOf (.src p)) FieldLine.emptied)
      ((modSrc_modSrc p (fun x => x.synced d) (fun x => x.blank .faulted (some c)) s).trans (congrArg (modSrc p · s) (funext fun x => if_pos rfl)))
  rw [told, ← notify_modSrc, both]

/-- The fault of an OPEN or CLOSING position before the attempt (R40). -/
def faultedDown (p : Fin 4) (c : Cause) (s : State) : State :=
  judgeDrain (notify (.position (.src p) (.source .faulted) (some c)) (downed p c s.prof.profile.laneDepth[p]
    (removeOffersAt p (cancelFor (.src p) (isLitSource p s) s))))

theorem faultSrc_cases (p : Fin 4) (c : Cause) (s : State) :
    (s.src[p].state = .closed → faultSrc p c s = dropToFault p c s) ∧
    (s.src[p].state = .opn ∨ s.src[p].state = .closing →
      faultSrc p c s = if isLitSource p s then attempt (faultedDown p c s) else faultedDown p c s) := by
  refine ⟨fun closed => by simp only [faultSrc, closed], fun run => ?_⟩
  have down : judgeDrain (modSrc p (fun x => x.synced s.prof.profile.laneDepth[p])
      (dropToFault p c (removeOffersAt p (cancelFor (.src p) (isLitSource p s) s)))) = faultedDown p c s :=
    congrArg judgeDrain (synced_dropToFault ..)
  rcases run with state | state <;> simp only [faultSrc, state, down]

/-- What a drain leaves (R139). -/
theorem judgeDrain_frame (s : State) : let t := judgeDrain s
    t.src = s.src ∧ t.lines = s.lines ∧ t.put = s.put ∧ t.offers = s.offers ∧ t.wall = s.wall := by
  obtain ⟨drains, stays⟩ := judgeDrain_cases s
  by_cases h : s.bench.mode = .draining ∧ ∀ p : Fin 4, s.src[p].face.state = .empty ∧ s.src[p].lane.state = .empty
  · rw [drains h.1 h.2]
    simp
  · rw [stays (not_and_or.mp h)]
    exact ⟨rfl, rfl, rfl, rfl, rfl⟩

theorem SrcPos.named_of_setOrphan {x y : SrcPos} (h : y.setOrphan none = x.setOrphan none) :
    y.surveyT = x.surveyT ∧ y.face.offer = x.face.offer ∧ y.lane.offer = x.lane.offer :=
  ⟨show (y.setOrphan none).surveyT = (x.setOrphan none).surveyT by rw [h],
    show (y.setOrphan none).face.offer = (x.setOrphan none).face.offer by rw [h],
    show (y.setOrphan none).lane.offer = (x.setOrphan none).lane.offer by rw [h]⟩

/-- What a fault leaves of a source position, its line, the cycle and the offers (R40). -/
structure SrcDropped (p : Fin 4) (c : Cause) (s t : State) : Prop where
  src : t.src[p] = s.src[p].downed c t.src[p].depth
  orders : t.lines[lineOf (.src p)].orders = []
  ackT : t.lines[lineOf (.src p)].ackT = none
  cycle : s.src[p].state ≠ .closed → ∀ k, t.put.cycle = some k → k.src ≠ p
  offers : s.src[p].state = .opn ∨ s.src[p].state = .closing → ∀ o ∈ t.offers,
    s.src[p].face.offer ≠ some o.tote ∧ s.src[p].lane.offer ≠ some o.tote

theorem downed_line (p : Fin 4) (c : Cause) (d : Nat) (s : State) :
    (downed p c d s).lines[lineOf (.src p)] = FieldLine.emptied s.lines[lineOf (.src p)] := by
  rw [downed, modLine_getElem, if_pos rfl] <;> rfl

theorem faultedDown_dropped {p : Fin 4} {s : State} (run : s.src[p].state = .opn ∨ s.src[p].state = .closing) (c : Cause) :
    SrcDropped p c s (faultedDown p c s) := by
  obtain ⟨apart, cycle⟩ := cancelFor_src p s
  generalize cancelled : cancelFor (.src p) (isLitSource p s) s = v at apart cycle
  obtain ⟨src, lines, -, put, offers⟩ := removeOffersAt_spec p v
  obtain ⟨src', lines', put', offers', -⟩ := judgeDrain_frame
    (notify (.position (.src p) (.source .faulted) (some c)) (downed p c s.prof.profile.laneDepth[p] (removeOffersAt p v)))
  have slots : v.src[p].surveyT = s.src[p].surveyT ∧ v.src[p].face.offer = s.src[p].face.offer ∧
      v.src[p].lane.offer = s.src[p].lane.offer :=
    SrcPos.named_of_setOrphan (apart p)
  obtain ⟨survey, face, lane⟩ := slots
  have at' : (faultedDown p c s).src[p] = v.src[p].downed c s.prof.profile.laneDepth[p] := by
    have now : (downed p c s.prof.profile.laneDepth[p] (removeOffersAt p v)).src[p] =
        (removeOffersAt p v).src[p].downed c s.prof.profile.laneDepth[p] := modSrc_self ..
    rw [faultedDown, cancelled, src', notify_src, now, src]
  have line : (faultedDown p c s).lines[lineOf (.src p)] = FieldLine.emptied (removeOffersAt p v).lines[lineOf (.src p)] := by
    rw [faultedDown, cancelled, lines', notify_lines, downed_line]
  refine ⟨?_, congrArg FieldLine.orders line, congrArg FieldLine.ackT line, fun _ k lit => ?_, fun _ o mem => ?_⟩
  · rw [at']
    unfold SrcPos.downed
    rw [survey]
  · rw [faultedDown, cancelled, put', notify_put] at lit
    exact cycle k (put.symm.trans lit)
  · rw [faultedDown, cancelled, offers', notify_offers] at mem
    rw [← face, ← lane]
    exact offers o mem

theorem faultSrc_dropped {p : Fin 4} {s : State} (sound : s.src[p].state ≠ .faulted) (c : Cause) :
    SrcDropped p c s (faultSrc p c s) := by
  obtain ⟨closed, run⟩ := faultSrc_cases p c s
  cases state : s.src[p].state with
  | faulted => exact absurd state sound
  | closed =>
    rw [closed state]
    have here : (dropToFault p c s).src[p] = s.src[p].blank .faulted (some c) := by
      rw [dropToFault, notifySrc_src]
      exact modSrc_self p (fun x => x.blank .faulted (some c)) s
    have line : (dropToFault p c s).lines[lineOf (.src p)] = FieldLine.emptied s.lines[lineOf (.src p)] := by
      rw [dropToFault, notifySrc_lines, clearLine, modLine_getElem, if_pos rfl] <;> rfl
    refine ⟨by rw [here] <;> rfl, congrArg FieldLine.orders line, congrArg FieldLine.ackT line,
      fun open' => absurd state open', fun open' => ?_⟩
    rw [state] at open'
    exact open'.elim nofun nofun
  | opn | closing =>
    have runs : s.src[p].state = .opn ∨ s.src[p].state = .closing := by rw [state]; simp
    have down := faultedDown_dropped runs c
    rw [run runs]
    by_cases lit : isLitSource p s = true
    · rw [if_pos lit]
      have away : (faultedDown p c s).src[p].face.state ≠ .present := by
        rw [down.src]
        exact nofun
      obtain ⟨src, line, cycle⟩ := attempt_awaySrc away
      have offers := (attempted (faultedDown p c s)).frame.offers
      refine ⟨by rw [src]; exact down.src, by rw [line]; exact down.orders, by rw [line]; exact down.ackT,
        fun open' k begun => (cycle k begun).elim (down.cycle open' k) id, fun open' o mem => down.offers open' o ?_⟩
      rw [← offers]
      exact mem
    · rw [if_neg lit]
      exact down

/-! ## The fault of an order position (R75) -/

theorem OrdPos.faulted_of_unmarked (x : OrdPos) (c : Cause) : (x.unmarked.faulted c).unmarked = (x.faulted c).unmarked := by
  cases record : x.record <;> simp only [unmarked, faulted, record, Option.map_none, Option.map_some] <;> split_ifs <;> rfl

theorem OrdPos.faulted_unmarked {x y : OrdPos} (h : y.unmarked = x.unmarked) (c : Cause) :
    (y.faulted c).unmarked = (x.faulted c).unmarked := by
  rw [← faulted_of_unmarked y, h, faulted_of_unmarked]

/-- What a fault leaves of an order position, full marks apart, of its line and of the cycle (R75). -/
structure OrdDropped (q : Fin 12) (c : Cause) (s t : State) : Prop where
  pos : t.wall.pos[q].unmarked = (s.wall.pos[q].faulted c).unmarked
  orders : t.lines[lineOf (.ord q)].orders = []
  ackT : t.lines[lineOf (.ord q)].ackT = none
  cycle : ∀ k, t.put.cycle = some k → k.tgt ≠ q

theorem faultOrd_dropped {q : Fin 12} {s : State} (sound : s.wall.pos[q].state ≠ .faulted) (c : Cause) :
    OrdDropped q c s (faultOrd q c s) := by
  obtain ⟨apart, cycle⟩ := cancelFor_ord q s
  have faults : faultOrd q c s = if s.wall.pos[q].state = .closed then
      notifyOrd q (clearLine (.ord q) (modOrd q (fun x => x.faulted c) (cancelFor (.ord q) (isTarget q s) s)))
      else wallChanged
        (notifyOrd q (clearLine (.ord q) (modOrd q (fun x => x.faulted c) (cancelFor (.ord q) (isTarget q s) s)))) :=
    if_neg sound
  generalize cancelFor (.ord q) (isTarget q s) s = v at apart cycle faults
  have pos : (notifyOrd q (clearLine (.ord q) (modOrd q (fun x => x.faulted c) v))).wall.pos[q] = v.wall.pos[q].faulted c := by
    rw [notifyOrd_wall]
    exact modOrd_self q (fun x => x.faulted c) v
  have line : (notifyOrd q (clearLine (.ord q) (modOrd q (fun x => x.faulted c) v))).lines[lineOf (.ord q)] =
      FieldLine.emptied v.lines[lineOf (.ord q)] := by
    rw [notifyOrd, notify_lines, clearLine, modLine_getElem, if_pos rfl] <;> rfl
  have put : (notifyOrd q (clearLine (.ord q) (modOrd q (fun x => x.faulted c) v))).put = v.put := notify_put ..
  rw [faults]
  generalize notifyOrd q (clearLine (.ord q) (modOrd q (fun x => x.faulted c) v)) = w at pos line put
  have down : OrdDropped q c s w := by
    refine ⟨?_, by rw [line] <;> rfl, by rw [line] <;> rfl, fun k lit => cycle k (put ▸ lit)⟩
    rw [pos]
    exact OrdPos.faulted_unmarked (apart q) c
  by_cases closed : s.wall.pos[q].state = .closed
  · rw [if_pos closed]
    exact down
  · rw [if_neg closed]
    have judged := orphansJudged w
    have still := judged.marked.unmarked q
    have faulted : (judgeOrphans w).wall.pos[q].state = .faulted := by
      rw [OrdPos.state_of_unmarked still, pos] <;> rfl
    obtain ⟨line', cycle'⟩ := attempt_faultedOrd faulted
    have marks := (attempted (judgeOrphans w)).frame.marked.unmarked q
    have follows : wallChanged w = attempt (judgeOrphans w) := rfl
    rw [follows]
    generalize attempt (judgeOrphans w) = t at line' cycle' marks
    refine ⟨(marks.trans still).trans down.pos, ?_, ?_, fun k begun => (cycle' k begun).elim (fun lit => ?_) id⟩
    · rw [line', judged.apart.lines]
      exact down.orders
    · rw [line', judged.apart.lines]
      exact down.ackT
    · rw [judged.apart.put] at lit
      exact down.cycle k lit

/-! ## Reports and expiries -/

theorem isFaulted_src_eq_false {p : Fin 4} {s : State} : isFaulted (.src p) s = false ↔ s.src[p].state ≠ .faulted :=
  beq_eq_false_iff_ne

theorem isFaulted_ord_eq_false {q : Fin 12} {s : State} : isFaulted (.ord q) s = false ↔ s.wall.pos[q].state ≠ .faulted :=
  beq_eq_false_iff_ne

theorem inSurvey_src_eq_false {p : Fin 4} {s : State} : inSurvey (.src p) s = false ↔ s.src[p].surveyT = none :=
  Option.isSome_eq_false_iff.trans Option.isNone_iff_eq_none

theorem inSurvey_ord_eq_false {q : Fin 12} {s : State} : inSurvey (.ord q) s = false ↔ s.wall.pos[q].surveyT = none :=
  Option.isSome_eq_false_iff.trans Option.isNone_iff_eq_none

theorem takeFault_sound {pos : Pos} {s : State} (sound : isFaulted pos s = false) (still : inSurvey pos s = false) (c : ModCause) :
    takeFault pos c s = faultAt pos (causeOf c) s := by
  simp only [takeFault, still, sound, Bool.false_eq_true, if_false]

theorem OrdPos.faulted_eq (x : OrdPos) (c : Cause) : x.faulted c = {
    state := .faulted
    record := if x.state.holds then x.record.map fun r => { r with cond := .disturbed .fault, misput := false } else none
    former := if x.state.holds then some x.state else none
    latest := x.latest
    cause := some c
    surveyT := x.surveyT } := by
  unfold OrdPos.faulted
  cases state : x.state <;> simp only [OrdState.holds, reduceCtorEq, or_true, or_false, or_self, Bool.false_eq_true,
    if_true, if_false]

/-- Settles O52. -/
theorem faultsDropThePosition : Obligations.FaultsDropThePosition := by
  unfold Obligations.FaultsDropThePosition
  intro s off
  have reports : ∀ pos c, exec (.faultReport pos c) s = .next (takeFault pos c s) := fun pos c => live_of_off off (takeFault pos c)
  have jams : ∀ p sl, exec (.jam p sl) s = .next (leaveExpired p sl s) := fun p sl => live_of_off off (leaveExpired p sl)
  have leaves : ∀ q, exec (.orderLeaveTimerExpiry q) s = .next (orderLeaveExpired q s) := fun q =>
    live_of_off off (orderLeaveExpired q)
  refine ⟨fun p => ?_, fun q => ?_, fun pos c quiet => (reports pos c).trans (congrArg _ ?_)⟩
  · intro dropped gone
    have all : ∀ {c t}, SrcDropped p c s t → dropped c t := fun h => ⟨h.src, h.orders, h.ackT, h.cycle, h.offers⟩
    have removes : ∀ sl named u, faultRemove p sl named u = gone sl named u := fun sl named u => by
      obtain ⟨stays, goes⟩ := faultRemove_cases p sl named u
      cases found : named.bind fun t => findOffer t u with
      | none => simp only [gone, found, stays found]
      | some o => simp only [gone, found, goes o found]
    refine ⟨fun c run survey unlit => ?_, fun sound survey c => ⟨_, reports .., ?_⟩,
      fun sl sound timer => ⟨_, (jams p sl).trans (congrArg _ (if_pos timer)), all (faultSrc_dropped sound _)⟩,
      fun sl timer => (jams p sl).trans (congrArg _ (if_neg timer))⟩
    · have state : s.src[p].state ≠ .faulted := fun e => by rw [e] at run; exact run.elim nofun nofun
      have dark : isLitSource p s = false := isLitSource_eq_false.mpr unlit
      have uncancelled : cancelFor (.src p) (isLitSource p s) s = s := by
        rw [dark]
        unfold cancelFor
        split <;> rfl
      have taken : takeFault (.src p) c s = faultedDown p (causeOf c) s := by
        rw [takeFault_sound (isFaulted_src_eq_false.mpr state) (inSurvey_src_eq_false.mpr survey)]
        exact ((faultSrc_cases p (causeOf c) s).2 run).trans (if_neg (Bool.eq_false_iff.mp dark))
      rw [reports, taken, faultedDown, uncancelled, ← removes .face, ← removes .lane, ← removeOffersAt_eq]
      obtain ⟨src, lines, -⟩ := removeOffersAt_spec p s
      exact congrArg (fun v => Host.Outcome.next (judgeDrain (notify _ v)))
        (by rw [downed, modLine, modSrc, src, lines] <;> rfl)
    · rw [takeFault_sound (isFaulted_src_eq_false.mpr sound) (inSurvey_src_eq_false.mpr survey)]
      exact all (faultSrc_dropped sound _)
  · intro dropped
    have all : ∀ {c t}, OrdDropped q c s t → dropped c t := fun h =>
      ⟨by rw [h.pos, OrdPos.faulted_eq], h.orders, h.ackT, h.cycle⟩
    refine ⟨fun sound survey c => ⟨_, reports .., ?_⟩,
      fun sound timer => ⟨_, (leaves q).trans (congrArg _ (if_pos timer)), all (faultOrd_dropped sound _)⟩,
      fun timer => (leaves q).trans (congrArg _ (if_neg timer))⟩
    rw [takeFault_sound (isFaulted_ord_eq_false.mpr sound) (inSurvey_ord_eq_false.mpr survey)]
    exact all (faultOrd_dropped sound _)
  · rcases quiet with ⟨faulted, still⟩ | ⟨surveyed, startup⟩
    · simp only [takeFault, still, faulted, Bool.false_eq_true, if_false, if_true]
    · simp only [takeFault, surveyed, startup, if_true]

end Sys2Proof.Machine

/-! The end of a survey, step by step (R25, R61, R142, R160 to R162; for O59 and O60). -/

namespace Sys2Proof.Machine

/-! ## The start-up survey, and the request that waits -/

theorem anySurvey_eq_false (s : State) : anySurvey s = false ↔
    (∀ p : Fin 4, s.src[p].surveyT = none) ∧ ∀ q : Fin 12, s.wall.pos[q].surveyT = none := by
  unfold anySurvey
  rw [Bool.or_eq_false_iff, List.any_eq_false, List.any_eq_false]
  simp only [Bool.not_eq_true, inSurvey_src_eq_false, inSurvey_ord_eq_false]
  exact and_congr ⟨fun h p => h p (mem_srcIndices p), fun h p _ => h p⟩ ⟨fun h q => h q (mem_ordIndices q), fun h q _ => h q⟩

theorem finishStartup_cases (v : State) :
    let ended := (∀ p : Fin 4, v.src[p].surveyT = none) ∧ ∀ q : Fin 12, v.wall.pos[q].surveyT = none
    (v.bench.surveying = true → ended → finishStartup v =
      notify (.surveyed .starting (countSources v) (countOrders v)) (endSurveying v)) ∧
    (v.bench.surveying = false ∨ ¬ ended → finishStartup v = v) := by
  intro ended
  refine ⟨fun surveying done => if_pos ?_, fun other => if_neg fun h => ?_⟩
  · rw [surveying, (anySurvey_eq_false v).mpr done] <;> rfl
  · obtain ⟨surveying, done⟩ := Bool.and_eq_true_iff.mp h
    refine other.elim (fun no => Bool.false_ne_true (no.symm.trans surveying)) fun no => no ((anySurvey_eq_false v).mp ?_)
    simpa using done

theorem finishStartup_frame (v : State) : let t := finishStartup v
    t.src = v.src ∧ t.wall = v.wall ∧ t.link.held = v.link.held ∧ (∀ e ∈ v.link.out, e ∈ t.link.out) := by
  have quiet : Quiet v (endSurveying v) := endSurveying_quiet v
  unfold finishStartup
  dsimp only
  split_ifs
  · have q := quiet.trans (notify_quiet (.surveyed .starting (countSources v) (countOrders v)) (endSurveying v))
    obtain ⟨ns, out⟩ := q.out
    exact ⟨notify_src .., notify_wall .., q.held, fun e mem => by rw [out]; exact List.mem_append_left _ mem⟩
  · exact ⟨rfl, rfl, rfl, fun e mem => mem⟩

/-- The reply of the request that waits for the survey of a position (R41, R161, R164). -/
def repliedTo (pos : Pos) (b : ReplyBody) (v : State) : State :=
  match v.link.held with
  | none => v
  | some x => if x.job.waitsFor pos then answer x.req b (endHeld v) else v

theorem answerHeld_eq (pos : Pos) (e : SurveyEnd) (v : State) : answerHeld pos e v = repliedTo pos (surveyReply pos e v) v := by
  cases held : v.link.held <;> simp only [answerHeld, repliedTo, held]

theorem repliedTo_frame (pos : Pos) (b : ReplyBody) (v : State) : let t := repliedTo pos b v
    t.src = v.src ∧ t.wall = v.wall ∧ t.bench = v.bench ∧ t.prof = v.prof := by
  unfold repliedTo
  dsimp only
  split
  · exact ⟨rfl, rfl, rfl, rfl⟩
  · split_ifs <;> exact ⟨rfl, rfl, rfl, rfl⟩

theorem repliedTo_waiting {pos : Pos} {v : State} {x : Execution} (held : v.link.held = some x)
    (waits : x.job.waitsFor pos = true) (b : ReplyBody) : (repliedTo pos b v).link.held = none ∧
      OutEntry.reply { tag := x.req.tag, kind := replyKind x.req.kind, body := b } ∈ (repliedTo pos b v).link.out := by
  have answers : repliedTo pos b v = answer x.req b (endHeld v) := by simp only [repliedTo, held, if_pos waits]
  rw [answers]
  exact ⟨rfl, List.mem_append_right _ List.mem_cons_self⟩

/-! ## A failed survey (R25, R160) -/

theorem emptied_dropSurvey (l : FieldLine) : FieldLine.emptied (FieldLine.dropSurvey l) = FieldLine.emptied l := by
  unfold FieldLine.dropSurvey
  split
  · rfl
  · split_ifs <;> rfl

theorem emptied_emptied (l : FieldLine) : FieldLine.emptied (FieldLine.emptied l) = FieldLine.emptied l := rfl

/-- A state with a source position replaced. -/
def putSrc (p : Fin 4) (y : SrcPos) (v : State) : State := { v with src := v.src.set p y }

/-- A state with an order position replaced. -/
def putOrd (q : Fin 12) (y : OrdPos) (v : State) : State := { v with wall := { v.wall with pos := v.wall.pos.set q y } }

/-- A source position after a failed survey, with its POSITION notice unless it was FAULTED already (R160). -/
def srcFailed (p : Fin 4) (c : Cause) (s : State) : State :=
  let v := putSrc p { s.src[p] with state := .faulted, cause := some c, face := {}, lane := {}, surveyT := none }
    (clearLine (.src p) s)
  if s.src[p].state = .faulted then v else notify (.position (.src p) (.source .faulted) (some c)) v

/-- An order position after a failed survey, its record kept (R162). -/
def ordFailed (q : Fin 12) (c : Cause) (s : State) : State :=
  let v := putOrd q { s.wall.pos[q] with state := .faulted, cause := some c, surveyT := none } (clearLine (.ord q) s)
  if s.wall.pos[q].state = .faulted then v else notify (.position (.ord q) (.order .faulted) (some c)) v

theorem clearLine_dropSurvey (pos : Pos) (s : State) :
    clearLine pos (modLine (lineOf pos) FieldLine.dropSurvey s) = clearLine pos s := by
  have line : (modLine (lineOf pos) FieldLine.dropSurvey s).lines[lineOf pos] = FieldLine.dropSurvey s.lines[lineOf pos] := by
    rw [modLine_getElem, if_pos rfl]
  unfold clearLine
  rw [modLine, line, emptied_dropSurvey]
  simp [modLine]

theorem clearLine_clearLine (pos : Pos) (s : State) : clearLine pos (clearLine pos s) = clearLine pos s := by
  have line : (clearLine pos s).lines[lineOf pos] = FieldLine.emptied s.lines[lineOf pos] := by
    rw [clearLine, modLine_getElem, if_pos rfl]
  conv_lhs => rw [clearLine, modLine, line, emptied_emptied]
  simp [clearLine, modLine]

theorem surveyFailedSrc_stopped (p : Fin 4) (c : Cause) (s : State) :
    surveyFailedSrc p c (stopSurvey (.src p) s) = srcFailed p c s := by
  have at' : (stopSurvey (.src p) s).src[p] = s.src[p].setSurvey none := modSrc_self p (SrcPos.setSurvey none) s
  have both : modSrc p (fun x => x.blank .faulted (some c)) (modSrc p (SrcPos.setSurvey none) s) =
      putSrc p { s.src[p] with state := .faulted, cause := some c, face := {}, lane := {}, surveyT := none } s :=
    modSrc_modSrc ..
  have cleared : clearLine (.src p) (modSrc p (fun x => x.blank .faulted (some c)) (stopSurvey (.src p) s)) =
      putSrc p { s.src[p] with state := .faulted, cause := some c, face := {}, lane := {}, surveyT := none }
        (clearLine (.src p) s) :=
    (clearLine_dropSurvey (.src p) (modSrc p (fun x => x.blank .faulted (some c)) (modSrc p (SrcPos.setSurvey none) s))).trans
      (congrArg (clearLine (.src p)) both)
  have state : (stopSurvey (.src p) s).src[p].state = s.src[p].state := by rw [at'] <;> rfl
  have here : (putSrc p { s.src[p] with state := .faulted, cause := some c, face := {}, lane := {}, surveyT := none }
      (clearLine (.src p) s)).src[p] =
      { s.src[p] with state := .faulted, cause := some c, face := {}, lane := {}, surveyT := none } :=
    Vector.getElem_set_self _
  unfold surveyFailedSrc srcFailed
  dsimp only
  rw [state, cleared, notifySrc, here]

theorem surveyFailedOrd_stopped (q : Fin 12) (c : Cause) (s : State) :
    surveyFailedOrd q c (stopSurvey (.ord q) s) = ordFailed q c s := by
  have at' : (stopSurvey (.ord q) s).wall.pos[q] = s.wall.pos[q].setSurvey none := modOrd_self q (OrdPos.setSurvey none) s
  have both : modOrd q (OrdPos.surveyFailed c) (modOrd q (OrdPos.setSurvey none) s) =
      putOrd q { s.wall.pos[q] with state := .faulted, cause := some c, surveyT := none } s := modOrd_modOrd ..
  have cleared : clearLine (.ord q) (modOrd q (OrdPos.surveyFailed c) (stopSurvey (.ord q) s)) =
      putOrd q { s.wall.pos[q] with state := .faulted, cause := some c, surveyT := none } (clearLine (.ord q) s) :=
    (clearLine_dropSurvey (.ord q) (modOrd q (OrdPos.surveyFailed c) (modOrd q (OrdPos.setSurvey none) s))).trans
      (congrArg (clearLine (.ord q)) both)
  have state : (stopSurvey (.ord q) s).wall.pos[q].state = s.wall.pos[q].state := by rw [at'] <;> rfl
  have here : (putOrd q { s.wall.pos[q] with state := .faulted, cause := some c, surveyT := none }
      (clearLine (.ord q) s)).wall.pos[q] = { s.wall.pos[q] with state := .faulted, cause := some c, surveyT := none } :=
    Vector.getElem_set_self _
  unfold surveyFailedOrd ordFailed
  dsimp only
  rw [state, cleared, notifyOrd, here]

theorem srcFailed_src (p : Fin 4) (c : Cause) (s : State) : (srcFailed p c s).src[p] =
    { s.src[p] with state := .faulted, cause := some c, face := {}, lane := {}, surveyT := none } := by
  have here : (putSrc p { s.src[p] with state := .faulted, cause := some c, face := {}, lane := {}, surveyT := none }
      (clearLine (.src p) s)).src[p] =
      { s.src[p] with state := .faulted, cause := some c, face := {}, lane := {}, surveyT := none } :=
    Vector.getElem_set_self _
  unfold srcFailed
  dsimp only
  split_ifs
  · exact here
  · exact (congrArg (fun v => v[p]) (notify_src ..)).trans here

theorem ordFailed_ord (q : Fin 12) (c : Cause) (s : State) : (ordFailed q c s).wall.pos[q] =
    { s.wall.pos[q] with state := .faulted, cause := some c, surveyT := none } := by
  have here : (putOrd q { s.wall.pos[q] with state := .faulted, cause := some c, surveyT := none }
      (clearLine (.ord q) s)).wall.pos[q] = { s.wall.pos[q] with state := .faulted, cause := some c, surveyT := none } :=
    Vector.getElem_set_self _
  unfold ordFailed
  dsimp only
  split_ifs
  · exact here
  · exact (congrArg (fun w => w.pos[q]) (notify_wall ..)).trans here

/-- The end of a survey that leaves a source position FAULTED (R25, R160). -/
theorem endSurvey_srcFailed {p : Fin 4} {e : SurveyEnd} {c : Cause} {b : ReplyBody}
    (applied : ∀ v, applySurvey (.src p) e v = surveyFailedSrc p c v) (reply : ∀ v, surveyReply (.src p) e v = b) (s : State) :
    Machine.endSurvey (.src p) e s = finishStartup (repliedTo (.src p) b (srcFailed p c s)) := by
  have at' := srcFailed_src p c s
  have drains : reopenDrain (.src p) (srcFailed p c s) = srcFailed p c s := by
    refine if_neg fun ⟨_, full⟩ => ?_
    rw [at'] at full
    cases full
  have after : afterSurvey (.src p) (repliedTo (.src p) b (srcFailed p c s)) = repliedTo (.src p) b (srcFailed p c s) := by
    refine if_neg fun opn => ?_
    rw [(repliedTo_frame ..).1, at'] at opn
    cases opn
  rw [endSurvey, applied, surveyFailedSrc_stopped, drains, answerHeld_eq, reply, after]

/-- The end of a survey that leaves an order position FAULTED (R61, R160). -/
theorem endSurvey_ordFailed {q : Fin 12} {e : SurveyEnd} {c : Cause} {b : ReplyBody}
    (applied : ∀ v, applySurvey (.ord q) e v = surveyFailedOrd q c v) (reply : ∀ v, surveyReply (.ord q) e v = b) (s : State) :
    Machine.endSurvey (.ord q) e s = finishStartup (repliedTo (.ord q) b (ordFailed q c s)) := by
  have at' := ordFailed_ord q c s
  have drains : reopenDrain (.ord q) (ordFailed q c s) = ordFailed q c s := rfl
  have after : afterSurvey (.ord q) (repliedTo (.ord q) b (ordFailed q c s)) = repliedTo (.ord q) b (ordFailed q c s) := by
    refine if_neg fun entered => ?_
    rw [(repliedTo_frame ..).2.1, at'] at entered
    exact entered.elim nofun fun h => h.elim nofun nofun
  rw [endSurvey, applied, surveyFailedOrd_stopped, drains, answerHeld_eq, reply, after]

end Sys2Proof.Machine

/-! A good answer to a survey: the source position it opens, and the record it recovers (R25, R61, R162; for O59). -/

namespace Sys2Proof.Machine

/-! ## A source position opened (R25) -/

theorem putSrc_self (p : Fin 4) (y : SrcPos) (v : State) : (putSrc p y v).src[p] = y := Vector.getElem_set_self _

theorem putOrd_self (q : Fin 12) (y : OrdPos) (v : State) : (putOrd q y v).wall.pos[q] = y := Vector.getElem_set_self _

theorem modSrc_of_at {p : Fin 4} {x : SrcPos} {v : State} (here : v.src[p] = x) (f : SrcPos → SrcPos) :
    modSrc p f v = putSrc p (f x) v := by
  rw [modSrc, here] <;> rfl

/-- A tote found at a slot of a position that stands as `x` (R25). -/
def foundAt (p : Fin 4) (sl : Slot) (id : Option Nat) (x : SrcPos) (v : State) : State :=
  notify (.release id .unknown (some (p, sl)) none []) (handOrder (.src p) (.gate (exitGate sl)) (putSrc p x v))

theorem foundAt_src (p : Fin 4) (sl : Slot) (id : Option Nat) (x : SrcPos) (v : State) : (foundAt p sl id x v).src[p] = x := by
  have at' : (notify (.release id .unknown (some (p, sl)) none [])
      (handOrder (.src p) (.gate (exitGate sl)) (putSrc p x v))).src = (putSrc p x v).src :=
    (notify_src ..).trans (handOrder_src ..)
  exact (congrArg (fun v => v[p]) at').trans (putSrc_self p x v)

theorem foundAt_rest (p : Fin 4) (sl : Slot) (id : Option Nat) (x : SrcPos) (v : State) :
    (foundAt p sl id x v).prof = v.prof ∧ (foundAt p sl id x v).bench = v.bench :=
  ⟨(notify_prof ..).trans (handOrder_prof ..), (notify_bench ..).trans (handOrder_bench ..)⟩

theorem releaseFound_some {p : Fin 4} {x : SrcPos} {v : State} (here : v.src[p] = x) (sl : Slot) (id : Option Nat) :
    releaseFound p sl (some id) v = foundAt p sl id (x.leaving sl none id (v.prof.profile.leaveTimeout * 10)) v := by
  show releaseUnknown p sl id v = _
  rw [releaseUnknown, modSrc_of_at here] <;> rfl

theorem putSrc_putSrc (p : Fin 4) (x y : SrcPos) (v : State) : putSrc p x (putSrc p y v) = putSrc p x v := by
  simp [putSrc]

/-- A source position that a good answer opens, before the totes found are released (R25). -/
def SrcPos.openedEmpty (x : SrcPos) : SrcPos :=
  { x with state := .opn, cause := none, face := {}, lane := {}, surveyT := none }

/-- The state in which the totes found are released: the position OPEN, its SURVEY order gone, its notice queued. -/
def srcOpened (p : Fin 4) (s : State) : State :=
  notify (.position (.src p) (.source .opn) none)
    (putSrc p s.src[p].openedEmpty (modLine (lineOf (.src p)) FieldLine.dropSurvey s))

theorem srcOpened_src (p : Fin 4) (s : State) : (srcOpened p s).src[p] = s.src[p].openedEmpty :=
  (congrArg (fun v => v[p]) (notify_src ..)).trans (putSrc_self ..)

theorem srcOpened_rest (p : Fin 4) (s : State) : (srcOpened p s).prof = s.prof ∧ (srcOpened p s).bench = s.bench :=
  ⟨notify_prof .., notify_bench ..⟩

/-- The end of a survey that opens a source position, up to the BENCH notice (R25). -/
def srcSurveyed (p : Fin 4) (f l : Option (Option Nat)) (s : State) : State :=
  let time := s.prof.profile.leaveTimeout * 10
  let x := s.src[p].openedEmpty
  match f, l with
  | none, none => srcOpened p s
  | some i, none => foundAt p .face i (x.leaving .face none i time) (srcOpened p s)
  | none, some j => foundAt p .lane j (x.waitLane.leaving .lane none j time) (srcOpened p s)
  | some i, some j => foundAt p .lane j ((x.leaving .face none i time).leaving .lane none j time)
      (foundAt p .face i (x.leaving .face none i time) (srcOpened p s))

theorem surveyedSrc_stopped (p : Fin 4) (f l : Option (Option Nat)) (s : State) :
    surveyedSrc p f l (stopSurvey (.src p) s) = srcSurveyed p f l s := by
  have opened : notifySrc p (modSrc p (fun x => x.blank .opn none) (stopSurvey (.src p) s)) = srcOpened p s := by
    have both : modSrc p (fun x => x.blank .opn none) (stopSurvey (.src p) s) =
        putSrc p s.src[p].openedEmpty (modLine (lineOf (.src p)) FieldLine.dropSurvey s) :=
      congrArg (modLine (lineOf (.src p)) FieldLine.dropSurvey)
        (modSrc_modSrc p (fun x => x.blank .opn none) (SrcPos.setSurvey none) s)
    rw [both, notifySrc, putSrc_self] <;> rfl
  have here := srcOpened_src p s
  have prof := (srcOpened_rest p s).1
  have both : ∀ w, surveyedSrc p f l w = if f.isNone && l.isSome then
      releaseFound p .lane l (modSrc p SrcPos.waitLane (releaseFound p .face f (notifySrc p (modSrc p (fun x => x.blank .opn none) w))))
      else releaseFound p .lane l (releaseFound p .face f (notifySrc p (modSrc p (fun x => x.blank .opn none) w))) := fun _ => rfl
  rw [both, opened]
  generalize opening : srcOpened p s = v at here prof
  unfold srcSurveyed
  rw [opening, ← prof]
  cases f with
  | none =>
    cases l with
    | none => rfl
    | some j =>
      have waits : modSrc p SrcPos.waitLane v = putSrc p s.src[p].openedEmpty.waitLane v := modSrc_of_at here _
      show releaseFound p .lane (some j) (modSrc p SrcPos.waitLane v) = _
      rw [waits, releaseFound_some (putSrc_self ..), foundAt, putSrc_putSrc] <;> rfl
  | some i =>
    have face := releaseFound_some here .face i
    cases l with
    | none => exact face
    | some j =>
      have read : ¬ ((some i).isNone && (some j).isSome) = true := Bool.false_ne_true
      rw [if_neg read, face, releaseFound_some (foundAt_src ..), (foundAt_rest ..).1]

theorem srcSurveyed_src (p : Fin 4) (f l : Option (Option Nat)) (s : State) : (srcSurveyed p f l s).src[p] =
    { s.src[p].judged (.source f l) (s.prof.profile.leaveTimeout * 10) with surveyT := none } := by
  cases f with
  | none =>
    cases l with
    | none => exact srcOpened_src p s
    | some j => exact foundAt_src ..
  | some i =>
    cases l with
    | none => exact foundAt_src ..
    | some j => exact foundAt_src ..

theorem srcSurveyed_bench (p : Fin 4) (f l : Option (Option Nat)) (s : State) : (srcSurveyed p f l s).bench = s.bench := by
  have opened := (srcOpened_rest p s).2
  cases f with
  | none =>
    cases l with
    | none => exact opened
    | some j => exact (foundAt_rest ..).2.trans opened
  | some i =>
    cases l with
    | none => exact (foundAt_rest ..).2.trans opened
    | some j => exact (foundAt_rest ..).2.trans ((foundAt_rest ..).2.trans opened)

/-- The state after the BENCH notice of a return to DRAINING (R139). -/
def drainReopened (found : Bool) (v : State) : State :=
  if v.bench.mode = .drained ∧ found = true then
    notify (.benchMode .draining .drained) { v with bench := { v.bench with mode := .draining } }
  else v

theorem drainReopened_src (found : Bool) (v : State) : (drainReopened found v).src = v.src := by
  unfold drainReopened
  split_ifs
  · exact notify_src ..
  · rfl

/-- The end of a survey that opens a source position (R25, R49, R82, R139). -/
theorem endSurvey_source (p : Fin 4) (f l : Option (Option Nat)) (s : State) :
    Machine.endSurvey (.src p) (.source f l) s = finishStartup (attempt (arbitrate (repliedTo (.src p) (.ok (.sourceState .opn))
      (drainReopened (f.isSome || l.isSome) (srcSurveyed p f l s))))) := by
  have here := srcSurveyed_src p f l s
  have drains : reopenDrain (.src p) (srcSurveyed p f l s) = drainReopened (f.isSome || l.isSome) (srcSurveyed p f l s) := by
    have full : (srcSurveyed p f l s).src[p].bothEmpty = false ↔ (f.isSome || l.isSome) = true := by
      rw [here]
      cases f <;> cases l <;> simp [SrcPos.bothEmpty, SrcPos.judged]
    unfold reopenDrain drainReopened
    dsimp only
    by_cases mode : (srcSurveyed p f l s).bench.mode = .drained ∧ (f.isSome || l.isSome) = true
    · rw [if_pos ⟨mode.1, full.mpr mode.2⟩, if_pos mode, setMode_eq, mode.1]
    · rw [if_neg fun h => mode ⟨h.1, full.mp h.2⟩, if_neg mode]
  have opn : (drainReopened (f.isSome || l.isSome) (srcSurveyed p f l s)).src[p].state = .opn := by
    rw [drainReopened_src, here] <;> rfl
  have reply : ∀ v : State, v.src[p].state = .opn → surveyReply (.src p) (.source f l) v = .ok (.sourceState .opn) := fun v h =>
    congrArg (fun st => ReplyBody.ok (.sourceState st)) h
  have applied : applySurvey (.src p) (.source f l) (stopSurvey (.src p) s) = srcSurveyed p f l s := surveyedSrc_stopped p f l s
  have after : ∀ v : State, v.src[p].state = .opn → afterSurvey (.src p) v = attempt (arbitrate v) := fun v h => if_pos h
  rw [endSurvey, applied, drains, answerHeld_eq, reply _ opn, after]
  rw [(repliedTo_frame ..).1]
  exact opn

/-! ## An order position recovered (R61, R162) -/

/-- An order position that leaves its survey as `z`, with its POSITION notice. -/
def ordSet (q : Fin 12) (z : OrdPos) (v : State) : State :=
  notify (.position (.ord q) (.order z.state) z.cause) (putOrd q z v)

/-- The line of an order position without its SURVEY order. -/
def ordStopped (q : Fin 12) (s : State) : State := modLine (lineOf (.ord q)) FieldLine.dropSurvey s

/-- What every good answer changes of an order position: the weight, the former state, the cause, the timer. -/
def OrdPos.answered (g : Gross) (x : OrdPos) : OrdPos :=
  { x with latest := some g, former := none, cause := none, surveyT := none }

theorem ordSet_wall (q : Fin 12) (z : OrdPos) (v : State) : (ordSet q z v).wall.pos[q] = z :=
  (congrArg (fun w => w.pos[q]) (notify_wall ..)).trans (putOrd_self ..)

theorem reopenOrd_stopped (q : Fin 12) (st : OrdState) (g : Gross) (f : OrdPos → OrdPos) (s : State) :
    reopenOrd q st g f (stopSurvey (.ord q) s) =
      ordSet q (f { s.wall.pos[q].answered g with state := st }) (ordStopped q s) := by
  have both : modOrd q (fun x => f (x.reopened st g)) (stopSurvey (.ord q) s) =
      putOrd q (f { s.wall.pos[q].answered g with state := st }) (ordStopped q s) :=
    congrArg (modLine (lineOf (.ord q)) FieldLine.dropSurvey)
      (modOrd_modOrd q (fun x => f (x.reopened st g)) (OrdPos.setSurvey none) s)
  rw [reopenOrd, both, notifyOrd, putOrd_self] <;> rfl

theorem notifyWall_ordSet {q : Fin 12} {z : OrdPos} {r : Rec} (record : z.record = some r) (e : WallEvent) (v : State) :
    notifyWall q e (ordSet q z v) = notify (.wall q (some (r.ref, r.tote)) e) (ordSet q z v) := by
  rw [notifyWall, ordSet_wall, record] <;> rfl

theorem giveUpRecord_ordSet {q : Fin 12} {z : OrdPos} {r : Rec} (record : z.record = some r) (j : Option Nat) (v : State) :
    giveUpRecord q j (ordSet q z v) = notify (.wall q (some (r.ref, r.tote)) (.released r.comps true none))
      (ordSet q { z with record := none, idRead := j } v) := by
  have told : notifyReleased q true (ordSet q z v) =
      notify (.wall q (some (r.ref, r.tote)) (.released r.comps true none)) (ordSet q z v) := by
    have held : (ordSet q z v).wall.pos[q].record = some r := (congrArg OrdPos.record (ordSet_wall q z v)).trans record
    simp only [notifyReleased, held]
    exact notifyWall_ordSet record _ v
  have twice : modOrd q (OrdPos.withoutRecord j) (putOrd q z v) = putOrd q (z.withoutRecord j) v := by
    rw [modOrd, putOrd_self]
    simp [putOrd]
  rw [giveUpRecord, told, ← notify_modOrd, ordSet, ← notify_modOrd, twice] <;> rfl

/-- The table of R162, from the state with the SURVEY order gone: the position as it is set and the notices. -/
theorem surveyedOrd_stopped (q : Fin 12) (g : Gross) {s u : State} (lined : ordStopped q s = u) :
    let y := s.wall.pos[q].answered g
    let out := fun i => surveyedOrd q i g (stopSurvey (.ord q) s)
    (s.wall.pos[q].record = none → out none = ordSet q { y with state := .empty } u ∧
      ∀ id, out (some id) = ordSet q { y with state := .occupied, idRead := id } u) ∧
    ∀ r, s.wall.pos[q].record = some r →
      let tell := fun e : WallEvent => notify (.wall q (some (r.ref, r.tote)) e)
      let base := r.baseline.getD 0
      let clean : Rec := { r with cond := .clean }
      let was := s.wall.pos[q].former = some .active
      (was → out none = tell (.released r.comps true none)
        (ordSet q { y with state := .empty, record := none, idRead := none } u)) ∧
      (¬ was → out none = tell (.added .expected) (ordSet q { y with state := .expected, record := some clean } u)) ∧
      (∀ j, j ≠ some r.tote → out (some j) = tell (.released r.comps true none)
        (ordSet q { y with state := .occupied, record := none, idRead := j } u)) ∧
      (was → disturbanceOf g base s.prof.profile.ta = none → out (some (some r.tote)) =
        tell (.clean g base) (ordSet q { y with state := .active, record := some clean } u)) ∧
      (was → disturbanceOf g base s.prof.profile.ta ≠ none →
        out (some (some r.tote)) = ordSet q { y with state := .active } u) ∧
      (∀ w, ¬ was → g = .grams w → out (some (some r.tote)) =
        tell (.active w) (ordSet q { y with state := .active, record := some { clean with baseline := some w } } u)) ∧
      (¬ was → g = .overload → out (some (some r.tote)) =
        ordSet q { y with state := .arrived, record := some clean } u) := by
  subst lined
  intro y out
  have at' : (stopSurvey (.ord q) s).wall.pos[q] = s.wall.pos[q].setSurvey none := modOrd_self q (OrdPos.setSurvey none) s
  have former : (stopSurvey (.ord q) s).wall.pos[q].former = s.wall.pos[q].former := by rw [at'] <;> rfl
  have held : (stopSurvey (.ord q) s).wall.pos[q].record = s.wall.pos[q].record := by rw [at'] <;> rfl
  have prof : (stopSurvey (.ord q) s).prof = s.prof := rfl
  have opened := fun st f => reopenOrd_stopped q st g f s
  refine ⟨fun none => ⟨?_, fun id => ?_⟩, fun r record => ?_⟩
  · simp only [out, surveyedOrd, held, none]
    exact opened .empty id
  · simp only [out, surveyedOrd, held, none]
    exact opened .occupied fun x => { x with idRead := id }
  · intro tell base clean was
    have kept : y.record = some r := record
    refine ⟨fun was => ?_, fun fresh => ?_, fun j other => ?_, fun was within => ?_, fun was beyond => ?_,
      fun w fresh grams => ?_, fun fresh overload => ?_⟩
    · have was' : (stopSurvey (.ord q) s).wall.pos[q].former = some .active := former.trans was
      simp only [out, surveyedOrd, held, record, was', if_true]
      rw [opened .empty id]
      exact giveUpRecord_ordSet (z := { y with state := .empty }) kept Option.none _
    · have fresh' : ¬ (stopSurvey (.ord q) s).wall.pos[q].former = some .active := fun h => fresh (former.symm.trans h)
      simp only [out, surveyedOrd, held, record, if_neg fresh']
      rw [opened .expected fun x => { x with record := some clean }]
      exact notifyWall_ordSet (r := clean) rfl _ _
    · simp only [out, surveyedOrd, held, record, if_pos other]
      rw [opened .occupied id]
      exact giveUpRecord_ordSet (z := { y with state := .occupied }) kept j _
    · have was' : (stopSurvey (.ord q) s).wall.pos[q].former = some .active := former.trans was
      have within : disturbanceOf g (r.baseline.getD 0) s.prof.profile.ta = Option.none := within
      simp only [out, surveyedOrd, held, record, ne_eq, not_true_eq_false, if_false, was', if_true, prof, within]
      rw [opened .active fun x => { x with record := some clean }]
      exact notifyWall_ordSet (r := clean) rfl _ _
    · have was' : (stopSurvey (.ord q) s).wall.pos[q].former = some .active := former.trans was
      obtain ⟨d, beyond⟩ := Option.ne_none_iff_exists'.mp beyond
      have beyond : disturbanceOf g (r.baseline.getD 0) s.prof.profile.ta = some d := beyond
      simp only [out, surveyedOrd, held, record, ne_eq, not_true_eq_false, if_false, was', if_true, prof, beyond]
      exact opened .active id
    · have fresh' : ¬ (stopSurvey (.ord q) s).wall.pos[q].former = some .active := fun h => fresh (former.symm.trans h)
      subst grams
      simp only [out, surveyedOrd, held, record, ne_eq, not_true_eq_false, if_false, if_neg fresh']
      rw [opened .active fun x => { x with record := some { clean with baseline := some w } }]
      exact notifyWall_ordSet (r := { clean with baseline := some w }) rfl _ _
    · have fresh' : ¬ (stopSurvey (.ord q) s).wall.pos[q].former = some .active := fun h => fresh (former.symm.trans h)
      subst overload
      simp only [out, surveyedOrd, held, record, ne_eq, not_true_eq_false, if_false, if_neg fresh']
      exact opened .arrived fun x => { x with record := some clean }

end Sys2Proof.Machine

/-! Field lines and the end of every survey: acknowledgements, merging, answers and expiries (O59, O60). -/

namespace Sys2Proof.Machine

/-! ## What follows an order position that its survey has set -/

theorem endSurvey_ends {q : Fin 12} {i : Option (Option Nat)} {g : Gross} {s v : State} {st : OrdState}
    (set' : surveyedOrd q i g (stopSurvey (.ord q) s) = v) (state : v.wall.pos[q].state = st)
    (out : ¬ (st = .expected ∨ st = .arrived ∨ st = .active)) :
    Machine.endSurvey (.ord q) (.order i g) s = finishStartup (repliedTo (.ord q) (.ok (.orderState st)) v) := by
  have applied : applySurvey (.ord q) (.order i g) (stopSurvey (.ord q) s) = v := set'
  have drains : reopenDrain (.ord q) v = v := rfl
  have reply : surveyReply (.ord q) (.order i g) v = .ok (.orderState st) := congrArg (fun st => ReplyBody.ok (.orderState st)) state
  have after : ∀ b, afterSurvey (.ord q) (repliedTo (.ord q) b v) = repliedTo (.ord q) b v := fun b => by
    refine if_neg fun entered => out ?_
    rw [(repliedTo_frame ..).2.1, state] at entered
    exact entered
  rw [endSurvey, applied, drains, answerHeld_eq, reply, after]

theorem endSurvey_enters {q : Fin 12} {i : Option (Option Nat)} {g : Gross} {s v : State} {st : OrdState}
    (set' : surveyedOrd q i g (stopSurvey (.ord q) s) = v) (state : v.wall.pos[q].state = st)
    (enters : st = .expected ∨ st = .arrived ∨ st = .active) : endSurvey (.ord q) (.order i g) s =
      finishStartup (recordEntered (repliedTo (.ord q) (.ok (.orderState st)) v)) := by
  have applied : applySurvey (.ord q) (.order i g) (stopSurvey (.ord q) s) = v := set'
  have drains : reopenDrain (.ord q) v = v := rfl
  have reply : surveyReply (.ord q) (.order i g) v = .ok (.orderState st) := congrArg (fun st => ReplyBody.ok (.orderState st)) state
  have after : ∀ b, afterSurvey (.ord q) (repliedTo (.ord q) b v) = recordEntered (repliedTo (.ord q) b v) := fun b => by
    refine if_pos ?_
    rw [(repliedTo_frame ..).2.1, state]
    exact enters
  rw [endSurvey, applied, drains, answerHeld_eq, reply, after]

theorem notifyOrdSet_state (q : Fin 12) (b : NoticeBody) (z : OrdPos) (u : State) :
    (notify b (ordSet q z u)).wall.pos[q].state = z.state := by
  rw [notify_wall, ordSet_wall]

theorem ordSet_state (q : Fin 12) (z : OrdPos) (u : State) : (ordSet q z u).wall.pos[q].state = z.state := by
  rw [ordSet_wall]

/-! ## What the end of a survey leaves -/

/-- The request that waits for the survey is answered, and execution no longer held (R41, R161). -/
theorem endSurvey_answers {pos : Pos} {s : State} {x : Execution} (held : s.link.held = some x)
    (waits : x.job.waitsFor pos = true) (e : SurveyEnd) :
    let t := endSurvey pos e s
    let b := surveyReply pos e (reopenDrain pos (applySurvey pos e (stopSurvey pos s)))
    t.link.held = none ∧ OutEntry.reply { tag := x.req.tag, kind := replyKind x.req.kind, body := b } ∈ t.link.out := by
  have quiet := ((stopSurvey_quiet pos s).trans (applySurvey_quiet pos e _)).trans (reopenDrain_quiet pos _)
  have still := quiet.held.trans held
  intro t b
  have ends : t = finishStartup (afterSurvey pos (repliedTo pos
      (surveyReply pos e (reopenDrain pos (applySurvey pos e (stopSurvey pos s))))
      (reopenDrain pos (applySurvey pos e (stopSurvey pos s))))) := by
    rw [← answerHeld_eq] <;> rfl
  clear_value t
  obtain ⟨free, said⟩ := repliedTo_waiting still waits
    (surveyReply pos e (reopenDrain pos (applySurvey pos e (stopSurvey pos s))))
  have after := (afterSurvey_quiet pos (repliedTo pos
    (surveyReply pos e (reopenDrain pos (applySurvey pos e (stopSurvey pos s))))
    (reopenDrain pos (applySurvey pos e (stopSurvey pos s))))).trans (finishStartup_quiet _)
  rw [← ends] at after
  obtain ⟨ns, out⟩ := after.out
  exact ⟨after.held.trans free, by rw [out]; exact List.mem_append_left _ said⟩

/-- Slots that hold a tote, and all else of the source positions, as an arbitration leaves them (R46). -/
def SlotsStay (s t : State) : Prop := ∀ p : Fin 4,
  (t.src[p].state = s.src[p].state ∧ t.src[p].cause = s.src[p].cause ∧ t.src[p].surveyT = s.src[p].surveyT) ∧
  (s.src[p].face.state ≠ .empty → t.src[p].face = s.src[p].face) ∧
  (s.src[p].lane.state ≠ .empty → t.src[p].lane = s.src[p].lane)

theorem SlotsStay.of_src {s t : State} (h : t.src = s.src) : SlotsStay s t := fun p => by
  rw [h]
  exact ⟨⟨rfl, rfl, rfl⟩, fun _ => rfl, fun _ => rfl⟩

theorem SlotsStay.trans {s t u : State} (h : SlotsStay s t) (k : SlotsStay t u) : SlotsStay s u := fun p => by
  obtain ⟨⟨state, cause, survey⟩, face, lane⟩ := h p
  obtain ⟨⟨state', cause', survey'⟩, face', lane'⟩ := k p
  exact ⟨⟨state'.trans state, cause'.trans cause, survey'.trans survey⟩,
    fun full => (face' (by rw [face full]; exact full)).trans (face full),
    fun full => (lane' (by rw [lane full]; exact full)).trans (lane full)⟩

theorem slotsStay_grant {p : Fin 4} {sl : Slot} {s : State} (free : callable p sl s = true) (t time : Nat) :
    SlotsStay s (modSrc p (SrcPos.called sl t time) s) := fun p' => by
  rw [modSrc_getElem]
  split_ifs with e
  · subst e
    obtain ⟨-, -, -, -, empty⟩ := callable_iff.mp free
    cases sl with
    | face => exact ⟨⟨rfl, rfl, rfl⟩, fun full => absurd empty full, fun _ => rfl⟩
    | lane => exact ⟨⟨rfl, rfl, rfl⟩, fun _ => rfl, fun full => absurd empty.2.2 full⟩
  · exact ⟨⟨rfl, rfl, rfl⟩, fun _ => rfl, fun _ => rfl⟩

theorem slotsStayArb : ClosedArb SlotsStay where
  refl _ := .of_src rfl
  trans := SlotsStay.trans
  notice _ _ := .of_src rfl
  lost _ := .of_src rfl
  drop x s := .of_src (dropOffer_fields x s).1
  grantSlot p sl o s t free _ _ := (slotsStay_grant free o.tote t).trans (.of_src rfl)
  arb _ _ _ _ := .of_src rfl

theorem arbitrate_wall (s : State) : (arbitrate s).wall = s.wall := by
  have same : ClosedArb fun s t => t.wall = s.wall :=
    { refl := fun _ => rfl
      trans := fun h k => k.trans h
      notice := fun _ _ => rfl
      lost := fun _ => rfl
      drop := fun x s => (clearServed_fields x (eraseOffer x s)).2.1
      grantSlot := fun _ _ _ _ _ _ _ _ => rfl
      arb := fun _ _ _ _ => rfl }
  exact same.arbitrate s

theorem SrcPos.rest_of_setOrphan {x y : SrcPos} (h : y.setOrphan none = x.setOrphan none) :
    y.state = x.state ∧ y.cause = x.cause ∧ y.surveyT = x.surveyT ∧ y.lane = x.lane :=
  ⟨show (y.setOrphan none).state = (x.setOrphan none).state by rw [h],
    show (y.setOrphan none).cause = (x.setOrphan none).cause by rw [h],
    show (y.setOrphan none).surveyT = (x.setOrphan none).surveyT by rw [h],
    show (y.setOrphan none).lane = (x.setOrphan none).lane by rw [h]⟩

theorem attempt_orphansApart (s : State) : OrphansApart s (attempt s) := by
  have h := attempted s
  generalize attempt s = t at h
  cases h with
  | barred _ => exact .of_src rfl
  | missed _ u looking _ => exact .of_src looking.src
  | cycle may u looking k _ _ =>
    obtain ⟨-, -, src, -⟩ := startCycle_frame (k := k) (looking.active may)
    intro p
    have at' : (startCycle k u).src[p] = if k.p = p then u.src[p].setOrphan none else u.src[p] :=
      (congrArg (fun v => v[p]) src).trans (modSrc_getElem k.p p (SrcPos.setOrphan none) u)
    rw [at', ← looking.src]
    split_ifs <;> rfl

/-- A source position opened by its survey, with the totes found LEAVING (R25). -/
structure SrcOpened (p : Fin 4) (f l : Option (Option Nat)) (s t : State) : Prop where
  state : t.src[p].state = .opn
  cause : t.src[p].cause = none
  survey : t.src[p].surveyT = none
  face : ∀ id, f = some id → t.src[p].face =
    { state := .leaving, idRead := id, leaveT := some (s.prof.profile.leaveTimeout * 10) }
  lane : ∀ id, l = some id → t.src[p].lane =
    { state := .leaving, idRead := id, leaveT := some (s.prof.profile.leaveTimeout * 10) }
  settling : f = none → l ≠ none → t.src[p].face = { state := .settling }

theorem endSurvey_opened (p : Fin 4) (f l : Option (Option Nat)) (s : State) :
    SrcOpened p f l s (endSurvey (.src p) (.source f l) s) := by
  have surveyed := srcSurveyed_src p f l s
  rw [endSurvey_source]
  generalize replied : repliedTo (.src p) (.ok (.sourceState .opn)) (drainReopened (f.isSome || l.isSome) (srcSurveyed p f l s)) = v
  have here : v.src[p] = { s.src[p].judged (.source f l) (s.prof.profile.leaveTimeout * 10) with surveyT := none } := by
    rw [← replied, (repliedTo_frame ..).1, drainReopened_src, surveyed]
  obtain ⟨⟨state, cause, survey⟩, face, lane⟩ := slotsStayArb.arbitrate v p
  obtain ⟨state', cause', survey', lane'⟩ := SrcPos.rest_of_setOrphan (attempt_orphansApart (arbitrate v) p)
  have finished : (finishStartup (attempt (arbitrate v))).src = (attempt (arbitrate v)).src := (finishStartup_frame _).1
  have leaves : ∀ x : Face, v.src[p].face = x → x.state ≠ .empty → x.state ≠ .present →
      (finishStartup (attempt (arbitrate v))).src[p].face = x := fun x at' full away => by
    have kept := (face (by rw [at']; exact full)).trans at'
    rw [finished, (attempt_awaySrc (p := p) (by rw [kept]; exact away)).1, kept]
  refine ⟨?_, ?_, ?_, fun id found => leaves _ ?_ nofun nofun, fun id found => ?_, fun none some => leaves _ ?_ nofun nofun⟩
  · rw [finished, state']
    exact state.trans (by rw [here] <;> rfl)
  · rw [finished, cause']
    exact cause.trans (by rw [here] <;> rfl)
  · rw [finished, survey']
    exact survey.trans (by rw [here])
  · rw [here, found] <;> rfl
  · have at' : v.src[p].lane =
        { state := .leaving, idRead := id, leaveT := some (s.prof.profile.leaveTimeout * 10) } := by
      rw [here, found] <;> rfl
    rw [finished, lane']
    exact (lane (by rw [at']; exact nofun)).trans at'
  · obtain ⟨j, lane⟩ := Option.ne_none_iff_exists'.mp some
    rw [here, none, lane] <;> rfl

/-- An order position as its survey leaves it, full marks apart; exactly so where no record enters (R61, R162). -/
theorem endSurvey_ord (q : Fin 12) (e : SurveyEnd) (s : State) :
    let z := (s.wall.pos[q].setSurvey none).judged e s.prof.profile.ta
    let t := endSurvey (.ord q) e s
    t.wall.pos[q].unmarked = z.unmarked ∧
      (¬ (z.state = .expected ∨ z.state = .arrived ∨ z.state = .active) → t.wall.pos[q] = z) := by
  intro z t
  have set' : (applySurvey (.ord q) e (stopSurvey (.ord q) s)).wall.pos[q] = z := by
    rw [applySurvey_ord, if_pos rfl]
    have at' : (stopSurvey (.ord q) s).wall.pos[q] = s.wall.pos[q].setSurvey none := modOrd_self q (OrdPos.setSurvey none) s
    rw [at'] <;> rfl
  have ends : t = finishStartup (afterSurvey (.ord q) (repliedTo (.ord q)
      (surveyReply (.ord q) e (applySurvey (.ord q) e (stopSurvey (.ord q) s))) (applySurvey (.ord q) e (stopSurvey (.ord q) s)))) := by
    rw [← answerHeld_eq] <;> rfl
  clear_value t z
  rw [ends, (finishStartup_frame _).2.1]
  generalize applied : applySurvey (.ord q) e (stopSurvey (.ord q) s) = v at set'
  have here : (repliedTo (.ord q) (surveyReply (.ord q) e v) v).wall.pos[q] = z := by
    rw [(repliedTo_frame ..).2.1]
    exact set'
  generalize repliedTo (.ord q) (surveyReply (.ord q) e v) v = w at here
  unfold afterSurvey
  dsimp only
  rw [here]
  by_cases enters : z.state = .expected ∨ z.state = .arrived ∨ z.state = .active
  · rw [if_pos enters]
    refine ⟨?_, fun out => absurd enters out⟩
    have judged := (orphansJudged (arbitrate w)).marked.unmarked q
    have tried := (attempted (judgeOrphans (arbitrate w))).frame.marked.unmarked q
    have wall : (arbitrate w).wall = w.wall := arbitrate_wall w
    have follows : recordEntered w = attempt (judgeOrphans (arbitrate w)) := rfl
    rw [wall, here] at judged
    rw [follows]
    exact tried.trans judged
  · rw [if_neg enters, here]
    exact ⟨rfl, fun _ => rfl⟩

end Sys2Proof.Machine

/-! The end of every survey (O59) and the field lines (O60). -/

namespace Sys2Proof.Machine

/-! ## Which survey ends how -/

theorem takeAnswer_taken {pos : Pos} {a : SurveyAnswer} {s : State} (surveyed : inSurvey pos s = true)
    (valid : validAnswer a = true) : takeAnswer pos a s = endSurvey pos (judgeAnswer pos a s) s :=
  if_pos (by rw [surveyed, valid]; rfl)

theorem takeFault_surveyed {pos : Pos} {s : State} (surveyed : inSurvey pos s = true) (running : s.bench.surveying = false)
    (c : ModCause) : takeFault pos c s = endSurvey pos (.failed .survey) s := by
  simp only [takeFault, surveyed, running, if_true, Bool.false_eq_true, if_false]

theorem inSurvey_of_timer {pos : Pos} {s : State} {n : Nat} (timer : surveyTimer pos s = some n) : inSurvey pos s = true := by
  cases pos with
  | src p => exact Option.isSome_iff_exists.mpr ⟨n, timer⟩
  | ord q => exact Option.isSome_iff_exists.mpr ⟨n, timer⟩

theorem srcFailed_clearLine (p : Fin 4) (c : Cause) (s : State) : srcFailed p c (clearLine (.src p) s) = srcFailed p c s := by
  unfold srcFailed
  rw [clearLine_clearLine] <;> rfl

theorem ordFailed_clearLine (q : Fin 12) (c : Cause) (s : State) : ordFailed q c (clearLine (.ord q) s) = ordFailed q c s := by
  unfold ordFailed
  rw [clearLine_clearLine] <;> rfl

/-- The expiry of the acknowledgement timer with an order outstanding (R158, R160). -/
theorem lineFailed_of_outstanding {pos : Pos} {s : State} {o : FieldOrder} {rest : List FieldOrder}
    (orders : s.lines[lineOf pos].orders = o :: rest) (timer : s.lines[lineOf pos].ackT = some 0) : lineFailed pos s =
      if inSurvey pos s then endSurvey pos (.failed .survey) (clearLine pos s)
      else if o.startDark then clearLine pos s else faultAt pos .line (clearLine pos s) := by
  simp only [lineFailed, orders, timer]

theorem lineFailed_otherwise {pos : Pos} {s : State}
    (other : s.lines[lineOf pos].ackT ≠ some 0 ∨ s.lines[lineOf pos].orders = []) : lineFailed pos s = s := by
  unfold lineFailed
  split
  · next timer orders =>
    rcases other with no | no
    · exact absurd timer no
    · exact absurd (orders.symm.trans no) (List.cons_ne_nil _ _)
  · rfl

/-- The failed survey of a source position, by its expiry, its line, or a FAULT report (R160). -/
theorem endSurvey_srcSurvey (p : Fin 4) (s : State) : endSurvey (.src p) (.failed .survey) s =
    finishStartup (repliedTo (.src p) (.reject .survey) (srcFailed p .survey s)) := by
  exact endSurvey_srcFailed (fun _ => rfl) (fun _ => rfl) s

theorem endSurvey_ordSurvey (q : Fin 12) (s : State) : endSurvey (.ord q) (.failed .survey) s =
    finishStartup (repliedTo (.ord q) (.reject .survey) (ordFailed q .survey s)) := by
  exact endSurvey_ordFailed (fun _ => rfl) (fun _ => rfl) s

/-- An answer of the wrong kind (R25, R61). -/
theorem judgeAnswer_srcKind {p : Fin 4} {a : SurveyAnswer} {s : State}
    (wrong : (∃ i g, a = .order i g) ∨ s.src[p].depth = 0 ∧ ∃ f l, a = .source f (some l)) :
    judgeAnswer (.src p) a s = .failed .kind := by
  rcases wrong with ⟨i, g, rfl⟩ | ⟨depth, f, l, rfl⟩
  · rfl
  · exact if_pos ⟨depth, rfl⟩

theorem judgeAnswer_source {p : Fin 4} {f l : Option (Option Nat)} {s : State} (fits : s.src[p].depth ≠ 0 ∨ l = none) :
    judgeAnswer (.src p) (.source f l) s = .source f l := by
  refine if_neg fun ⟨depth, tote⟩ => ?_
  rcases fits with no | no
  · exact no depth
  · rw [no] at tote
    cases tote

theorem endSurvey_srcKind (p : Fin 4) (s : State) : endSurvey (.src p) (.failed .kind) s =
    finishStartup (repliedTo (.src p) (.reject .kind) (srcFailed p .kind s)) := by
  exact endSurvey_srcFailed (fun _ => rfl) (fun _ => rfl) s

theorem endSurvey_ordKind (q : Fin 12) (s : State) : endSurvey (.ord q) (.failed .kind) s =
    finishStartup (repliedTo (.ord q) (.reject .kind) (ordFailed q .kind s)) := by
  exact endSurvey_ordFailed (fun _ => rfl) (fun _ => rfl) s

theorem finished_srcFailed (p : Fin 4) (c : Cause) (b : ReplyBody) (s : State) :
    let t := finishStartup (repliedTo (.src p) b (srcFailed p c s))
    t.src[p].state = .faulted ∧ t.src[p].cause = some c ∧ t.src[p].surveyT = none := by
  have src : (finishStartup (repliedTo (.src p) b (srcFailed p c s))).src[p] = _ :=
    (congrArg (fun v => v[p]) ((finishStartup_frame _).1.trans (repliedTo_frame ..).1)).trans (srcFailed_src p c s)
  dsimp only
  rw [src]
  exact ⟨rfl, rfl, rfl⟩

theorem finished_ordFailed (q : Fin 12) (c : Cause) (b : ReplyBody) (s : State) :
    (finishStartup (repliedTo (.ord q) b (ordFailed q c s))).wall.pos[q] =
      { s.wall.pos[q] with state := .faulted, cause := some c, surveyT := none } :=
  (congrArg (fun w => w.pos[q]) ((finishStartup_frame _).2.1.trans (repliedTo_frame ..).2.1)).trans (ordFailed_ord q c s)

/-- The FAULTED position of a failed survey, of either kind. -/
theorem endSurvey_survey (pos : Pos) (s : State) : let t := endSurvey pos (.failed .survey) s
    (∀ p, pos = .src p → t.src[p].state = .faulted ∧ t.src[p].cause = some .survey ∧ t.src[p].surveyT = none) ∧
    ∀ q, pos = .ord q → t.wall.pos[q].state = .faulted ∧ t.wall.pos[q].cause = some .survey ∧ t.wall.pos[q].surveyT = none := by
  refine ⟨fun p at' => ?_, fun q at' => ?_⟩
  · subst at'
    rw [endSurvey_srcSurvey]
    exact finished_srcFailed ..
  · subst at'
    rw [endSurvey_ordSurvey, finished_ordFailed]
    exact ⟨rfl, rfl, rfl⟩

/-! ## Field orders (R157, R158) -/

/-- The orders that a new order makes obsolete (R157). -/
theorem obsoletes_iff (o w : Order) : obsoletes o w = true ↔ match o with
    | .light .all _ => ∃ d v, w = .light d v
    | .light d _ => ∃ v, w = .light d v
    | .gate g => w = .gate g
    | .survey => ∃ d v, w = .light d v := by
  cases o with
  | light d v => cases d <;> cases w <;> simp [obsoletes, eq_comm]
  | gate g => cases w <;> simp [obsoletes, eq_comm]
  | survey => cases w <;> simp [obsoletes]

/-- The sequence of an order handed over, and the list it finds (R157, R158). -/
theorem hand_onto_list {o : Order} {dark : Bool} {l : FieldLine} {x : FieldOrder} {waiting : List FieldOrder}
    (orders : l.orders = x :: waiting) :
    (FieldLine.hand o dark l).ackT = l.ackT ∧ (FieldLine.hand o dark l).orders =
      x :: (waiting.filter (fun w => !(obsoletes o w.order)) ++ [{ seq := l.nextSeq, order := o, startDark := dark }]) := by
  simp [FieldLine.hand, orders, mergeOrders]

/-- Settles O60. -/
theorem acksAndLineFailures : Obligations.AcksAndLineFailures := by
  unfold Obligations.AcksAndLineFailures
  refine ⟨fun s pos off => ?_, fun pos o s => ⟨fun faulted other => ?_, fun taken => ?_⟩, fun o dark l => ?_,
    fun pos pos' e => lineOf_injective e⟩
  · intro l
    have acks : ∀ n, exec (.ack pos n) s = .next (takeAck pos n s) := fun n => live_of_off off (takeAck pos n)
    have fails : exec (.ackTimerExpiry pos) s = .next (lineFailed pos s) := live_of_off off (lineFailed pos)
    refine ⟨fun n other => ?_, fun o rest orders => ?_, fun other => ?_, fun o rest orders timer => ?_⟩
    · refine (acks n).trans (congrArg _ ?_)
      unfold takeAck
      split
      · rfl
      · next o rest orders => exact if_neg (other o rest orders)
    · refine (acks o.seq).trans (congrArg _ ?_)
      have orders' : s.lines[lineOf pos].orders = o :: rest := orders
      simp only [takeAck, orders', if_true]
      exact rfl
    · exact fails.trans (congrArg _ (lineFailed_otherwise other))
    · intro u
      have failed := lineFailed_of_outstanding (s := s) orders timer
      refine ⟨fun calm quiet => fails.trans (congrArg _ ?_), fun calm light sound => ⟨_, fails, ?_⟩,
        fun surveyed => ⟨_, fails, ?_⟩⟩
      · rw [failed, if_neg (Bool.eq_false_iff.mp calm)]
        by_cases dark : o.startDark = true
        · exact if_pos dark
        · have faulted := quiet.resolve_left dark
          rw [if_neg dark]
          cases pos with
          | src p =>
            have state : (clearLine (.src p) s).src[p].state = .faulted := beq_iff_eq.mp faulted
            show faultSrc p .line (clearLine (.src p) s) = u
            simp only [faultSrc, state]
            exact rfl
          | ord q => exact if_pos (beq_iff_eq.mp faulted)
      · rw [failed, if_neg (Bool.eq_false_iff.mp calm), if_neg (Bool.eq_false_iff.mp light)]
        refine ⟨fun p at' => ?_, fun q at' => ?_⟩
        · subst at'
          have down : SrcDropped p .line (clearLine (.src p) s) (faultAt (.src p) .line (clearLine (.src p) s)) :=
            faultSrc_dropped (s := clearLine (.src p) s) (isFaulted_src_eq_false.mp sound) .line
          rw [down.src]
          exact ⟨rfl, rfl⟩
        · subst at'
          have down : OrdDropped q .line (clearLine (.ord q) s) (faultAt (.ord q) .line (clearLine (.ord q) s)) :=
            faultOrd_dropped (s := clearLine (.ord q) s) (isFaulted_ord_eq_false.mp sound) .line
          exact ⟨OrdPos.state_of_unmarked down.pos, congrArg (fun x : OrdPos => x.cause) down.pos⟩
      · rw [failed, if_pos surveyed]
        obtain ⟨src, ord⟩ := endSurvey_survey pos (clearLine pos s)
        exact ⟨fun p at' => ⟨(src p at').1, (src p at').2.1⟩, fun q at' => ⟨(ord q at').1, (ord q at').2.1⟩⟩
  · exact if_pos (by rw [faulted, bne_iff_ne.mpr other]; rfl)
  · refine if_neg fun h => ?_
    obtain ⟨faulted, other⟩ := Bool.and_eq_true_iff.mp h
    exact taken.elim (fun sound => Bool.false_ne_true (sound.symm.trans faulted)) fun survey => bne_iff_ne.mp other survey
  · intro l' new goes
    have iff : ∀ w, obsoletes o w = true ↔ goes w := obsoletes_iff o
    refine ⟨fun none => ?_, fun x waiting orders => ?_, fun below => Nat.mod_eq_of_lt (by omega), fun last => ?_⟩
    · simp [l', new, FieldLine.hand, none, mergeOrders, Config.ackTenths]
    · obtain ⟨timer, list⟩ := hand_onto_list (o := o) (dark := dark) orders
      have stays : ∀ w : FieldOrder, (!(obsoletes o w.order)) = true ↔ ¬ goes w.order := fun w => by
        rw [Bool.not_eq_true', ← Bool.not_eq_true, iff]
      refine ⟨timer, waiting.filter (fun w => !(obsoletes o w.order)), list, List.filter_sublist, fun w kept => ?_,
        fun w mem stay => List.mem_filter.mpr ⟨mem, (stays w).mpr stay⟩, ?_⟩
      · exact (stays w).mp (List.mem_filter.mp kept).2
      · refine List.filter_congr fun w mem => ?_
        rw [Bool.eq_iff_iff, decide_eq_true_eq, List.mem_filter]
        exact and_iff_right mem
    · show (l.nextSeq + 1) % 256 = 0
      rw [last]

end Sys2Proof.Machine

/-! The end of every survey (O59). -/

namespace Sys2Proof.Machine

/-- The line of a position without its SURVEY order (R160, log entry 15). -/
theorem dropSurvey_eq (l : FieldLine) : FieldLine.dropSurvey l =
    match l.orders with
    | [] => l
    | o :: _ => { l with
        orders := l.orders.filter fun o => o.order != .survey
        ackT := if o.order = .survey then (if (l.orders.filter fun o => o.order != .survey).isEmpty then none else some 5)
          else l.ackT } := by
  obtain ⟨orders, ackT, nextSeq⟩ := l
  cases orders with
  | nil => rfl
  | cons o rest =>
    by_cases survey : o.order = .survey
    · simp [FieldLine.dropSurvey, FieldLine.sendNext, survey, Config.ackTenths]
    · simp [FieldLine.dropSurvey, survey]

/-- What an order position is recovered as (R162), full marks apart. -/
theorem judged_order (x : OrdPos) (i : Option (Option Nat)) (g : Gross) (ta : Nat) {r : Rec} (record : x.record = some r) :
    let was := x.former = some .active
    let y : OrdPos := { x with latest := some g, former := none, cause := none, surveyT := none }
    let clean : Rec := { r with cond := .clean }
    let z := (x.setSurvey none).judged (.order i g) ta
    (i = none → was → z = { y with state := .empty, record := none, idRead := none }) ∧
    (i = none → ¬ was → z = { y with state := .expected, record := some clean }) ∧
    ∀ j, i = some j →
      (j ≠ some r.tote → z = { y with state := .occupied, record := none, idRead := j }) ∧
      (j = some r.tote → was → z = { y with
        state := .active, record := some (if disturbanceOf g (r.baseline.getD 0) ta = none then clean else r) }) ∧
      (j = some r.tote → ¬ was →
        (∀ w, g = .grams w → z = { y with state := .active, record := some { clean with baseline := some w } }) ∧
        (g = .overload → z = { y with state := .arrived, record := some clean })) := by
  intro was y clean z
  have held : (x.setSurvey none).record = some r := record
  have recovered : z = (x.setSurvey none).recovered i g ta := rfl
  clear_value z
  refine ⟨fun none act => ?_, fun none fresh => ?_, fun j some => ⟨fun other => ?_, fun own act => ?_, fun own fresh =>
    ⟨fun w grams => ?_, fun overload => ?_⟩⟩⟩
  · have act : (x.setSurvey Option.none).former = Option.some .active := act
    rw [recovered, none]
    simp only [OrdPos.recovered, held, if_pos act]
    exact rfl
  · have fresh : ¬ (x.setSurvey Option.none).former = Option.some .active := fresh
    rw [recovered, none]
    simp only [OrdPos.recovered, held, if_neg fresh]
    exact rfl
  · rw [recovered, some]
    simp only [OrdPos.recovered, held, if_pos other]
    exact rfl
  · subst own
    rw [recovered, some]
    have act : (x.setSurvey none).former = Option.some .active := act
    simp only [OrdPos.recovered, held, ne_eq, not_true_eq_false, if_false, if_pos act]
    cases disturbance : disturbanceOf g (r.baseline.getD 0) ta with
    | none => exact rfl
    | some d =>
      have kept : y.record = Option.some r := record
      simp only [reduceCtorEq, if_false, ← kept]
      exact rfl
  · subst own grams
    have fresh : ¬ (x.setSurvey none).former = Option.some .active := fresh
    rw [recovered, some]
    simp only [OrdPos.recovered, held, ne_eq, not_true_eq_false, if_false, if_neg fresh]
    exact rfl
  · subst own overload
    have fresh : ¬ (x.setSurvey none).former = Option.some .active := fresh
    rw [recovered, some]
    simp only [OrdPos.recovered, held, ne_eq, not_true_eq_false, if_false, if_neg fresh]
    exact rfl

theorem judged_order_bare {x : OrdPos} (bare : x.record = none) (i : Option (Option Nat)) (g : Gross) (ta : Nat) :
    (x.setSurvey none).judged (.order i g) ta = { x with
      state := (if i.isSome then .occupied else .empty)
      idRead := i.getD x.idRead
      latest := some g, former := none, cause := none, surveyT := none } := by
  have held : (x.setSurvey none).record = none := bare
  show (x.setSurvey none).recovered i g ta = _
  cases i <;> simp only [OrdPos.recovered, held] <;> rfl

theorem judgeAnswer_failed {pos : Pos} {a : SurveyAnswer} {s : State} {c : Cause} (failed : judgeAnswer pos a s = .failed c) :
    c = .kind := by
  unfold judgeAnswer at failed
  split at failed
  · split_ifs at failed
    exact (SurveyEnd.failed.inj failed).symm
  · cases failed
  · exact (SurveyEnd.failed.inj failed).symm
  · exact (SurveyEnd.failed.inj failed).symm

/-- The replies of the surveys that open a position (R41, R161). -/
theorem surveyReply_source (p : Fin 4) (f l : Option (Option Nat)) (s : State) : surveyReply (.src p) (.source f l)
    (reopenDrain (.src p) (applySurvey (.src p) (.source f l) (stopSurvey (.src p) s))) = .ok (.sourceState .opn) := by
  have state : (applySurvey (.src p) (.source f l) (stopSurvey (.src p) s)).src[p].state = .opn := by
    rw [applySurvey_src, if_pos rfl] <;> rfl
  have drained := (reopenDrain_fields (.src p) (applySurvey (.src p) (.source f l) (stopSurvey (.src p) s))).1
  generalize reopenDrain (.src p) (applySurvey (.src p) (.source f l) (stopSurvey (.src p) s)) = w at drained
  have opn : w.src[p].state = .opn := by
    rw [drained]
    exact state
  exact congrArg (fun st => ReplyBody.ok (.sourceState st)) opn

theorem surveyReply_order (q : Fin 12) (i : Option (Option Nat)) (g : Gross) (s : State) : surveyReply (.ord q) (.order i g)
    (reopenDrain (.ord q) (applySurvey (.ord q) (.order i g) (stopSurvey (.ord q) s))) =
      .ok (.orderState ((s.wall.pos[q].setSurvey none).judged (.order i g) s.prof.profile.ta).state) := by
  have at' : (stopSurvey (.ord q) s).wall.pos[q] = s.wall.pos[q].setSurvey none := modOrd_self q (OrdPos.setSurvey none) s
  have set' : (applySurvey (.ord q) (.order i g) (stopSurvey (.ord q) s)).wall.pos[q] =
      (s.wall.pos[q].setSurvey none).judged (.order i g) s.prof.profile.ta := by
    rw [applySurvey_ord, if_pos rfl, at'] <;> rfl
  exact congrArg (fun x : OrdPos => ReplyBody.ok (.orderState x.state)) set'

/-! ## The commands that end a survey -/

section
variable {s : State} (off : s.inputs.reset = false) {pos : Pos} (surveyed : inSurvey pos s = true)
include off surveyed

theorem exec_surveyAnswer {a : SurveyAnswer} (valid : validAnswer a = true) :
    exec (.surveyAnswer pos a) s = .next (endSurvey pos (judgeAnswer pos a s) s) :=
  (live_of_off off (takeAnswer pos a)).trans (congrArg _ (takeAnswer_taken surveyed valid))

theorem exec_faultReport_surveyed (running : s.bench.surveying = false) (c : ModCause) :
    exec (.faultReport pos c) s = .next (endSurvey pos (.failed .survey) s) :=
  (live_of_off off (takeFault pos c)).trans (congrArg _ (takeFault_surveyed surveyed running c))

theorem exec_ackTimerExpiry_surveyed (orders : s.lines[lineOf pos].orders ≠ []) (timer : s.lines[lineOf pos].ackT = some 0) :
    exec (.ackTimerExpiry pos) s = .next (endSurvey pos (.failed .survey) (clearLine pos s)) := by
  obtain ⟨o, rest, orders⟩ := List.exists_cons_of_ne_nil orders
  refine (live_of_off off (lineFailed pos)).trans (congrArg _ ((lineFailed_of_outstanding orders timer).trans ?_))
  exact if_pos surveyed

end

theorem exec_surveyTimerExpiry {s : State} (off : s.inputs.reset = false) {pos : Pos} (timer : surveyTimer pos s = some 0) :
    exec (.surveyTimerExpiry pos) s = .next (endSurvey pos (.failed .survey) s) :=
  (live_of_off off (surveyExpired pos)).trans (congrArg _ (if_pos timer))

theorem drainReopened_srcSurveyed (p : Fin 4) (f l : Option (Option Nat)) (s : State) :
    drainReopened (f.isSome || l.isSome) (srcSurveyed p f l s) = if s.bench.mode = .drained ∧ (f.isSome ∨ l.isSome) then
      notify (.benchMode .draining .drained) { srcSurveyed p f l s with
        bench := { (srcSurveyed p f l s).bench with mode := .draining } }
    else srcSurveyed p f l s := by
  have mode : (srcSurveyed p f l s).bench.mode = s.bench.mode := congrArg Bench.mode (srcSurveyed_bench p f l s)
  simp only [drainReopened, mode, Bool.or_eq_true]

/-- Settles O59. -/
theorem surveysEnd : Obligations.SurveysEnd := by
  unfold Obligations.SurveysEnd
  refine ⟨fun s off => ?_, fun v => ?_, fun s off => ?_⟩
  · refine ⟨fun pos a no => (live_of_off off (takeAnswer pos a)).trans (congrArg _ (if_neg fun h => ?_)),
      fun pos timer => (live_of_off off (surveyExpired pos)).trans (congrArg _ (if_neg timer)), fun p f l surveyed valid fits => ?_,
      fun q i g surveyed valid bare => ⟨_, exec_surveyAnswer off surveyed valid, ?_⟩,
      fun q i g x surveyed valid record => ?_, fun p a surveyed valid wrong => ⟨_, exec_surveyAnswer off surveyed valid, ?_⟩,
      fun q f l surveyed valid => ⟨_, exec_surveyAnswer off surveyed valid, ?_⟩, fun pos x held waits => ?_,
      fun p timer => ⟨_, exec_surveyTimerExpiry off (pos := .src p) timer, (endSurvey_survey (.src p) s).1 p rfl⟩,
      fun q timer => ⟨_, exec_surveyTimerExpiry off (pos := .ord q) timer, ?_⟩⟩
    · obtain ⟨surveyed, valid⟩ := Bool.and_eq_true_iff.mp h
      exact no.elim (fun no => Bool.false_ne_true (no.symm.trans surveyed)) fun no => Bool.false_ne_true (no.symm.trans valid)
    · obtain ⟨state, cause, survey, face, lane, settling⟩ := endSurvey_opened p f l s
      have ended : exec (.surveyAnswer (.src p) (.source f l)) s = .next (endSurvey (.src p) (.source f l) s) := by
        rw [exec_surveyAnswer off surveyed valid, judgeAnswer_source fits]
      refine ⟨_, ended, state, cause, survey, face, lane, settling, fun x held job => ?_⟩
      have waits : x.job.waitsFor (.src p) = true := by
        rw [job]
        exact decide_eq_true rfl
      obtain ⟨free, said⟩ := endSurvey_answers held waits (.source f l)
      rw [surveyReply_source] at said
      exact ⟨free, said⟩
    · have z := (endSurvey_ord q (.order i g) s).2
      rw [judged_order_bare bare] at z
      cases i with
      | none => exact z (by simp)
      | some id => exact z (by simp)
    · intro was y clean
      refine ⟨_, exec_surveyAnswer off surveyed valid, (endSurvey_ord q (.order i g) s).1.trans (congrArg OrdPos.unmarked ?_)⟩
      obtain ⟨gone, expected, found⟩ := judged_order s.wall.pos[q] i g s.prof.profile.ta record
      cases i with
      | none =>
        by_cases act : was
        · exact (gone rfl act).trans (if_pos act).symm
        · exact (expected rfl act).trans (if_neg act).symm
      | some j =>
        obtain ⟨other, own, fresh⟩ := found j rfl
        by_cases tote : j ≠ some x.tote
        · exact (other tote).trans (if_pos tote).symm
        · have same := not_not.mp tote
          refine Eq.trans ?_ (if_neg tote).symm
          by_cases act : was
          · exact (own same act).trans (if_pos act).symm
          · refine Eq.trans ?_ (if_neg act).symm
            cases g with
            | grams w => exact (fresh same act).1 w rfl
            | overload => exact (fresh same act).2 rfl
    · rw [judgeAnswer_srcKind wrong, endSurvey_srcKind]
      exact finished_srcFailed ..
    · have judged : judgeAnswer (.ord q) (.source f l) s = .failed .kind := rfl
      rw [judged, endSurvey_ordKind]
      exact finished_ordFailed ..
    · intro answered
      have said := endSurvey_answers held waits
      refine ⟨fun timer => ⟨_, exec_surveyTimerExpiry off timer, said (.failed .survey)⟩, fun c surveyed running => ⟨_,
        exec_faultReport_surveyed off surveyed running c, said (.failed .survey), endSurvey_survey pos s⟩,
        fun a c surveyed valid failed => ?_, fun q i g at' surveyed valid => ⟨_, exec_surveyAnswer off surveyed valid, ?_⟩⟩
      · have kind := judgeAnswer_failed failed
        subst kind
        exact ⟨rfl, _, (exec_surveyAnswer off surveyed valid).trans (by rw [failed]), said (.failed .kind)⟩
      · subst at'
        have judged : judgeAnswer (.ord q) (.order i g) s = .order i g := rfl
        obtain ⟨free, queued⟩ := said (.order i g)
        rw [judged]
        refine ⟨free, ?_⟩
        rw [surveyReply_order] at queued
        rw [OrdPos.state_of_unmarked (endSurvey_ord q (.order i g) s).1]
        exact queued
    · rw [endSurvey_ordSurvey]
      exact finished_ordFailed ..
  · exact finishStartup_cases v
  · intro unsurveyed emptied replied
    have replies : ∀ pos b v, repliedTo pos b v = replied pos b v := fun pos b v => by
      cases held : v.link.held <;> simp only [repliedTo, replied, held] <;> rfl
    have drops : ∀ l, FieldLine.dropSurvey l = unsurveyed l := dropSurvey_eq
    refine ⟨fun p surveyed => ?_, fun q surveyed => ?_⟩
    · intro x put failed
      have ends : ∀ c b, finishStartup (repliedTo (.src p) b (srcFailed p c s)) = failed c b := fun c b =>
        congrArg finishStartup (replies (.src p) b (srcFailed p c s))
      refine ⟨fun timer => ?_, fun orders timer => ?_, fun c running => ?_, fun a valid wrong => ?_, fun f l valid fits => ?_⟩
      · rw [exec_surveyTimerExpiry (pos := .src p) off timer, endSurvey_srcSurvey, ends]
      · rw [exec_ackTimerExpiry_surveyed off surveyed orders timer, endSurvey_srcSurvey, srcFailed_clearLine, ends]
      · rw [exec_faultReport_surveyed off surveyed running, endSurvey_srcSurvey, ends]
      · rw [exec_surveyAnswer off surveyed valid, judgeAnswer_srcKind wrong, endSurvey_srcKind, ends]
      · have lined : modLine (lineOf (.src p)) FieldLine.dropSurvey s =
            { s with lines := s.lines.set (lineOf (.src p)) (unsurveyed s.lines[lineOf (.src p)]) } := by
          rw [modLine, drops]
        have out : exec (.surveyAnswer (.src p) (.source f l)) s = _ := exec_surveyAnswer off surveyed valid
        rw [judgeAnswer_source fits, endSurvey_source, drainReopened_srcSurveyed, replies] at out
        cases f with
        | none =>
          cases l with
          | none =>
            intro time opened face v0 v1 v2 v3
            have begun : srcSurveyed p none none s = v0 := congrArg (fun u => notify _ (putSrc p opened u)) lined
            rw [begun] at out
            exact out
          | some j =>
            intro time opened face v0 v1 v2 v3
            have begun : srcOpened p s = v0 := congrArg (fun u => notify _ (putSrc p opened u)) lined
            have found : srcSurveyed p none (some j) s = v2 := congrArg (foundAt p .lane j _) begun
            rw [found] at out
            exact out
        | some i =>
          cases l with
          | none =>
            intro time opened face v0 v1 v2 v3
            have begun : srcOpened p s = v0 := congrArg (fun u => notify _ (putSrc p opened u)) lined
            have found : srcSurveyed p (some i) none s = v1 := congrArg (foundAt p .face i _) begun
            rw [found] at out
            exact out
          | some j =>
            intro time opened face v0 v1 v2 v3
            have begun : srcOpened p s = v0 := congrArg (fun u => notify _ (putSrc p opened u)) lined
            have found : srcSurveyed p (some i) (some j) s = v2 :=
              congrArg (fun u => foundAt p .lane j _ (foundAt p .face i _ u)) begun
            rw [found] at out
            exact out
    · intro x put failed
      have ends : ∀ c b, finishStartup (repliedTo (.ord q) b (ordFailed q c s)) = failed c b := fun c b =>
        congrArg finishStartup (replies (.ord q) b (ordFailed q c s))
      refine ⟨fun timer => ?_, fun orders timer => ?_, fun c running => ?_, fun f l valid => ?_, fun i g valid => ?_⟩
      · rw [exec_surveyTimerExpiry (pos := .ord q) off timer, endSurvey_ordSurvey, ends]
      · rw [exec_ackTimerExpiry_surveyed off surveyed orders timer, endSurvey_ordSurvey, ordFailed_clearLine, ends]
      · rw [exec_faultReport_surveyed off surveyed running, endSurvey_ordSurvey, ends]
      · have judged : judgeAnswer (.ord q) (.source f l) s = .failed .kind := rfl
        rw [exec_surveyAnswer off surveyed valid, judged, endSurvey_ordKind, ends]
      · intro y u out ends enters
        have lined : ordStopped q s = u := by
          rw [ordStopped, modLine, drops] <;> rfl
        have answered : out = .next (endSurvey (.ord q) (.order i g) s) := exec_surveyAnswer off surveyed valid
        have ends' : ∀ {v st}, surveyedOrd q i g (stopSurvey (.ord q) s) = v → v.wall.pos[q].state = st →
            ¬ (st = .expected ∨ st = .arrived ∨ st = .active) → ends st v := fun set' state no => by
          rw [endSurvey_ends set' state no, replies] at answered
          exact answered
        have enters' : ∀ {v st}, surveyedOrd q i g (stopSurvey (.ord q) s) = v → v.wall.pos[q].state = st →
            (st = .expected ∨ st = .arrived ∨ st = .active) → enters st v := fun set' state yes => by
          rw [endSurvey_enters set' state yes, replies] at answered
          exact answered
        obtain ⟨bare, held⟩ := surveyedOrd_stopped q g lined
        clear_value ends enters
        refine ⟨fun free => ?_, fun r record => ?_⟩
        · obtain ⟨empty, occupied⟩ := bare free
          cases i with
          | none => exact ends' empty (ordSet_state ..) (by simp)
          | some id => exact ends' (occupied id) (ordSet_state ..) (by simp)
        · intro tell base clean was
          obtain ⟨gone, expected, other, within, beyond, fresh, heavy⟩ := held r record
          refine ⟨fun none act => ?_, fun none act => ?_, fun j found tote => ?_, fun own act calm => ?_, fun own act far => ?_,
            fun w own act grams => ?_, fun own act overload => ?_⟩
          · subst none
            exact ends' (gone act) (notifyOrdSet_state ..) (by simp)
          · subst none
            exact enters' (expected act) (notifyOrdSet_state ..) (by simp)
          · subst found
            exact ends' (other j tote) (notifyOrdSet_state ..) (by simp)
          · subst own
            exact enters' (within act calm) (notifyOrdSet_state ..) (by simp)
          · subst own
            exact enters' (beyond act far) (ordSet_state ..) (by simp)
          · subst own
            exact enters' (fresh w act grams) (notifyOrdSet_state ..) (by simp)
          · subst own
            exact enters' (heavy act overload) (ordSet_state ..) (by simp)

end Sys2Proof.Machine

namespace Sys2Proof.Machine

/-!
The timers that belong to the lit cycle (R124, R133): the operations below a put cycle leave them alone, and those of a
cycle stop them with it.
-/

/-- The timers of the lit cycle are kept from one state to a later one. -/
def TimersKept (s t : State) : Prop := s.cycleTimersOk → t.cycleTimersOk

theorem TimersKept.of_still {s t : State} (h : Still s t) : TimersKept s t := by
  obtain ⟨cycle, graceT, picker⟩ := h
  unfold TimersKept State.cycleTimersOk
  rw [cycle, graceT, picker]
  exact id

theorem timersKeptClosed : Closed TimersKept where
  refl _ := id
  trans h k ok := k (h ok)
  notice b s := .of_still (stillClosed.notice b s)
  lost s := .of_still (stillClosed.lost s)
  full q t s := .of_still (stillClosed.full q t s)
  orphanOff p s := .of_still (stillClosed.orphanOff p s)
  orphanOn p t s h := .of_still (stillClosed.orphanOn p t s h)
  keep t f s h := .of_still (stillClosed.keep t f s h)
  write c f s h := .of_still (stillClosed.write c f s h)
  drop x s := .of_still (stillClosed.drop x s)
  served x s := .of_still (stillClosed.served x s)
  hand pos o s := .of_still (stillClosed.hand pos o s)
  clear pos s := .of_still (stillClosed.clear pos s)
  blank p st c s h k := .of_still (stillClosed.blank p st c s h k)
  sync p d s := .of_still (stillClosed.sync p d s)
  leave p sl t time s h := .of_still (stillClosed.leave p sl t time s h)
  holdRelease p r s h := .of_still (stillClosed.holdRelease p r s h)
  called p sl t time s h := .of_still (stillClosed.called p sl t time s h)
  arb b c t s := .of_still (stillClosed.arb b c t s)
  drained s h k := .of_still (stillClosed.drained s h k)
  record q f s := .of_still (stillClosed.record q f s)
  shut q s := .of_still (stillClosed.shut q s)
  light q b s h := .of_still (stillClosed.light q b s h)
  failed q c s := .of_still (stillClosed.failed q c s)

/-- Without a cycle both timers are stopped. -/
theorem State.cycleTimersOk.stopped {s : State} (ok : s.cycleTimersOk) (dark : s.put.cycle = none) :
    s.picker.idleT = none ∧ s.put.graceT = none := by
  obtain ⟨idle, grace⟩ := ok
  rw [dark] at idle grace
  exact ⟨Option.not_isSome_iff_eq_none.mp fun run => absurd (idle run).1 (by simp),
    Option.not_isSome_iff_eq_none.mp fun run => absurd (grace run) (by simp)⟩

/-- Every timer of a cycle is stopped in a state with both stopped. -/
theorem State.cycleTimersOk_of_stopped {s : State} (idle : s.picker.idleT = none) (grace : s.put.graceT = none) :
    s.cycleTimersOk :=
  ⟨fun run => (by rw [idle] at run; cases run), fun run => (by rw [grace] at run; cases run)⟩

/-- A hand-over stops the grace timer of a cycle whose record says that it runs. -/
theorem endGrace_graceT {c : Cycle} {t : State} (runs : t.put.graceT.isSome = true → c.grace = true) (fault : Bool) :
    (endGrace c fault t).put.graceT = none := by
  have asked : ∀ u h, (askRelease c.offer h u).put.graceT = u.put.graceT := fun u h => (stillClosed.askRelease ..).2.1
  unfold endGrace
  dsimp only
  split
  · split
    · rfl
    · rw [asked]; rfl
  · next off => exact Option.not_isSome_iff_eq_none.mp fun run => off (runs run)

theorem handOver_stopped {c : Cycle} {t : State} (runs : t.put.graceT.isSome = true → c.grace = true) (fault : Bool) :
    (handOver c fault t).picker.idleT = none ∧ (handOver c fault t).put.graceT = none := by
  refine ⟨rfl, ?_⟩
  have grace := endGrace_graceT runs fault
  have judged : ∀ u, (judgeFace c.src u).put.graceT = u.put.graceT := fun u => (stillClosed.judgeFace ..).2.1
  unfold handOver
  dsimp only [stopIdle_put]
  split
  · exact grace
  · rw [judged]; exact grace

theorem timersKept_change {c : Cycle} {s : State} (same : (s.put.cycle.any fun c => c.grace) = true → c.grace = true) :
    TimersKept s (putCycle c s) := fun ok => ⟨fun run => ⟨rfl, (ok.1 run).2⟩, fun run => same (ok.2 run)⟩

theorem timersKept_handOver (c : Cycle) (b : Bool) {s t : State}
    (same : (s.put.cycle.any fun c => c.grace) = true → c.grace = true)
    (deleted : t = deleteCycle s ∨ ∃ x, t = clearServed x (deleteCycle s)) : TimersKept s (handOver c b t) := fun ok => by
  have graceT : t.put.graceT = s.put.graceT := by
    rcases deleted with rfl | ⟨x, rfl⟩
    · rfl
    · exact (clearServed_still x _).2.1
  obtain ⟨idle, grace⟩ := handOver_stopped (t := t) (fun run => same (ok.2 (graceT ▸ run))) b
  exact State.cycleTimersOk_of_stopped idle grace

theorem timersKeptClosedCycle : ClosedCycle TimersKept where
  toClosed := timersKeptClosed
  start c t s dark still ok := by
    obtain ⟨idle, grace⟩ := ok.stopped dark
    exact State.cycleTimersOk_of_stopped idle grace
  change _ _ _ same := timersKept_change same; ended c b _ _ same deleted := timersKept_handOver c b same deleted
  idleOn s ok := by
    unfold startIdle
    split
    · next lit => exact ⟨fun _ => lit, ok.2⟩
    · exact ok
  idleOff s ok := ⟨fun run => (by cases run), ok.2⟩
  cond c s free ok := ⟨fun run => ⟨(ok.1 run).1, free.elim (fun stopped => absurd run (by simp [stopped])) id⟩, ok.2⟩
  grace c t s lit ok := ⟨fun run => ⟨rfl, (ok.1 run).2⟩, fun _ => rfl⟩

theorem timersKeptClosedStep : ClosedStep TimersKept where
  toClosedCycle := timersKeptClosedCycle
  same s t _ _ _ _ put picker _ _ _ := .of_still ⟨by rw [put], by rw [put], picker⟩
  startup k s _ := by
    obtain ⟨-, -, -, -, put, -, -, picker, -⟩ := startUp_made k s
    exact State.cycleTimersOk_of_stopped (by rw [picker]) (by rw [put])
  ticked s ok := by
    obtain ⟨-, -, -, -, -, put, picker, -⟩ := tick_frame s
    obtain ⟨idle, grace⟩ := ok
    unfold State.cycleTimersOk
    rw [put, picker]
    exact ⟨fun run => idle (by simpa [timerTick] using run), fun run => grace (by simpa [timerTick] using run)⟩
  presented _ _ _ _ := .of_still ⟨rfl, rfl, rfl⟩
  staged _ _ _ _ := .of_still ⟨rfl, rfl, rfl⟩
  followed _ _ _ := .of_still ⟨rfl, rfl, rfl⟩
  settling _ _ _ _ := .of_still ⟨rfl, rfl, rfl⟩
  laneGone _ _ _ := .of_still ⟨rfl, rfl, rfl⟩
  lapsed _ _ _ _ := .of_still ⟨rfl, rfl, rfl⟩
  faceFree _ _ _ _ := .of_still ⟨rfl, rfl, rfl⟩
  advanced _ _ _ _ _ := .of_still ⟨rfl, rfl, rfl⟩
  transferred _ _ _ _ := .of_still ⟨rfl, rfl, rfl⟩
  stopGuard _ _ := .of_still ⟨rfl, rfl, rfl⟩
  closing _ _ _ := .of_still ⟨rfl, rfl, rfl⟩
  reopening _ _ _ := .of_still ⟨rfl, rfl, rfl⟩
  diverted _ _ _ := .of_still ⟨rfl, rfl, rfl⟩
  surveySrc _ _ _ _ := .of_still ⟨rfl, rfl, rfl⟩
  surveyOrd _ _ _ _ := .of_still ⟨rfl, rfl, rfl⟩
  surveyed pos e s _ _ := by
    obtain ⟨-, -, -, -, -, -, put, picker⟩ := reopenDrain_fields pos (applySurvey pos e (stopSurvey pos s))
    have apart := (stopSurvey_apart pos s).trans (applySurvey_apart pos e _)
    exact .of_still ⟨by rw [put, apart.put], by rw [put, apart.put], picker.trans apart.picker⟩
  sent _ _ _ _ _ := .of_still ⟨rfl, rfl, rfl⟩
  emptied _ _ _ := .of_still ⟨rfl, rfl, rfl⟩
  arrived _ _ _ := .of_still ⟨rfl, rfl, rfl⟩
  active _ _ _ := .of_still ⟨rfl, rfl, rfl⟩
  departed _ _ _ _ := .of_still ⟨rfl, rfl, rfl⟩
  weighed _ _ _ := .of_still ⟨rfl, rfl, rfl⟩
  leaveOrd _ _ _ _ := .of_still ⟨rfl, rfl, rfl⟩
  registered _ _ _ _ _ _ := .of_still ⟨rfl, rfl, rfl⟩
  mode _ _ _ := .of_still ⟨rfl, rfl, rfl⟩
  warnings _ := .of_still ⟨rfl, rfl, rfl⟩
  setting _ _ _ _ _ _ _ := .of_still ⟨rfl, rfl, rfl⟩
  ladder _ := .of_still ⟨rfl, rfl, rfl⟩
  storing _ := .of_still ⟨rfl, rfl, rfl⟩
  shift _ := .of_still ⟨rfl, rfl, rfl⟩
  completed _ _ _ := .of_still ⟨rfl, rfl, rfl⟩

/-- Every step keeps the timers of the lit cycle in its keeping. -/
theorem step_keeps_cycleTimersOk {s t : State} (h : step s = .next t) (ok : s.cycleTimersOk) : t.cycleTimersOk :=
  timersKeptClosedStep.step (fun _ _ _ _ => .of_still ⟨rfl, rfl, rfl⟩) h ok

end Sys2Proof.Machine

namespace Sys2Proof.Machine

/-!
Offers and slots in step (R4, R22): what a slot says of the offer it names, and the moves that keep the two in step.
-/

/-! ## What a slot says of its offer -/

/-- The offer state that goes with a face state (R4). -/
def FaceState.stage : FaceState → Option OfferState
  | .empty => none
  | .called => some .called
  | .advancing => some .staged
  | .present => some .present
  | .leaving => some .leaving
  | .settling => none

/-- The offer state that goes with a lane state (R4). -/
def LaneState.stage : LaneState → Option OfferState
  | .empty => none
  | .called => some .called
  | .staged => some .staged
  | .leaving => some .leaving

/-- The offer state that goes with a slot of a source position. -/
def SrcPos.stage (x : SrcPos) : Slot → Option OfferState
  | .face => x.face.state.stage
  | .lane => x.lane.state.stage

/-- The release reason and the presentation time of an offer go with its state (R4). -/
structure Offer.Timed (o : Offer) : Prop where
  reason : o.reason.isSome = true ↔ o.state = .leaving
  present : o.state = .present → o.presented.isSome = true
  presented : o.presented.isSome = true → o.state = .present ∨ o.state = .leaving

/-- An offer stands WAITING without a place, or at a slot that names it in its state. -/
def Offer.standsIn (o : Offer) (s : State) : Prop :=
  (o.state = .waiting ∧ o.place = none) ∨
    ∃ p sl, o.place = some (p, sl) ∧ s.src[p].stage sl = some o.state ∧ s.src[p].named sl = some o.tote

theorem Offer.inStep_iff (o : Offer) (s : State) : o.inStep s = true ↔ o.Timed ∧ o.standsIn s := by
  have timed : ((o.reason.isSome == (o.state == .leaving)) && (o.state != .present || o.presented.isSome) &&
      (o.state == .present || o.state == .leaving || o.presented.isNone)) = true ↔ o.Timed := by
    constructor
    · intro h
      simp only [Bool.and_eq_true, beq_iff_eq, Bool.or_eq_true, bne_iff_ne] at h
      obtain ⟨⟨reason, present⟩, presented⟩ := h
      refine ⟨by rw [reason]; simp, fun e => present.resolve_left (not_not.mpr e), fun e => ?_⟩
      exact presented.resolve_right (by simpa using Option.isSome_iff_ne_none.mp e)
    · rintro ⟨reason, present, presented⟩
      simp only [Bool.and_eq_true, beq_iff_eq, Bool.or_eq_true, bne_iff_ne]
      refine ⟨⟨Bool.eq_iff_iff.mpr (by simpa using reason), ?_⟩, ?_⟩
      · by_cases e : o.state = .present
        · exact .inr (present e)
        · exact .inl e
      · cases e : o.presented with
        | none => exact .inr rfl
        | some n => exact .inl (presented (by rw [e]; rfl))
  unfold Offer.inStep
  rw [Bool.and_eq_true, timed]
  refine and_congr_right fun _ => ?_
  unfold Offer.standsIn
  cases place : o.place with
  | none => cases state : o.state <;> simp
  | some at' =>
    obtain ⟨p, sl⟩ := at'
    cases sl with
    | face =>
      cases state : o.state <;> cases face : s.src[p].face.state <;>
        simp [SrcPos.stage, SrcPos.named, FaceState.stage, face, -Fin.getElem_fin]
    | lane =>
      cases state : o.state <;> cases lane : s.src[p].lane.state <;>
        simp [SrcPos.stage, SrcPos.named, LaneState.stage, lane, -Fin.getElem_fin]

/-- `State.placesOk` without the clause that distinct tote ids give of themselves. -/
structure PlacesOk (s : State) : Prop where
  timed : ∀ o ∈ s.offers, o.Timed
  stands : ∀ o ∈ s.offers, o.standsIn s
  named : ∀ (p : Fin 4) (sl : Slot) (t : Nat), s.src[p].named sl = some t →
    ∃ o ∈ s.offers, o.tote = t ∧ o.place = some (p, sl)

theorem PlacesOk.unique {s : State} (h : PlacesOk s) (ok : s.offersOk) {p p' : Fin 4} {sl sl' : Slot} {t : Nat}
    (here : s.src[p].named sl = some t) (there : s.src[p'].named sl' = some t) : p = p' ∧ sl = sl' := by
  obtain ⟨o, ho, rfl, place⟩ := h.named p sl t here
  obtain ⟨o', ho', same, place'⟩ := h.named p' sl' _ there
  rw [ok.eq_of_tote ho' ho same, place] at place'
  exact Prod.mk.inj (Option.some.inj place')

theorem State.placesOk_iff {s : State} (ok : s.offersOk) : s.placesOk ↔ PlacesOk s := by
  constructor
  · rintro ⟨steps, named, -⟩
    exact ⟨fun o ho => ((o.inStep_iff s).mp (steps o ho)).1, fun o ho => ((o.inStep_iff s).mp (steps o ho)).2, named⟩
  · intro h
    exact ⟨fun o ho => (o.inStep_iff s).mpr ⟨h.timed o ho, h.stands o ho⟩, h.named, fun _ _ _ _ _ => h.unique ok⟩

/-- A WAITING offer is named by no slot. -/
theorem PlacesOk.unnamed {s : State} (h : PlacesOk s) (ok : s.offersOk) {o : Offer} (ho : o ∈ s.offers)
    (waiting : o.state = .waiting) (p : Fin 4) (sl : Slot) : s.src[p].named sl ≠ some o.tote := fun here => by
  obtain ⟨o', ho', same, place⟩ := h.named p sl _ here
  rw [ok.eq_of_tote ho' ho same] at place
  rcases h.stands o ho with ⟨-, none⟩ | ⟨p', sl', -, stage, -⟩
  · rw [none] at place; cases place
  · rw [waiting] at stage
    cases sl' with
    | face => cases e : s.src[p'].face.state <;> simp [SrcPos.stage, FaceState.stage, e, -Fin.getElem_fin] at stage
    | lane => cases e : s.src[p'].lane.state <;> simp [SrcPos.stage, LaneState.stage, e, -Fin.getElem_fin] at stage

/-- The offer a slot names stands there, in the state that goes with the slot. -/
theorem PlacesOk.at_slot {s : State} (h : PlacesOk s) (ok : s.offersOk) {p : Fin 4} {sl : Slot} {o : Offer}
    (ho : o ∈ s.offers) (here : s.src[p].named sl = some o.tote) :
    o.place = some (p, sl) ∧ s.src[p].stage sl = some o.state := by
  obtain ⟨o', ho', same, place⟩ := h.named p sl _ here
  rw [ok.eq_of_tote ho' ho same] at place
  refine ⟨place, ?_⟩
  rcases h.stands o ho with ⟨-, none⟩ | ⟨p', sl', place', stage, -⟩
  · rw [none] at place; cases place
  · rw [place] at place'
    obtain ⟨rfl, rfl⟩ := Prod.mk.inj (Option.some.inj place')
    exact stage

/-! ## States with the same slots and the same places -/

/-- What the places of the offers hang on, in an offer. -/
def Offer.placing (o : Offer) : Nat × OfferState × Option (Fin 4 × Slot) × Option Nat × Option Reason :=
  (o.tote, o.state, o.place, o.presented, o.reason)

theorem PlacesOk.congr {s t : State} (h : PlacesOk s)
    (src : ∀ (p : Fin 4) (sl : Slot), t.src[p].stage sl = s.src[p].stage sl ∧ t.src[p].named sl = s.src[p].named sl)
    (from' : ∀ o ∈ t.offers, ∃ o' ∈ s.offers, o.placing = o'.placing)
    (to' : ∀ o ∈ s.offers, ∃ o' ∈ t.offers, o'.placing = o.placing) : PlacesOk t := by
  have fields : ∀ {o o' : Offer}, o.placing = o'.placing → o.tote = o'.tote ∧ o.state = o'.state ∧ o.place = o'.place ∧
      o.presented = o'.presented ∧ o.reason = o'.reason := fun e => by
    simpa only [Offer.placing, Prod.mk.injEq] using e
  refine ⟨fun o ho => ?_, fun o ho => ?_, fun p sl t here => ?_⟩
  · obtain ⟨o', ho', e⟩ := from' o ho
    obtain ⟨-, state, -, presented, reason⟩ := fields e
    obtain ⟨a, b, c⟩ := h.timed o' ho'
    exact ⟨by rw [reason, state]; exact a, by rw [state, presented]; exact b, by rw [state, presented]; exact c⟩
  · obtain ⟨o', ho', e⟩ := from' o ho
    obtain ⟨tote, state, place, -⟩ := fields e
    rcases h.stands o' ho' with ⟨waiting, none⟩ | ⟨p, sl, at', stage, named⟩
    · exact .inl ⟨state.trans waiting, place.trans none⟩
    · exact .inr ⟨p, sl, place.trans at', by rw [(src p sl).1, stage, state], by rw [(src p sl).2, named, tote]⟩
  · rw [(src p sl).2] at here
    obtain ⟨o, ho, tote, place⟩ := h.named p sl t here
    obtain ⟨o', ho', e⟩ := to' o ho
    obtain ⟨tote', -, place', -⟩ := fields e
    exact ⟨o', ho', tote'.trans tote, place'.trans place⟩

/-- Slots and offers as they were. -/
theorem PlacesOk.of_eq {s t : State} (h : PlacesOk s) (src : t.src = s.src) (offers : t.offers = s.offers) : PlacesOk t :=
  h.congr (fun p sl => by rw [src]; exact ⟨rfl, rfl⟩) (fun o ho => ⟨o, offers ▸ ho, rfl⟩)
    fun o ho => ⟨o, by rw [offers]; exact ho, rfl⟩

/-- A source position changed apart from its slots' states and names. -/
theorem PlacesOk.src {s : State} (h : PlacesOk s) {p : Fin 4} {f : SrcPos → SrcPos}
    (same : ∀ sl, (f s.src[p]).stage sl = s.src[p].stage sl ∧ (f s.src[p]).named sl = s.src[p].named sl) :
    PlacesOk (modSrc p f s) := by
  refine h.congr (fun p' sl => ?_) (fun o ho => ⟨o, ho, rfl⟩) fun o ho => ⟨o, ho, rfl⟩
  rw [modSrc_getElem]
  split
  · next e => subst e; exact same sl
  · exact ⟨rfl, rfl⟩

/-- Offers changed apart from their places. -/
theorem PlacesOk.map {s t : State} (h : PlacesOk s) (src : t.src = s.src) {f : Offer → Offer}
    (offers : t.offers = s.offers.map f) (same : ∀ o, (f o).placing = o.placing) : PlacesOk t := by
  refine h.congr (fun p sl => by rw [src]; exact ⟨rfl, rfl⟩) (fun o ho => ?_) fun o ho => ?_
  · rw [offers] at ho
    obtain ⟨o', ho', rfl⟩ := List.mem_map.mp ho
    exact ⟨o', ho', same o'⟩
  · exact ⟨f o, by rw [offers]; exact List.mem_map_of_mem ho, same o⟩

/-! ## Moves -/

/-- A move changes slots of one position (`moved`) and the offers that `concerned` picks out by tote id. Outside the moved
slots no name is concerned; the moved slots named concerned offers alone before. -/
theorem PlacesOk.move {s t : State} (h : PlacesOk s) {p : Fin 4} {y : SrcPos} (src : t.src = s.src.set p y)
    {moved : Slot → Prop} {concerned : Nat → Prop}
    (apart : ∀ sl, ¬ moved sl → y.stage sl = s.src[p].stage sl ∧ y.named sl = s.src[p].named sl)
    (before : ∀ sl n, moved sl → s.src[p].named sl = some n → concerned n)
    (alone : ∀ p' sl n, (p' = p → ¬ moved sl) → s.src[p'].named sl = some n → ¬ concerned n)
    (others : ∀ o : Offer, ¬ concerned o.tote → (o ∈ t.offers ↔ o ∈ s.offers))
    (mine : ∀ o ∈ t.offers, concerned o.tote → o.Timed ∧ o.standsIn t)
    (after : ∀ sl n, moved sl → y.named sl = some n → ∃ o ∈ t.offers, o.tote = n ∧ o.place = some (p, sl)) : PlacesOk t := by
  have here : t.src[p] = y := by rw [src]; exact Vector.getElem_set_self _
  have there : ∀ p' : Fin 4, p' ≠ p → t.src[p'] = s.src[p'] := fun p' ne => by
    rw [src]; exact Vector.getElem_set_ne _ _ fun e => ne (Fin.ext e).symm
  have slot : ∀ (p' : Fin 4) (sl : Slot), (p' = p → ¬ moved sl) →
      t.src[p'].stage sl = s.src[p'].stage sl ∧ t.src[p'].named sl = s.src[p'].named sl := fun p' sl away => by
    by_cases e : p' = p
    · subst e; rw [here]; exact apart sl (away rfl)
    · rw [there p' e]; exact ⟨rfl, rfl⟩
  refine ⟨fun o ho => ?_, fun o ho => ?_, fun p' sl n named => ?_⟩
  · by_cases c : concerned o.tote
    · exact (mine o ho c).1
    · exact h.timed o ((others o c).mp ho)
  · by_cases c : concerned o.tote
    · exact (mine o ho c).2
    · rcases h.stands o ((others o c).mp ho) with waiting | ⟨p', sl, place, stage, named⟩
      · exact .inl waiting
      · have away : p' = p → ¬ moved sl := fun e m => c (before sl _ m (e ▸ named))
        obtain ⟨stage', named'⟩ := slot p' sl away
        exact .inr ⟨p', sl, place, stage'.trans stage, named'.trans named⟩
  · by_cases m : p' = p ∧ moved sl
    · obtain ⟨rfl, m⟩ := m
      rw [here] at named
      exact after sl n m named
    · have away : p' = p → ¬ moved sl := fun e k => m ⟨e, k⟩
      rw [(slot p' sl away).2] at named
      obtain ⟨o, ho, tote, place⟩ := h.named p' sl n named
      exact ⟨o, (others o (tote ▸ alone p' sl n away named)).mpr ho, tote, place⟩

/-- A move whose offers are those the moved slots named. -/
theorem PlacesOk.moveNamed {s t : State} (h : PlacesOk s) (ok : s.offersOk) {p : Fin 4} {y : SrcPos}
    (src : t.src = s.src.set p y) {moved : Slot → Prop}
    (apart : ∀ sl, ¬ moved sl → y.stage sl = s.src[p].stage sl ∧ y.named sl = s.src[p].named sl)
    (others : ∀ o : Offer, (∀ sl, moved sl → s.src[p].named sl ≠ some o.tote) → (o ∈ t.offers ↔ o ∈ s.offers))
    (mine : ∀ o ∈ t.offers, ∀ sl, moved sl → s.src[p].named sl = some o.tote → o.Timed ∧ o.standsIn t)
    (after : ∀ sl n, moved sl → y.named sl = some n → ∃ o ∈ t.offers, o.tote = n ∧ o.place = some (p, sl)) : PlacesOk t := by
  refine h.move src (moved := moved) (concerned := fun n => ∃ sl, moved sl ∧ s.src[p].named sl = some n) apart
    (fun sl n m named => ⟨sl, m, named⟩) ?_ (fun o free => others o fun sl m named => free ⟨sl, m, named⟩)
    (fun o ho ⟨sl, m, named⟩ => mine o ho sl m named) after
  rintro p' sl n away named ⟨sl', m, named'⟩
  obtain ⟨rfl, rfl⟩ := h.unique ok named named'
  exact away rfl m

/-- Slots that named no offer and name none now. -/
theorem PlacesOk.bare {s t : State} (h : PlacesOk s) (ok : s.offersOk) {p : Fin 4} {y : SrcPos}
    (src : t.src = s.src.set p y) (offers : t.offers = s.offers) {moved : Slot → Prop}
    (apart : ∀ sl, ¬ moved sl → y.stage sl = s.src[p].stage sl ∧ y.named sl = s.src[p].named sl)
    (was : ∀ sl, moved sl → s.src[p].named sl = none) (now : ∀ sl, moved sl → y.named sl = none) : PlacesOk t :=
  h.moveNamed ok src apart (fun o _ => by rw [offers])
    (fun o _ sl m named => by rw [was sl m] at named; cases named)
    fun sl n m named => by rw [now sl m] at named; cases named

/-- The other slot of a source position. -/
def otherSlot : Slot → Slot
  | .face => .lane
  | .lane => .face

theorem eq_otherSlot {a b : Slot} (h : a ≠ b) : a = otherSlot b := by
  cases a <;> cases b <;> simp [otherSlot] at h ⊢

/-- A slot goes on with the offer it names, the offer with it. -/
theorem PlacesOk.relabel {s t : State} (h : PlacesOk s) (ok : s.offersOk) {p : Fin 4} {sl : Slot} {n : Nat} {y : SrcPos}
    {f : Offer → Offer} (named : s.src[p].named sl = some n) (src : t.src = s.src.set p y)
    (offers : t.offers = s.offers.map fun o => if o.tote = n then f o else o) (keeps : y.named sl = some n)
    (apart : y.stage (otherSlot sl) = s.src[p].stage (otherSlot sl) ∧ y.named (otherSlot sl) = s.src[p].named (otherSlot sl))
    (moves : ∀ o ∈ s.offers, o.tote = n → o.place = some (p, sl) → s.src[p].stage sl = some o.state → o.Timed →
      (f o).tote = n ∧ (f o).place = some (p, sl) ∧ y.stage sl = some (f o).state ∧ (f o).Timed) : PlacesOk t := by
  have here : t.src[p] = y := by rw [src]; exact Vector.getElem_set_self _
  have moved : ∀ o ∈ s.offers, o.tote = n →
      (f o).tote = n ∧ (f o).place = some (p, sl) ∧ y.stage sl = some (f o).state ∧ (f o).Timed := fun o ho e => by
    obtain ⟨place, stage⟩ := h.at_slot ok ho (named.trans (congrArg some e.symm))
    exact moves o ho e place stage (h.timed o ho)
  refine h.moveNamed ok src (moved := fun sl' => sl' = sl) (fun sl' ne => eq_otherSlot ne ▸ apart) (fun o free => ?_)
    (fun o ho sl' e same => ?_) fun sl' k e same => ?_
  · have ne : o.tote ≠ n := fun e => free sl rfl (named.trans (congrArg some e.symm))
    rw [offers, List.mem_map]
    constructor
    · rintro ⟨o', ho', rfl⟩
      by_cases e : o'.tote = n
      · rw [if_pos e] at ne ⊢; exact absurd (moved o' ho' e).1 ne
      · rwa [if_neg e]
    · exact fun ho => ⟨o, ho, if_neg ne⟩
  · subst e
    have tote : o.tote = n := Option.some.inj (same.symm.trans named)
    rw [offers] at ho
    obtain ⟨o', ho', rfl⟩ := List.mem_map.mp ho
    by_cases e : o'.tote = n
    · rw [if_pos e]
      obtain ⟨tote, place, stage, timed⟩ := moved o' ho' e
      exact ⟨timed, .inr ⟨p, sl', place, by rw [here, stage], by rw [here, keeps, tote]⟩⟩
    · rw [if_neg e] at tote; exact absurd tote e
  · subst e
    have is : k = n := Option.some.inj (same.symm.trans keeps)
    subst is
    obtain ⟨o, ho, e, -⟩ := h.named p sl' k named
    obtain ⟨tote, place, -⟩ := moved o ho e
    exact ⟨f o, by rw [offers]; exact List.mem_map.mpr ⟨o, ho, if_pos e⟩, tote, place⟩

/-- Slots are vacated, and the offers they named go or stand WAITING. -/
theorem PlacesOk.vacate {s t : State} (h : PlacesOk s) (ok : s.offersOk) {p : Fin 4} {y : SrcPos}
    (src : t.src = s.src.set p y) {moved : Slot → Prop}
    (apart : ∀ sl, ¬ moved sl → y.stage sl = s.src[p].stage sl ∧ y.named sl = s.src[p].named sl)
    (vacated : ∀ sl, moved sl → y.named sl = none)
    (others : ∀ o : Offer, (∀ sl, moved sl → s.src[p].named sl ≠ some o.tote) → (o ∈ t.offers ↔ o ∈ s.offers))
    (mine : ∀ o ∈ t.offers, ∀ sl, moved sl → s.src[p].named sl = some o.tote →
      o.state = .waiting ∧ o.place = none ∧ o.presented = none ∧ o.reason = none) : PlacesOk t :=
  h.moveNamed ok src apart others
    (fun o ho sl m named => by
      obtain ⟨waiting, place, presented, reason⟩ := mine o ho sl m named
      exact ⟨⟨by rw [reason, waiting]; simp, fun e => (by rw [waiting] at e; cases e),
        fun e => (by rw [presented] at e; cases e)⟩, .inl ⟨waiting, place⟩⟩)
    fun sl n m named => by rw [vacated sl m] at named; cases named

/-- The offer the lane names goes to a face that named none. -/
theorem PlacesOk.forward {s t : State} (h : PlacesOk s) (ok : s.offersOk) {p : Fin 4} {n : Nat} {y : SrcPos}
    (face : s.src[p].named .face = none) (lane : s.src[p].named .lane = some n) (src : t.src = s.src.set p y)
    (offers : t.offers = s.offers.map fun o => if o.tote = n then { o with place := some (p, .face) } else o)
    (now : y.named .face = some n) (left : y.named .lane = none) (stage : y.stage .face = s.src[p].stage .lane) :
    PlacesOk t := by
  have here : t.src[p] = y := by rw [src]; exact Vector.getElem_set_self _
  have unnamed : ∀ o : Offer, (∀ sl, s.src[p].named sl ≠ some o.tote) → o.tote ≠ n := fun o free e =>
    free .lane (lane.trans (congrArg some e.symm))
  refine h.moveNamed ok src (moved := fun _ => True) (fun sl ne => absurd trivial ne) (fun o free => ?_)
    (fun o ho sl _ same => ?_) fun sl k _ same => ?_
  · have ne := unnamed o fun sl => free sl trivial
    rw [offers, List.mem_map]
    constructor
    · rintro ⟨o', ho', rfl⟩
      by_cases e : o'.tote = n
      · rw [if_pos e] at ne; exact absurd e ne
      · rwa [if_neg e]
    · exact fun ho => ⟨o, ho, if_neg ne⟩
  · have tote : o.tote = n := by
      cases sl with
      | face => rw [face] at same; cases same
      | lane => exact Option.some.inj (same.symm.trans lane)
    rw [offers] at ho
    obtain ⟨o', ho', rfl⟩ := List.mem_map.mp ho
    by_cases e : o'.tote = n
    · rw [if_pos e]
      obtain ⟨-, was⟩ := h.at_slot ok ho' (lane.trans (congrArg some e.symm))
      obtain ⟨a, b, c⟩ := h.timed o' ho'
      exact ⟨⟨a, b, c⟩, .inr ⟨p, .face, rfl, by rw [here, stage, was], by rw [here, now]; exact congrArg some e.symm⟩⟩
    · rw [if_neg e] at tote; exact absurd tote e
  · cases sl with
    | lane => rw [left] at same; cases same
    | face =>
      obtain ⟨o, ho, e, -⟩ := h.named p .lane n lane
      exact ⟨{ o with place := some (p, .face) }, by rw [offers]; exact List.mem_map.mpr ⟨o, ho, if_pos e⟩,
        e.trans (Option.some.inj (now.symm.trans same)), rfl⟩

/-- A WAITING offer is called to a slot that named none. -/
theorem PlacesOk.called {s t : State} (h : PlacesOk s) (ok : s.offersOk) {p : Fin 4} {sl : Slot} {o : Offer} {y : SrcPos}
    {f : Offer → Offer} (ho : o ∈ s.offers) (waiting : o.state = .waiting) (free : s.src[p].named sl = none)
    (src : t.src = s.src.set p y) (offers : t.offers = s.offers.map fun x => if x.tote = o.tote then f x else x)
    (apart : y.stage (otherSlot sl) = s.src[p].stage (otherSlot sl) ∧ y.named (otherSlot sl) = s.src[p].named (otherSlot sl))
    (now : y.named sl = some o.tote) (stage : y.stage sl = some (f o).state) (tote : (f o).tote = o.tote)
    (place : (f o).place = some (p, sl)) (timed : o.Timed → (f o).Timed) : PlacesOk t := by
  have here : t.src[p] = y := by rw [src]; exact Vector.getElem_set_self _
  have only : ∀ x ∈ s.offers, x.tote = o.tote → x = o := fun x hx e => ok.eq_of_tote hx ho e
  have listed : f o ∈ t.offers := by rw [offers]; exact List.mem_map.mpr ⟨o, ho, if_pos rfl⟩
  refine h.move src (moved := fun sl' => sl' = sl) (concerned := fun n => n = o.tote)
    (fun sl' ne => eq_otherSlot ne ▸ apart) (fun sl' n e named => by rw [e, free] at named; cases named)
    (fun p' sl' n _ named e => h.unnamed ok ho waiting p' sl' (e ▸ named)) (fun x ne => ?_) (fun x hx e => ?_)
    fun sl' n e named => ?_
  · rw [offers, List.mem_map]
    constructor
    · rintro ⟨x', hx', rfl⟩
      by_cases e : x'.tote = o.tote
      · rw [if_pos e, only x' hx' e] at ne; exact absurd tote ne
      · rwa [if_neg e]
    · exact fun hx => ⟨x, hx, if_neg ne⟩
  · rw [offers] at hx
    obtain ⟨x', hx', rfl⟩ := List.mem_map.mp hx
    by_cases e' : x'.tote = o.tote
    · rw [if_pos e', only x' hx' e']
      exact ⟨timed (h.timed o ho), .inr ⟨p, sl, place, by rw [here, stage], by rw [here, now, tote]⟩⟩
    · rw [if_neg e'] at e; exact absurd e e'
  · subst e
    exact ⟨f o, listed, tote.trans (Option.some.inj (now.symm.trans named)), place⟩

/-- An offer that no slot names is taken off the list. -/
theorem PlacesOk.erase {s t : State} (h : PlacesOk s) {n : Nat} (free : ∀ (p : Fin 4) (sl : Slot), s.src[p].named sl ≠ some n)
    (src : t.src = s.src) (offers : t.offers = s.offers.filter fun o => o.tote != n) : PlacesOk t := by
  have sub : ∀ o ∈ t.offers, o ∈ s.offers := fun o ho => List.mem_of_mem_filter (offers ▸ ho)
  refine ⟨fun o ho => h.timed o (sub o ho), fun o ho => ?_, fun p sl k named => ?_⟩
  · rcases h.stands o (sub o ho) with waiting | ⟨p, sl, place, stage, named⟩
    · exact .inl waiting
    · exact .inr ⟨p, sl, place, by rw [src, stage], by rw [src, named]⟩
  · rw [src] at named
    obtain ⟨o, ho, rfl, place⟩ := h.named p sl k named
    refine ⟨o, ?_, rfl, place⟩
    rw [offers, List.mem_filter]
    exact ⟨ho, bne_iff_ne.mpr fun e => free p sl (named.trans (congrArg some e))⟩

/-- A new WAITING offer joins the list. -/
theorem PlacesOk.append {s t : State} (h : PlacesOk s) {o : Offer} (src : t.src = s.src) (offers : t.offers = s.offers ++ [o])
    (timed : o.Timed) (waiting : o.state = .waiting) (place : o.place = none) : PlacesOk t := by
  refine ⟨fun x hx => ?_, fun x hx => ?_, fun p sl k named => ?_⟩
  · rw [offers] at hx
    rcases List.mem_append.mp hx with old | new
    · exact h.timed x old
    · rw [List.mem_singleton.mp new]; exact timed
  · rw [offers] at hx
    rcases List.mem_append.mp hx with old | new
    · rcases h.stands x old with waiting | ⟨p, sl, place, stage, named⟩
      · exact .inl waiting
      · exact .inr ⟨p, sl, place, by rw [src, stage], by rw [src, named]⟩
    · rw [List.mem_singleton.mp new]; exact .inl ⟨waiting, place⟩
  · rw [src] at named
    obtain ⟨x, hx, tote, place⟩ := h.named p sl k named
    exact ⟨x, by rw [offers]; exact List.mem_append_left _ hx, tote, place⟩

end Sys2Proof.Machine

namespace Sys2Proof.Machine

/-!
The records on the wall (R62, R78, section 4.2): what one order position keeps of its record, and the registration that adds
one.
-/

/-! ## One position and its record -/

/-- A record within its caps, with a baseline where its position is ACTIVE or was before its fault. -/
def OrdPos.RecordOk (x : OrdPos) : Prop := ∀ r, x.record = some r →
  r.chargesOk = true ∧ (x.state = .active ∨ x.former = some .active → r.baseline.isSome = true)

/-- A later position holds the record of an earlier one, within its caps, or none. -/
def OrdPos.Heir (x y : OrdPos) : Prop := ∀ r', y.record = some r' →
  ∃ r, x.record = some r ∧ r'.tote = r.tote ∧ r'.ref = r.ref ∧ r'.chargesOk = true ∧
    (y.state = .active ∨ y.former = some .active → r'.baseline.isSome = true)

/-- `State.recordsOk`, position by position. -/
structure RecordsOk (s : State) : Prop where
  totes : ∀ (q q' : Fin 12) (r r' : Rec), s.wall.pos[q].record = some r → s.wall.pos[q'].record = some r' →
    r.tote = r'.tote → q = q'
  refs : ∀ n : Nat, (ordIndices.countP fun q => s.wall.pos[q].record.any fun r => r.ref == n) ≤ 2
  held : ∀ q : Fin 12, s.wall.pos[q].RecordOk

theorem countP_allRecords (n : Nat) (s : State) : ((allRecords s).countP fun x => x.ref == n) =
    ordIndices.countP fun q => s.wall.pos[q].record.any fun r => r.ref == n := by
  unfold allRecords
  rw [List.countP_filterMap]
  refine List.countP_congr fun q _ => ?_
  cases s.wall.pos[q].record <;> simp

theorem State.recordsOk_iff (s : State) : s.recordsOk ↔ RecordsOk s := by
  constructor
  · rintro ⟨totes, refs, charges, baseline⟩
    refine ⟨totes, fun n => ?_, fun q r here => ⟨charges r (mem_allRecords.mpr ⟨q, here⟩), baseline q r here⟩⟩
    rw [← countP_allRecords]
    by_cases some : ∃ r ∈ allRecords s, r.ref = n
    · obtain ⟨r, hr, rfl⟩ := some
      exact refs r hr
    · rw [List.countP_eq_zero.mpr fun r hr e => some ⟨r, hr, beq_iff_eq.mp e⟩]
      exact Nat.zero_le _
  · intro h
    refine ⟨h.totes, fun r _ => countP_allRecords r.ref s ▸ h.refs r.ref, fun r hr => ?_, fun q r here => (h.held q r here).2⟩
    obtain ⟨q, here⟩ := mem_allRecords.mp hr
    exact (h.held q r here).1

/-- Positions that hold the records they held, or none. -/
theorem RecordsOk.heirs {s t : State} (h : RecordsOk s) (heir : ∀ q : Fin 12, s.wall.pos[q].Heir t.wall.pos[q]) :
    RecordsOk t := by
  refine ⟨fun q q' r r' here there same => ?_, fun n => le_trans (List.countP_mono_left fun q _ has => ?_) (h.refs n),
    fun q r here => ?_⟩
  · obtain ⟨x, hx, tote, -⟩ := heir q r here
    obtain ⟨x', hx', tote', -⟩ := heir q' r' there
    exact h.totes q q' x x' hx hx' (tote.symm.trans (same.trans tote'))
  · cases here : t.wall.pos[q].record with
    | none => rw [here] at has; cases has
    | some r =>
      obtain ⟨x, hx, -, ref, -⟩ := heir q r here
      rw [here, Option.any_some, ref] at has
      rw [hx]
      exact has
  · obtain ⟨-, -, -, -, charges, baseline⟩ := heir q r here
    exact ⟨charges, baseline⟩

theorem OrdPos.RecordOk.heir {x : OrdPos} (h : x.RecordOk) : x.Heir x := fun r here =>
  ⟨r, here, rfl, rfl, (h r here).1, (h r here).2⟩

theorem RecordsOk.of_pos {s t : State} (h : RecordsOk s) (same : t.wall.pos = s.wall.pos) : RecordsOk t :=
  h.heirs fun q => by rw [same]; exact (h.held q).heir

/-- An update of one order position that holds the record it held, or none. -/
theorem RecordsOk.ord {s : State} (h : RecordsOk s) {q : Fin 12} {f : OrdPos → OrdPos}
    (heir : s.wall.pos[q].RecordOk → s.wall.pos[q].Heir (f s.wall.pos[q])) : RecordsOk (modOrd q f s) :=
  h.heirs fun q' => by
    rw [modOrd_getElem]
    split
    · next e => subst e; exact heir (h.held q)
    · exact (h.held q').heir

section
variable {x y : OrdPos} (h : x.RecordOk)
include h

/-- The record as it was, at a position that does not come to be ACTIVE. -/
theorem OrdPos.RecordOk.heir_of_same (record : y.record = x.record)
    (active : y.state = .active ∨ y.former = some .active → x.state = .active ∨ x.former = some .active) : x.Heir y :=
  fun r here => ⟨r, record ▸ here, rfl, rfl, (h r (record ▸ here)).1, fun act => (h r (record ▸ here)).2 (active act)⟩

/-- The record changed apart from what it is known by, at a position that does not come to be ACTIVE. -/
theorem OrdPos.RecordOk.heir_of_map {f : Rec → Rec} (record : y.record = x.record.map f)
    (active : y.state = .active ∨ y.former = some .active → x.state = .active ∨ x.former = some .active)
    (same : ∀ r, x.record = some r → (f r).tote = r.tote ∧ (f r).ref = r.ref)
    (charges : ∀ r, x.record = some r → r.chargesOk = true → (f r).chargesOk = true)
    (baseline : ∀ r, r.baseline.isSome = true → (f r).baseline.isSome = true) : x.Heir y := fun r' here => by
  rw [record] at here
  obtain ⟨r, at', rfl⟩ := Option.map_eq_some_iff.mp here
  exact ⟨r, at', (same r at').1, (same r at').2, charges r at' (h r at').1, fun act => baseline r ((h r at').2 (active act))⟩

omit h in
theorem OrdPos.heir_of_none (record : y.record = none) : x.Heir y := fun r here => by rw [record] at here; cases here

/-- A fault keeps the record of an ACTIVE position with its baseline (R75). -/
theorem OrdPos.RecordOk.faulted (c : Cause) : x.Heir (x.faulted c) := by
  by_cases kept : x.state = .expected ∨ x.state = .arrived ∨ x.state = .active
  · refine h.heir_of_map (f := fun r => { r with cond := .disturbed .fault, misput := false }) (if_pos kept) ?_
      (fun _ _ => ⟨rfl, rfl⟩) (fun _ _ => id) fun _ => id
    rintro (active | former)
    · cases active
    · simp only [OrdPos.faulted, if_pos kept, Option.some.injEq] at former
      exact .inl former
  · exact OrdPos.heir_of_none (if_neg kept)

/-- The record a survey finds again keeps its baseline, or gets one as it becomes ACTIVE (R162). -/
theorem OrdPos.RecordOk.judged (items : x.ItemsOk) (at' : x.state = .closed ∨ x.state = .faulted) (e : SurveyEnd) (ta : Nat) :
    x.Heir (x.judged e ta) := by
  have failed : ∀ c, x.Heir (x.surveyFailed c) := fun c => h.heir_of_same rfl fun act =>
    .inr (act.elim (fun active => (by cases active)) id)
  have away : x.state ≠ .active := by rcases at' with e | e <;> simp [e]
  cases e with
  | failed c => exact failed c
  | source f l => exact failed .kind
  | order t g =>
    unfold OrdPos.judged OrdPos.recovered
    dsimp only
    split
    · next none => split <;> exact OrdPos.heir_of_none none
    · next r held =>
      have recovered : ∀ (st : OrdState) (r' : Rec), r'.tote = r.tote → r'.ref = r.ref → r'.chargesOk = r.chargesOk →
          (st = .active → r'.baseline.isSome = true) → x.Heir { x.reopened st g with record := some r' } := by
        intro st r' tote ref charges baseline k here
        cases here
        exact ⟨r, held, tote, ref, charges.trans (h r held).1, fun act => act.elim baseline fun former => (by cases former)⟩
      have known : x.former = some .active → r.baseline.isSome = true := fun was => (h r held).2 (.inr was)
      split
      · split
        · exact OrdPos.heir_of_none rfl
        · exact recovered .expected _ rfl rfl rfl fun e => (by cases e)
      · split
        · exact OrdPos.heir_of_none rfl
        · split
          · next was =>
            split
            · exact recovered .active _ rfl rfl rfl fun _ => known was
            · exact h.heir_of_same rfl fun _ => .inr was
          · split
            · exact recovered .active _ rfl rfl rfl fun _ => rfl
            · exact recovered .arrived _ rfl rfl rfl fun e => (by cases e)

end

/-! ## The updates of a record -/

/-- A record changed apart from its tote id and order ref, within its caps, with a baseline it had. -/
theorem RecordsOk.record {s : State} (h : RecordsOk s) {q : Fin 12} {f : Rec → Rec}
    (same : ∀ r, (f r).tote = r.tote ∧ (f r).ref = r.ref)
    (charges : ∀ r, s.wall.pos[q].record = some r → r.chargesOk = true → (f r).chargesOk = true)
    (baseline : ∀ r, r.baseline.isSome = true → (f r).baseline.isSome = true) : RecordsOk (modRec q f s) :=
  h.ord fun ok => ok.heir_of_map rfl id (fun r _ => same r) charges baseline

theorem Rec.chargesOk_iff (r : Rec) : r.chargesOk = true ↔ r.comps.length = r.count ∧ 1 ≤ r.count ∧ r.count ≤ 6 ∧
    ∀ (j : Nat) (k : Comp), r.comps[j]? = some k → k.weight ≤ r.weightCap ∧ k.volume ≤ r.volumeCap := by
  unfold Rec.chargesOk
  simp only [Bool.and_eq_true, beq_iff_eq, decide_eq_true_eq, List.all_eq_true, and_assoc]
  refine and_congr_right fun _ => and_congr_right fun _ => and_congr_right fun _ => ?_
  exact ⟨fun all j k at' => all k (List.mem_of_getElem? at'), fun each k mem => by
    obtain ⟨j, at'⟩ := List.mem_iff_getElem?.mp mem
    exact each j k at'⟩

/-- A record's compartments are numbered below six. -/
theorem Rec.comp_lt {r : Rec} (ok : r.chargesOk = true) {j : Nat} {k : Comp} (at' : r.comps[j]? = some k) : j < 6 := by
  obtain ⟨len, -, six, -⟩ := r.chargesOk_iff.mp ok
  have := (List.getElem?_eq_some_iff.mp at').1
  omega

/-- Compartments changed one at a time, each within the caps. -/
theorem Rec.chargesOk_modify {r r' : Rec} (ok : r.chargesOk = true) {j : Nat} {f : Comp → Comp}
    (comps : r'.comps = r.comps.modify j f) (count : r'.count = r.count) (weight : r'.weightCap = r.weightCap)
    (volume : r'.volumeCap = r.volumeCap)
    (room : ∀ k, r.comps[j]? = some k → k.weight ≤ r.weightCap → k.volume ≤ r.volumeCap →
      (f k).weight ≤ r.weightCap ∧ (f k).volume ≤ r.volumeCap) : r'.chargesOk = true := by
  obtain ⟨len, one, six, caps⟩ := r.chargesOk_iff.mp ok
  rw [Rec.chargesOk_iff, comps, count, weight, volume]
  refine ⟨by rw [List.length_modify, len], one, six, fun i k at' => ?_⟩
  rw [List.getElem?_modify] at at'
  by_cases e : j = i
  · subst e
    simp only [if_true, Option.map_eq_map, Option.map_eq_some_iff] at at'
    obtain ⟨k', there, rfl⟩ := at'
    exact room k' there (caps j k' there).1 (caps j k' there).2
  · simp only [if_neg e, id_map'] at at'
    exact caps i k (by simpa using at')

/-- A charge that the compartment has room for stays within the caps (R78). -/
theorem Rec.chargesOk_chargeUnits {r : Rec} (ok : r.chargesOk = true) {j n w v : Nat}
    (room : ∀ k, r.comps[j]? = some k → k.weight + n * w ≤ r.weightCap ∧ k.volume + n * v ≤ r.volumeCap) :
    (r.chargeUnits j n w v).chargesOk = true :=
  Rec.chargesOk_modify ok rfl rfl rfl rfl fun k at' _ _ => room k at'

/-! ## Registration (R62, R65) -/

/-- The compartments of a record just registered lie within its caps. -/
theorem registered_chargesOk {pr : Profile} (range : pr.inRange = true) {x : OrdPos} (at' : x.state = .empty ∨ x.state = .occupied)
    (seq : Nat) (f : WallAddFields) {r : Rec} (here : (registered x (makeRecord pr seq f) pr f.charges).record = some r) :
    r.chargesOk = true ∧ r.tote = f.tote ∧ r.ref = f.ref ∧
      ((registered x (makeRecord pr seq f) pr f.charges).state = .active → r.baseline.isSome = true) := by
  obtain ⟨one, six⟩ := ((Profile.inRange_iff pr).mp range).1 .compartments 1 6 pr.compartments rfl rfl
  obtain ⟨r', here', ⟨comps, b, rfl⟩, len, -, empty, occupied⟩ := exists_registered at' pr seq f
  rw [here'] at here
  cases here
  rw [Rec.chargesOk_iff]
  refine ⟨⟨len, one, six, fun j k at'' => ?_⟩, rfl, rfl, fun act => ?_⟩
  · rcases at' with e | e
    · obtain ⟨-, -, zero⟩ := empty e
      obtain ⟨weight, volume⟩ := zero k (List.mem_of_getElem? at'')
      rw [weight, volume]
      exact ⟨Nat.zero_le _, Nat.zero_le _⟩
    · obtain ⟨-, -, -, charged⟩ := occupied e
      have lt : j < pr.compartments := len ▸ (List.getElem?_eq_some_iff.mp at'').1
      have := charged j lt
      rw [at''] at this
      cases e : f.charges[j]? with
      | none =>
        rw [e] at this
        cases Option.some.inj this
        exact ⟨Nat.zero_le _, Nat.zero_le _⟩
      | some c =>
        rw [e] at this
        cases Option.some.inj this
        exact ⟨Nat.min_le_right _ _, Nat.min_le_right _ _⟩
  · rcases at' with e | e
    · rw [(empty e).1] at act; cases act
    · obtain ⟨-, weighed, bare, -⟩ := occupied e
      by_cases grams : ∃ g, x.latest = some (.grams g)
      · obtain ⟨g, latest⟩ := grams
        rw [(weighed g latest).2]; rfl
      · rw [(bare fun g latest => grams ⟨g, latest⟩).1] at act; cases act

theorem registered_former (x : OrdPos) (r : Rec) (pr : Profile) (cs : List (Nat × Nat)) :
    (registered x r pr cs).former = x.former := by
  unfold registered
  split <;> rfl

/-- A count over the positions grows by one at most where one position changes. -/
theorem countP_ordIndices_succ {a b : Fin 12 → Bool} (q : Fin 12) (same : ∀ q', q' ≠ q → a q' = b q') :
    ordIndices.countP a ≤ ordIndices.countP b + 1 := by
  have split : ∀ c : Fin 12 → Bool, ordIndices.countP c = (ordIndices.erase q).countP c + if c q then 1 else 0 := fun c => by
    have perm := List.perm_cons_erase (mem_ordIndices q)
    rw [perm.countP_eq, List.countP_cons]
  have rest : (ordIndices.erase q).countP a = (ordIndices.erase q).countP b := List.countP_congr fun q' hq' => by
    have nodup : ordIndices.Nodup := by decide
    rw [same q' ((nodup.mem_erase_iff).mp hq').1]
  rw [split a, split b, rest]
  split <;> split <;> omega

/-- A registration adds a record with a new tote id and at most the second with its order ref (R62, R64). -/
theorem RecordsOk.registered {s t : State} (h : RecordsOk s) (items : s.wallOk) (range : s.prof.profile.inRange = true)
    {f : WallAddFields} {q : Fin 12} (ok : judgeWallAdd f s = .ok q) (seq : Nat)
    (wall : t.wall.pos = (modOrd q (fun _ => Machine.registered s.wall.pos[q] (makeRecord s.prof.profile seq f)
      s.prof.profile f.charges) s).wall.pos) : RecordsOk t := by
  obtain ⟨-, placed⟩ := judgeWallAdd_eq_ok ok
  have at' := judgeWallAdd_state ok
  have here : ∀ q' : Fin 12, t.wall.pos[q'] = if q = q' then Machine.registered s.wall.pos[q']
      (makeRecord s.prof.profile seq f) s.prof.profile f.charges else s.wall.pos[q'] := fun q' => by
    rw [wall, modOrd_getElem]
    split
    · next e => subst e; rfl
    · rfl
  have other : ∀ q' : Fin 12, q' ≠ q → t.wall.pos[q'] = s.wall.pos[q'] := fun q' ne => by rw [here, if_neg ne.symm]
  have new : ∀ r, t.wall.pos[q].record = some r → r.chargesOk = true ∧ r.tote = f.tote ∧ r.ref = f.ref ∧
      (t.wall.pos[q].state = .active → r.baseline.isSome = true) := fun r held => by
    rw [here q, if_pos rfl] at held ⊢
    exact registered_chargesOk range at' seq f held
  have unique : ∀ (q' : Fin 12) (r r' : Rec), t.wall.pos[q].record = some r → t.wall.pos[q'].record = some r' →
      r.tote = r'.tote → q = q' := fun q' r r' held held' same => by
    by_contra ne
    rw [other q' fun e => ne e.symm] at held'
    exact placed.fresh q' r' held' (same.symm.trans (new r held).2.1)
  refine ⟨fun q₁ q₂ r₁ r₂ held₁ held₂ same => ?_, fun n => ?_, fun q' r held => ?_⟩
  · by_cases e₁ : q₁ = q
    · subst e₁; exact unique q₂ r₁ r₂ held₁ held₂ same
    · by_cases e₂ : q₂ = q
      · subst e₂; exact (unique q₁ r₂ r₁ held₂ held₁ same.symm).symm
      · rw [other q₁ e₁] at held₁
        rw [other q₂ e₂] at held₂
        exact h.totes q₁ q₂ r₁ r₂ held₁ held₂ same
  · by_cases e : n = f.ref
    · subst e
      have few := placed.few
      rw [countP_allRecords] at few
      exact le_trans (countP_ordIndices_succ q fun q' ne => by rw [other q' ne]) (Nat.succ_le_succ few)
    · refine le_trans (List.countP_mono_left fun q' _ has => ?_) (h.refs n)
      by_cases e' : q' = q
      · subst e'
        cases held : t.wall.pos[q'].record with
        | none => rw [held] at has; cases has
        | some r =>
          rw [held, Option.any_some, beq_iff_eq, (new r held).2.2.1] at has
          exact absurd has.symm e
      · rwa [other q' e'] at has
  · by_cases e : q' = q
    · subst e
      obtain ⟨charges, -, -, active⟩ := new r held
      refine ⟨charges, fun act => act.elim active fun former => ?_⟩
      have bare : s.wall.pos[q'].former = none :=
        ((OrdPos.itemsOk_iff _).mp (items q')).former_none fun e => at'.elim (fun k => by rw [k] at e; cases e) fun k => by rw [k] at e; cases e
      rw [here, if_pos rfl, registered_former, bare] at former
      cases former
    · rw [other q' e] at held ⊢
      exact h.held q' r held

end Sys2Proof.Machine

namespace Sys2Proof.Machine

/-!
The lists of the field lines and the surveys in progress (R142, R157, R160): what a hand-over, an acknowledgement and the
beginning and end of a survey keep.
-/

/-! ## One list -/

/-- What the line of a position may carry, what it shows disregarded (R157). -/
def lineTargets : Pos → List Order
  | .src _ => [.light .source .dark, .gate .faceExit, .gate .laneExit, .gate .advance, .survey]
  | .ord _ => [.light (.comp 0) .dark, .light (.comp 1) .dark, .light (.comp 2) .dark, .light (.comp 3) .dark,
      .light (.comp 4) .dark, .light (.comp 5) .dark, .light .all .dark, .gate .exit, .survey]

theorem lineTargets_length (pos : Pos) : (lineTargets pos).length ≤ 9 := by
  cases pos <;> simp [lineTargets]

theorem target_mem {pos : Pos} {o : Order} (fits : o.fits pos = true) : o.target ∈ lineTargets pos := by
  cases pos with
  | src p =>
    cases o with
    | light d w => cases d <;> simp_all [Order.fits, Order.target, lineTargets]
    | gate g => cases g <;> simp_all [Order.fits, Order.target, lineTargets]
    | survey => simp [Order.target, lineTargets]
  | ord q =>
    cases o with
    | light d w =>
      cases d with
      | source => simp [Order.fits] at fits
      | comp j =>
        have lt : j < 6 := by simpa [Order.fits] using fits
        have : j = 0 ∨ j = 1 ∨ j = 2 ∨ j = 3 ∨ j = 4 ∨ j = 5 := by omega
        simpa [Order.target, lineTargets] using this
      | all => simp [Order.target, lineTargets]
    | gate g => cases g <;> simp_all [Order.fits, Order.target, lineTargets]
    | survey => simp [Order.target, lineTargets]

/-- Of orders that fit a line with one waiting of each target, nine wait at most. -/
theorem waiting_length_le {pos : Pos} {l : List FieldOrder} (fits : ∀ o ∈ l, o.order.fits pos = true)
    (once : (l.map fun o => o.order.target).Nodup) : l.length ≤ 9 := by
  have le := once.length_le_of_subset (l₂ := lineTargets pos) fun t ht => by
    obtain ⟨o, ho, rfl⟩ := List.mem_map.mp ht
    exact target_mem (fits o ho)
  rw [List.length_map] at le
  exact le.trans (lineTargets_length pos)

/-- An order of the same target is obsolete, but for SURVEY (R157). -/
theorem obsoletes_of_target {o w : Order} (h : w.target = o.target) (light : o ≠ .survey) : obsoletes o w = true := by
  rw [obsoletes_iff]
  cases o with
  | light d v =>
    cases w with
    | light d' v' =>
      have e : d' = d := by simpa [Order.target] using h
      subst e
      cases d' with
      | source => exact ⟨v', rfl⟩
      | comp j => exact ⟨v', rfl⟩
      | all => exact ⟨.all, v', rfl⟩
    | gate g => simp [Order.target] at h
    | survey => simp [Order.target] at h
  | gate g =>
    cases w with
    | light d' v' => simp [Order.target] at h
    | gate g' => simpa [Order.target] using h
    | survey => simp [Order.target] at h
  | survey => exact absurd rfl light

section
variable {pos : Pos} {l : FieldLine}

/-- A list that has lost orders. -/
theorem FieldLine.listOk.sublist (h : l.listOk pos) {l' : FieldLine} (sub : l'.orders.Sublist l.orders) : l'.listOk pos := by
  obtain ⟨few, fits, once, surveys⟩ := h
  exact ⟨sub.length_le.trans few, fun o ho => fits o (sub.subset ho), once.sublist (sub.tail.map _),
    (sub.countP_le).trans surveys⟩

theorem FieldLine.listOk_emptied (pos : Pos) (l : FieldLine) : (FieldLine.emptied l).listOk pos := by
  simp [FieldLine.emptied, FieldLine.listOk]

theorem FieldLine.dropSurvey_orders (l : FieldLine) :
    (FieldLine.dropSurvey l).orders = l.orders.filter fun o => o.order != .survey := by
  rw [dropSurvey_eq]
  split
  · next e => exact e.trans (by rw [e, List.filter_nil])
  · rfl

theorem FieldLine.hand_orders (o : Order) (dark : Bool) (l : FieldLine) : ∃ kept : List FieldOrder,
    kept.Sublist l.orders ∧ (l.orders ≠ [] → kept ≠ []) ∧
    (∀ w ∈ kept.tail, obsoletes o w.order = false) ∧
    (FieldLine.hand o dark l).orders = kept ++ [{ seq := l.nextSeq, order := o, startDark := dark }] := by
  refine ⟨mergeOrders o l.orders, ?_, ?_, ?_, rfl⟩
  · cases l.orders with
    | nil => exact List.Sublist.refl _
    | cons x w => exact List.Sublist.cons_cons x List.filter_sublist
  · cases l.orders with
    | nil => exact id
    | cons x w => exact fun _ => List.cons_ne_nil _ _
  · cases l.orders with
    | nil => intro w hw; cases hw
    | cons x w => exact fun y hy => by simpa using (List.mem_filter.mp hy).2

/-- An order that the line carries, and no second SURVEY, is handed to it (R157). -/
theorem FieldLine.listOk.hand (h : l.listOk pos) {o : Order} (fits : o.fits pos = true) (dark : Bool)
    (one : o = .survey → ∀ x ∈ l.orders, x.order ≠ .survey) : (FieldLine.hand o dark l).listOk pos := by
  obtain ⟨kept, sub, -, others, orders⟩ := l.hand_orders o dark
  obtain ⟨-, allFit, once, surveys⟩ := h.sublist (l' := { l with orders := kept }) sub
  dsimp only at allFit once surveys
  have fit : ∀ x ∈ (FieldLine.hand o dark l).orders, x.order.fits pos = true := fun x hx => by
    rw [orders] at hx
    rcases List.mem_append.mp hx with old | new
    · exact allFit x old
    · rw [List.mem_singleton.mp new]; exact fits
  have tail : ((FieldLine.hand o dark l).orders.tail.map fun o => o.order.target).Nodup := by
    rw [orders]
    cases kept with
    | nil => exact List.nodup_nil
    | cons x waiting =>
      rw [List.cons_append, List.tail_cons, List.map_append, List.nodup_append]
      refine ⟨once, List.nodup_singleton _, fun a ha b hb same => ?_⟩
      obtain ⟨w, hw, rfl⟩ := List.mem_map.mp ha
      rw [List.mem_singleton.mp hb] at same
      by_cases survey : o = .survey
      · subst survey
        refine one rfl w (sub.subset (List.mem_cons_of_mem _ hw)) ?_
        cases e : w.order <;> simp [e, Order.target] at same ⊢
      · have := others w hw
        rw [obsoletes_of_target same survey] at this
        cases this
  refine ⟨?_, fit, tail, ?_⟩
  · have waiting := waiting_length_le (fun x hx => fit x (List.mem_of_mem_tail hx)) tail
    rw [List.length_tail] at waiting
    omega
  · rw [orders, List.countP_append, List.countP_singleton]
    by_cases survey : o = .survey
    · have none : kept.countP (fun o => o.order == .survey) = 0 := List.countP_eq_zero.mpr fun x hx e =>
        one survey x (sub.subset hx) (beq_iff_eq.mp e)
      rw [none]
      split <;> omega
    · rw [if_neg (by simpa using survey)]
      exact surveys

end

/-! ## Every list, every survey -/

/-- A change of one line that keeps its list, and carries SURVEY while its position is surveyed alone. -/
theorem State.listsOk.line {s : State} (h : s.listsOk) {pos : Pos} {f : FieldLine → FieldLine}
    (keep : s.lines[lineOf pos].listOk pos → (f s.lines[lineOf pos]).listOk pos)
    (survey : ∀ o ∈ (f s.lines[lineOf pos]).orders, o.order = .survey → o ∈ s.lines[lineOf pos].orders ∨ inSurvey pos s = true) :
    (modLine (lineOf pos) f s).listsOk := fun pos' => by
  obtain ⟨list, surveyed⟩ := h pos'
  have same : inSurvey pos' (modLine (lineOf pos) f s) = inSurvey pos' s := by cases pos' <;> rfl
  rw [modLine_getElem, same]
  split
  · next e =>
    obtain rfl := lineOf_injective e
    exact ⟨keep list, fun o ho is => (survey o ho is).elim (fun old => surveyed o old is) id⟩
  · exact ⟨list, surveyed⟩

/-- The lines as they were, with no survey ended. -/
theorem State.listsOk.of_lines {s t : State} (h : s.listsOk) (lines : t.lines = s.lines)
    (survey : ∀ pos, inSurvey pos s = true → inSurvey pos t = true) : t.listsOk := fun pos => by
  obtain ⟨list, surveyed⟩ := h pos
  rw [lines]
  exact ⟨list, fun o ho is => survey pos (surveyed o ho is)⟩

/-- The surveys in progress, or fewer, with what they are made for. -/
theorem State.surveysOk.of_fewer {s t : State} (h : s.surveysOk) (survey : ∀ pos, inSurvey pos t = true → inSurvey pos s = true)
    (surveying : t.bench.surveying = s.bench.surveying) (held : t.link.held = s.link.held) : t.surveysOk := fun pos run => by
  rw [surveying, held]
  exact h pos (survey pos run)

/-- An order but SURVEY, which a line carries, is handed to it. -/
theorem State.listsOk.hand {s : State} (h : s.listsOk) {pos : Pos} {o : Order} (fits : o.fits pos = true) (plain : o ≠ .survey) :
    (handOrder pos o s).listsOk := by
  unfold handOrder
  split
  · exact h
  · refine h.line (fun ok => ok.hand fits false fun e => absurd e plain) fun x hx is => ?_
    obtain ⟨kept, sub, -, -, orders⟩ := s.lines[lineOf pos].hand_orders o false
    rw [orders] at hx
    rcases List.mem_append.mp hx with old | new
    · exact .inl (sub.subset old)
    · rw [List.mem_singleton.mp new] at is; exact absurd is plain

theorem State.listsOk.clear {s : State} (h : s.listsOk) (pos : Pos) : (clearLine pos s).listsOk :=
  h.line (fun _ => FieldLine.listOk_emptied ..) fun o ho => by cases ho

theorem inSurvey_congr {s t : State} (src : ∀ p : Fin 4, t.src[p].surveyT.isSome = s.src[p].surveyT.isSome)
    (ord : ∀ q : Fin 12, t.wall.pos[q].surveyT.isSome = s.wall.pos[q].surveyT.isSome) (pos : Pos) :
    inSurvey pos t = inSurvey pos s := by
  cases pos with
  | src p => exact src p
  | ord q => exact ord q

theorem inSurvey_handOrder (pos pos' : Pos) (o : Order) (s : State) : inSurvey pos' (handOrder pos o s) = inSurvey pos' s :=
  inSurvey_congr (fun p => by rw [handOrder_src]) (fun q => by rw [handOrder_wall]) pos'

/-- The survey timer of a position started (R160). -/
def surveyTimed (pos : Pos) (s : State) : State :=
  match pos with
  | .src p => modSrc p (SrcPos.setSurvey (some Config.surveyTenths)) s
  | .ord q => modOrd q (OrdPos.setSurvey (some Config.surveyTenths)) s

theorem surveyTimed_frame (pos : Pos) (s : State) : (surveyTimed pos s).lines = s.lines ∧
    (surveyTimed pos s).bench = s.bench ∧ (surveyTimed pos s).link = s.link := by
  cases pos <;> exact ⟨rfl, rfl, rfl⟩

/-- A SURVEY order goes to a FAULTED position too (R157). -/
theorem beginSurvey_eq (pos : Pos) (s : State) : beginSurvey pos s =
    modLine (lineOf pos) (FieldLine.hand .survey false) (surveyTimed pos s) := by
  have handed : ∀ u : State, handOrder pos .survey u = modLine (lineOf pos) (FieldLine.hand .survey false) u := fun u => by
    unfold handOrder
    rw [if_neg (by simp)]
  rw [← handed]
  rfl

/-- A position whose survey begins, and no other (R160). -/
theorem inSurvey_timed (pos pos' : Pos) (s : State) : inSurvey pos' (surveyTimed pos s) =
    (decide (pos' = pos) || inSurvey pos' s) := by
  cases pos with
  | src p =>
    cases pos' with
    | ord q => simp [inSurvey, surveyTimed]
    | src p' =>
      unfold inSurvey surveyTimed
      dsimp only
      rw [modSrc_getElem]
      split
      · next e => subst e; simp [SrcPos.setSurvey, -Fin.getElem_fin]
      · next ne => simp [show p' ≠ p from Ne.symm ne, -Fin.getElem_fin]
  | ord q =>
    cases pos' with
    | src p => simp [inSurvey, surveyTimed]
    | ord q' =>
      unfold inSurvey surveyTimed
      dsimp only
      rw [modOrd_getElem]
      split
      · next e => subst e; simp [OrdPos.setSurvey, -Fin.getElem_fin]
      · next ne => simp [show q' ≠ q from Ne.symm ne, -Fin.getElem_fin]

theorem inSurvey_modLine (pos : Pos) (i : Fin 16) (f : FieldLine → FieldLine) (s : State) :
    inSurvey pos (modLine i f s) = inSurvey pos s := by cases pos <;> rfl

/-- The survey of a position begins where none is in progress (R160). -/
theorem State.listsOk.begin {s : State} (h : s.listsOk) {pos : Pos} (still : inSurvey pos s = false) :
    (beginSurvey pos s).listsOk := by
  obtain ⟨lines, -⟩ := surveyTimed_frame pos s
  have run := fun pos' => inSurvey_timed pos pos' s
  rw [beginSurvey_eq]
  generalize surveyTimed pos s = u at lines run
  have mid : u.listsOk := h.of_lines lines fun pos' was => by rw [run, was, Bool.or_true]
  refine mid.line (fun ok => ok.hand (by cases pos <;> rfl) false fun _ x hx is => ?_) fun _ _ _ => .inr ?_
  · rw [lines] at hx
    have := (h pos).2 x hx is
    rw [still] at this
    cases this
  · rw [run]; simp

theorem State.surveysOk.begin {s : State} (h : s.surveysOk) {pos : Pos}
    (reason : s.bench.surveying = true ∨ ∃ x, s.link.held = some x ∧ x.job.waitsFor pos = true) :
    (beginSurvey pos s).surveysOk := fun pos' run => by
  obtain ⟨-, bench, link⟩ := surveyTimed_frame pos s
  rw [beginSurvey_eq, modLine_bench, modLine_link, bench, link]
  rw [beginSurvey_eq, inSurvey_modLine, inSurvey_timed, Bool.or_eq_true, decide_eq_true_eq] at run
  rcases run with rfl | was
  · exact reason
  · exact h pos' was

/-- A position whose survey has ended, and no other (R160). -/
theorem inSurvey_stopped (pos pos' : Pos) (s : State) : inSurvey pos' (stopSurvey pos s) =
    (decide (pos' ≠ pos) && inSurvey pos' s) := by
  cases pos with
  | src p =>
    cases pos' with
    | ord q => simp [inSurvey, stopSurvey]
    | src p' =>
      unfold inSurvey
      dsimp only
      rw [stopSurvey_src]
      split
      · next e => subst e; simp [SrcPos.setSurvey, -Fin.getElem_fin]
      · next ne => simp [show p' ≠ p from Ne.symm ne, -Fin.getElem_fin]
  | ord q =>
    cases pos' with
    | src p => simp [inSurvey, stopSurvey]
    | ord q' =>
      unfold inSurvey
      dsimp only
      rw [stopSurvey_ord]
      split
      · next e => subst e; simp [OrdPos.setSurvey, -Fin.getElem_fin]
      · next ne => simp [show q' ≠ q from Ne.symm ne, -Fin.getElem_fin]

/-- The end of a survey takes its SURVEY order along (R160). -/
theorem State.listsOk.stop {s : State} (h : s.listsOk) (pos : Pos) : (stopSurvey pos s).listsOk := fun pos' => by
  obtain ⟨list, surveyed⟩ := h pos'
  have line : (stopSurvey pos s).lines[lineOf pos'] =
      if pos = pos' then FieldLine.dropSurvey s.lines[lineOf pos'] else s.lines[lineOf pos'] := by
    have lines : (stopSurvey pos s).lines = (modLine (lineOf pos) FieldLine.dropSurvey s).lines := by cases pos <;> rfl
    rw [lines, modLine_getElem]
    simp only [lineOf_injective.eq_iff]
  rw [line, inSurvey_stopped]
  split
  · refine ⟨list.sublist ?_, fun o ho is => ?_⟩
    · rw [FieldLine.dropSurvey_orders]; exact List.filter_sublist
    · rw [FieldLine.dropSurvey_orders] at ho
      have := (List.mem_filter.mp ho).2
      rw [is] at this
      simp at this
  · next ne => exact ⟨list, fun o ho is => by rw [surveyed o ho is]; simpa using Ne.symm ne⟩

theorem State.surveysOk.stop {s : State} (h : s.surveysOk) (pos : Pos) : (stopSurvey pos s).surveysOk := by
  refine h.of_fewer (fun pos' run => ?_) ?_ ?_
  · rw [inSurvey_stopped, Bool.and_eq_true] at run; exact run.2
  · exact congrArg Bench.surveying (stopSurvey_apart pos s).bench
  · cases pos <;> rfl

end Sys2Proof.Machine

namespace Sys2Proof.Machine

/-!
The progress of lines and offers (R5, R6, R117): accepted units written into a line that owes them, the travel charge of a
grant, and the exposure that never falls.
-/

/-! ## One line -/

/-- `OLine.progressOk` as named properties. -/
structure OLine.ProgressOk (l : OLine) : Prop where
  within : l.done ≤ l.qty
  state : l.state = .done ↔ l.done = l.qty
  few : l.puts.length ≤ Config.putListCapacity
  once : (l.puts.map fun e => (e.tote, e.comp)).Nodup
  units : ∀ e ∈ l.puts, 1 ≤ e.units

theorem OLine.progressOk_iff (l : OLine) : l.progressOk = true ↔ l.ProgressOk := by
  have state : ((l.state == .done) == (l.done == l.qty)) = true ↔ (l.state = .done ↔ l.done = l.qty) := by
    rw [beq_iff_eq, Bool.eq_iff_iff, beq_iff_eq, beq_iff_eq]
  unfold OLine.progressOk
  simp only [Bool.and_eq_true, decide_eq_true_eq, List.all_eq_true, state]
  exact ⟨fun ⟨⟨⟨⟨a, b⟩, c⟩, d⟩, e⟩ => ⟨a, b, c, d, e⟩, fun ⟨a, b, c, d, e⟩ => ⟨⟨⟨⟨a, b⟩, c⟩, d⟩, e⟩⟩

/-- Accepted units grow the entry of their tote and compartment, or make a new one at the end (R6). -/
theorem addPut_keys (tote comp k : Nat) (es : List PutEntry) : (addPut tote comp k es).map (fun e => (e.tote, e.comp)) =
    if ∃ e ∈ es, e.tote = tote ∧ e.comp = comp then es.map fun e => (e.tote, e.comp)
    else (es.map fun e => (e.tote, e.comp)) ++ [(tote, comp)] := by
  induction es with
  | nil => simp [addPut]
  | cons e es ih =>
    unfold addPut
    by_cases here : e.tote = tote ∧ e.comp = comp
    · rw [if_pos here, if_pos ⟨e, List.mem_cons_self, here⟩]
      rfl
    · rw [if_neg here, List.map_cons, ih]
      by_cases later : ∃ x ∈ es, x.tote = tote ∧ x.comp = comp
      · obtain ⟨x, hx, is⟩ := later
        rw [if_pos ⟨x, hx, is⟩, if_pos ⟨x, List.mem_cons_of_mem _ hx, is⟩]
        rfl
      · rw [if_neg later, if_neg fun ⟨x, hx, is⟩ => (List.mem_cons.mp hx).elim (fun e' => here (e' ▸ is)) fun hx => later ⟨x, hx, is⟩]
        rfl

theorem addPut_units {tote comp k : Nat} (pos : 1 ≤ k) {es : List PutEntry} (units : ∀ e ∈ es, 1 ≤ e.units) :
    ∀ e ∈ addPut tote comp k es, 1 ≤ e.units := by
  induction es with
  | nil => intro e he; rw [List.mem_singleton.mp he]; exact pos
  | cons x es ih =>
    unfold addPut
    intro e he
    split at he
    · rcases List.mem_cons.mp he with rfl | he
      · exact le_trans pos (Nat.le_add_left _ _)
      · exact units e (List.mem_cons_of_mem _ he)
    · rcases List.mem_cons.mp he with rfl | he
      · exact units e List.mem_cons_self
      · exact ih (fun y hy => units y (List.mem_cons_of_mem _ hy)) e he

/-- The put list of a line that takes units at a compartment it is not barred from (R6, R77). -/
theorem OLine.ProgressOk.puts {l : OLine} (ok : l.ProgressOk) {tote comp : Nat} (free : l.barred tote comp = false) (k : Nat) :
    let puts := (l.accept tote comp k).puts
    puts.length ≤ Config.putListCapacity ∧ (puts.map fun e => (e.tote, e.comp)).Nodup ∧ ∀ e ∈ puts, 1 ≤ e.units := by
  intro puts
  by_cases zero : k = 0
  · have : puts = l.puts := if_pos zero
    rw [this]
    exact ⟨ok.few, ok.once, ok.units⟩
  · have added : puts = addPut tote comp k l.puts := if_neg zero
    have keys := addPut_keys tote comp k l.puts
    have len : puts.length = (puts.map fun e => (e.tote, e.comp)).length := (List.length_map _).symm
    rw [added] at len ⊢
    refine ⟨?_, ?_, addPut_units (Nat.pos_of_ne_zero zero) ok.units⟩
    · rw [len, keys]
      split
      · rw [List.length_map]; exact ok.few
      · next new =>
        have room : ¬ Config.putListCapacity ≤ l.puts.length := fun full => by
          have none : (l.puts.any fun e => e.tote == tote && e.comp == comp) = false := by
            rw [List.any_eq_false]
            exact fun e he is => new ⟨e, he, by simpa using is⟩
          rw [OLine.barred, none] at free
          simp [full] at free
        rw [List.length_append, List.length_map, List.length_singleton]
        omega
    · rw [keys]
      split
      · exact ok.once
      · next new =>
        rw [List.nodup_append]
        refine ⟨ok.once, List.nodup_singleton _, fun a ha b hb same => ?_⟩
        obtain ⟨e, he, rfl⟩ := List.mem_map.mp ha
        rw [List.mem_singleton.mp hb, Prod.mk.injEq] at same
        exact new ⟨e, he, same⟩

/-- An OPEN line that takes units short of what it owes stays OPEN (R98). -/
theorem OLine.ProgressOk.accepted {l : OLine} (ok : l.ProgressOk) (opn : l.state = .opn) {tote comp k : Nat}
    (free : l.barred tote comp = false) (less : k < l.owed) : (l.accept tote comp k).ProgressOk := by
  obtain ⟨few, once, units⟩ := ok.puts free k
  have done : (l.accept tote comp k).done = l.done + k := rfl
  have qty : (l.accept tote comp k).qty = l.qty := rfl
  have state : (l.accept tote comp k).state = .opn := opn
  unfold OLine.owed at less
  refine ⟨by rw [done, qty]; omega, ?_, few, once, units⟩
  rw [done, qty, state]
  exact ⟨fun e => (by cases e), fun e => by omega⟩

/-- An OPEN line that takes units it owes ends as its cycle did (R95). -/
theorem OLine.ProgressOk.closed {l : OLine} (ok : l.ProgressOk) {tote comp k : Nat} (free : l.barred tote comp = false)
    (owed : k ≤ l.owed) {short : Bool} (less : short = true → k < l.owed) :
    ((l.accept tote comp k).closed short).ProgressOk := by
  obtain ⟨few, once, units⟩ := ok.puts free k
  have within := ok.within
  unfold OLine.owed at owed less
  have le : l.done + k ≤ l.qty := by omega
  refine ⟨le, ?_, few, once, units⟩
  have done : ((l.accept tote comp k).closed short).done = l.done + k := rfl
  have qty : ((l.accept tote comp k).closed short).qty = l.qty := rfl
  have state : ((l.accept tote comp k).closed short).state =
    if short then .short else if l.done + k = l.qty then .done else .opn := rfl
  rw [done, qty, state]
  cases short with
  | true =>
    have := less rfl
    exact ⟨fun e => (by cases e), fun e => by omega⟩
  | false =>
    by_cases all : l.done + k = l.qty <;> simp [all]

/-! ## One offer -/

/-- `Offer.progressOk` as named properties. -/
structure Offer.ProgressOk (o : Offer) : Prop where
  cold : o.exposure.isSome = true ↔ o.temp.isCold = true
  budget : ∀ e, o.exposure = some e → e.used ≤ e.budget * 10
  lines : ∀ l ∈ o.lines, l.ProgressOk

theorem Offer.progressOk_iff (o : Offer) : o.progressOk = true ↔ o.ProgressOk := by
  have cold : (o.exposure.isSome == o.temp.isCold) = true ↔ (o.exposure.isSome = true ↔ o.temp.isCold = true) := by
    rw [beq_iff_eq, Bool.eq_iff_iff]
  have budget : (o.exposure.all fun e => decide (e.used ≤ e.budget * 10)) = true ↔
      ∀ e, o.exposure = some e → e.used ≤ e.budget * 10 := by
    cases o.exposure <;> simp
  unfold Offer.progressOk
  simp only [Bool.and_eq_true, cold, budget, List.all_eq_true, OLine.progressOk_iff]
  exact ⟨fun ⟨⟨a, b⟩, c⟩ => ⟨a, b, c⟩, fun ⟨a, b, c⟩ => ⟨⟨a, b⟩, c⟩⟩

/-- An offer record at a later moment: its progress in order, its exposure used no less (R117). -/
structure Offer.Later (o o' : Offer) : Prop where
  tote : o'.tote = o.tote
  progress : o.ProgressOk → o'.ProgressOk
  used : ∀ e', o'.exposure = some e' → ∃ e, o.exposure = some e ∧ e.used ≤ e'.used

/-- An offer changed in its place alone. -/
theorem Offer.Later.of_same {o o' : Offer} (tote : o'.tote = o.tote) (temp : o'.temp = o.temp)
    (exposure : o'.exposure = o.exposure) (lines : o'.lines = o.lines) : o.Later o' :=
  ⟨tote, fun ok => ⟨by rw [exposure, temp]; exact ok.cold, by rw [exposure]; exact ok.budget, by rw [lines]; exact ok.lines⟩,
    fun e' here => ⟨e', exposure ▸ here, le_refl _⟩⟩

theorem Offer.Later.refl (o : Offer) : o.Later o := .of_same rfl rfl rfl rfl

/-- Exposure figures changed within the budget. -/
theorem Offer.Later.of_exposure {o o' : Offer} {f : Exposure → Exposure} (tote : o'.tote = o.tote) (temp : o'.temp = o.temp)
    (exposure : o'.exposure = o.exposure.map f) (lines : o'.lines = o.lines)
    (grows : ∀ e, o.exposure = some e → e.used ≤ (f e).used)
    (budget : ∀ e, o.exposure = some e → e.used ≤ e.budget * 10 → (f e).used ≤ (f e).budget * 10) : o.Later o' := by
  refine ⟨tote, fun ok => ⟨by rw [exposure, temp, Option.isSome_map]; exact ok.cold, fun e' here => ?_, by rw [lines]; exact ok.lines⟩,
    fun e' here => ?_⟩
  · rw [exposure] at here
    obtain ⟨e, at', rfl⟩ := Option.map_eq_some_iff.mp here
    exact budget e at' (ok.budget e at')
  · rw [exposure] at here
    obtain ⟨e, at', rfl⟩ := Option.map_eq_some_iff.mp here
    exact ⟨e, at', grows e at'⟩

theorem Offer.Later.judged (o : Offer) (margin : Nat) :
    o.Later { o with exposure := o.exposure.map fun e => e.judged margin } :=
  .of_exposure rfl rfl rfl rfl (fun _ _ => le_refl _) fun _ _ => id

/-- A grant charges the travel that the exposure test found room for (R47, R120). -/
theorem Offer.Later.granted {o : Offer} {pr : Profile} (passes : ∀ e, o.exposure = some e →
    (pr.travelCharge + pr.minDwell) * 10 ≤ e.remaining) (p : Fin 4) (sl : Slot) : o.Later (o.granted p sl pr) := by
  refine .of_exposure rfl rfl (f := fun e => e.charged pr.travelCharge pr.warningMargin) rfl rfl
    (fun e _ => Nat.le_add_right _ _) fun e here within => ?_
  have room := passes e here
  unfold Exposure.remaining at room
  have used : (e.charged pr.travelCharge pr.warningMargin).used = e.used + pr.travelCharge * 10 := rfl
  have budget : (e.charged pr.travelCharge pr.warningMargin).budget = e.budget := rfl
  rw [used, budget]
  omega

/-- A counted offer has exposure left for one tenth more (R119). -/
theorem Offer.Later.tick (o : Offer) : o.Later o.tick := by
  unfold Offer.tick
  split
  · next counted =>
    refine .of_exposure rfl rfl (f := fun e => { e with used := e.used + 1 }) rfl rfl (fun e _ => Nat.le_succ _)
      fun e here within => ?_
    have left : 0 < e.remaining := by
      unfold Offer.counted at counted
      rw [here] at counted
      simp only [Bool.and_eq_true, decide_eq_true_eq] at counted
      exact counted.2
    unfold Exposure.remaining at left
    show e.used + 1 ≤ e.budget * 10
    omega
  · exact .refl o

/-- A line written, its progress in order. -/
theorem Offer.Later.line {o : Offer} {i : Nat} {f : OLine → OLine}
    (keep : ∀ l, o.lines[i]? = some l → l.ProgressOk → (f l).ProgressOk) : o.Later { o with lines := o.lines.modify i f } := by
  refine ⟨rfl, fun ok => ⟨ok.cold, ok.budget, fun l hl => ?_⟩, fun e here => ⟨e, here, le_refl _⟩⟩
  obtain ⟨j, at'⟩ := List.mem_iff_getElem?.mp hl
  rw [List.getElem?_modify] at at'
  by_cases e : i = j
  · subst e
    simp only [if_true, Option.map_eq_map, Option.map_eq_some_iff] at at'
    obtain ⟨l', there, rfl⟩ := at'
    exact keep l' there (ok.lines l' (List.mem_of_getElem? there))
  · simp only [if_neg e, id_map'] at at'
    exact ok.lines l (List.mem_of_getElem? at')

/-! ## The offer list -/

/-- Each record of a later list is one of the earlier list at a later moment. -/
def OffersLater (s t : State) : Prop := ∀ o' ∈ t.offers, ∃ o ∈ s.offers, o.Later o'

theorem OffersLater.of_offers {s t : State} (h : t.offers = s.offers) : OffersLater s t := fun o ho => ⟨o, h ▸ ho, .refl o⟩

theorem OffersLater.map {s t : State} {f : Offer → Offer} (offers : t.offers = s.offers.map f)
    (later : ∀ o ∈ s.offers, o.Later (f o)) : OffersLater s t := fun o ho => by
  rw [offers] at ho
  obtain ⟨o', ho', rfl⟩ := List.mem_map.mp ho
  exact ⟨o', ho', later o' ho'⟩

theorem OffersLater.modOffer {s t : State} {n : Nat} {f : Offer → Offer}
    (offers : t.offers = s.offers.map fun o => if o.tote = n then f o else o)
    (later : ∀ o ∈ s.offers, o.tote = n → o.Later (f o)) : OffersLater s t :=
  .map offers fun o ho => by
    split
    · next e => exact later o ho e
    · exact .refl o

theorem OffersLater.filter {s t : State} {keep : Offer → Bool} (offers : t.offers = s.offers.filter keep) : OffersLater s t :=
  fun o ho => ⟨o, List.mem_of_mem_filter (offers ▸ ho), .refl o⟩

theorem State.progressOk.later {s t : State} (h : s.progressOk) (later : OffersLater s t) : t.progressOk := fun o' ho' => by
  obtain ⟨o, ho, l⟩ := later o' ho'
  exact (o'.progressOk_iff).mpr (l.progress ((o.progressOk_iff).mp (h o ho)))

theorem exposureGrows_later {s₀ s t : State} (h : exposureGrows s₀ s) (later : OffersLater s t) : exposureGrows s₀ t := by
  intro o ho o' ho' same e e' here here'
  obtain ⟨x, hx, l⟩ := later o' ho'
  obtain ⟨d, there, le⟩ := l.used e' here'
  exact (h o ho x hx (l.tote.symm.trans same) e d here there).trans le

/-- A record is its own, with distinct tote ids. -/
theorem exposureGrows_refl {s : State} (ok : s.offersOk) : exposureGrows s s := by
  intro o ho o' ho' same e e' here here'
  rw [ok.eq_of_tote ho' ho same, here] at here'
  cases here'
  exact le_refl _

/-- The record an ACCEPT makes: nothing done yet, used exposure below its budget (R9, R13). -/
theorem judgeOffer_progressOk {s : State} {bs : List Byte} {o : Offer} (h : judgeOffer s bs = .ok o) : o.ProgressOk := by
  obtain ⟨-, -, -, t, budget, used, ls, unspent, qty, e⟩ := judgeOffer_ok h
  rw [e]
  unfold makeOffer
  refine ⟨?_, fun e here => ?_, fun l hl => ?_⟩
  · dsimp only
    by_cases cold : t.isCold = true
    · rw [if_pos cold]; simp [cold]
    · rw [if_neg cold]; simp [cold]
  · dsimp only at here
    by_cases cold : t.isCold = true
    · rw [if_pos cold] at here
      cases here
      have := unspent cold
      show used * 10 ≤ clampBudget t budget * 10
      omega
    · rw [if_neg cold] at here; cases here
  · obtain ⟨x, hx, rfl⟩ := List.mem_map.mp hl
    have := qty x hx
    refine ⟨Nat.zero_le _, ?_, Nat.zero_le _, List.nodup_nil, fun e he => by cases he⟩
    show LineState.opn = .done ↔ 0 = x.qty
    exact ⟨fun e => (by cases e), fun e => absurd e.symm this⟩

end Sys2Proof.Machine

namespace Sys2Proof.Machine

/-!
The lit cycle and what it names (section 5.2, R81, R84), and the bundle of invariants that the operations of a step keep.
-/

/-! ## What a cycle hangs on -/

/-- What a cycle reads of its target record. -/
def Rec.serving (r : Rec) : Cond × Nat × Nat × List Comp × Nat × Nat :=
  (r.cond, r.ref, r.tote, r.comps, r.weightCap, r.volumeCap)

/-- The source face of a cycle, from one state to a later one. -/
def SrcServes (c : Cycle) (x y : SrcPos) : Prop := x.face.state = .present → x.face.offer = some c.offer →
  x.face.orphanT = none → y.face.state = .present ∧ y.face.offer = some c.offer ∧ y.face.orphanT = none

/-- The offer of a cycle, from one state to a later one. -/
def OfferServes (c : Cycle) (s t : State) : Prop := ∀ o, findOffer c.offer s = some o → o.state = .present →
  ∃ o', findOffer c.offer t = some o' ∧ o'.state = .present ∧ o'.lines = o.lines

/-- The target of a cycle, from one state to a later one. -/
def OrdServes (x y : OrdPos) : Prop := x.state = .active → ∀ r, x.record = some r → r.cond = .clean →
  y.state = .active ∧ ∃ r', y.record = some r' ∧ r'.serving = r.serving

theorem SrcServes.of_eq {c : Cycle} {x y : SrcPos} (h : y.face = x.face) : SrcServes c x y := fun a b d => by
  rw [h]; exact ⟨a, b, d⟩

theorem OfferServes.of_eq {c : Cycle} {s t : State} (h : t.offers = s.offers) : OfferServes c s t := fun o found here =>
  ⟨o, by rw [findOffer_congr h]; exact found, here, rfl⟩

theorem OrdServes.of_eq {x y : OrdPos} (state : y.state = x.state) (record : y.record = x.record) : OrdServes x y :=
  fun active r here _ => ⟨state.trans active, r, record.trans here, rfl⟩

theorem Cycle.serves.keep {c : Cycle} {s t : State} (h : c.serves s) (src : SrcServes c s.src[c.src] t.src[c.src])
    (offer : OfferServes c s t) (ord : OrdServes s.wall.pos[c.tgt] t.wall.pos[c.tgt]) : c.serves t := by
  obtain ⟨pos, present, named, still, o, l, r, k, found, here, line, opn, owed, mode, active, record, clean, ref, tote,
    comp, shut, weight, volume, free⟩ := h
  obtain ⟨present', named', still'⟩ := src present named still
  obtain ⟨o', found', here', lines⟩ := offer o found here
  obtain ⟨active', r', record', same⟩ := ord active r record clean
  simp only [Rec.serving, Prod.mk.injEq] at same
  obtain ⟨cond, ref', tote', comps, weightCap, volumeCap⟩ := same
  exact ⟨pos, present', named', still', o', l, r', k, found', here', lines ▸ line, opn, owed, mode, active', record',
    cond.trans clean, ref'.trans ref, tote'.trans tote, comps ▸ comp, shut, weightCap ▸ weight, volumeCap ▸ volume, free⟩

/-- The lit cycle goes on with what it names. -/
theorem State.cycleOk.keep {s t : State} (h : s.cycleOk) (cycle : t.put.cycle = s.put.cycle)
    (src : ∀ c, s.put.cycle = some c → SrcServes c s.src[c.src] t.src[c.src])
    (offer : ∀ c, s.put.cycle = some c → OfferServes c s t)
    (ord : ∀ c, s.put.cycle = some c → OrdServes s.wall.pos[c.tgt] t.wall.pos[c.tgt]) : t.cycleOk := fun c lit => by
  rw [cycle] at lit
  exact (h c lit).keep (src c lit) (offer c lit) (ord c lit)

theorem State.cycleOk.of_eq {s t : State} (h : s.cycleOk) (cycle : t.put.cycle = s.put.cycle) (src : t.src = s.src)
    (offers : t.offers = s.offers) (pos : t.wall.pos = s.wall.pos) : t.cycleOk :=
  h.keep cycle (fun _ _ => .of_eq (by rw [src])) (fun _ _ => .of_eq offers) fun _ _ => .of_eq (by rw [pos]) (by rw [pos])

/-- One source position changes, not the face of the lit source. -/
theorem State.cycleOk.src {s : State} (h : s.cycleOk) {p : Fin 4} {f : SrcPos → SrcPos}
    (keep : ∀ c, s.put.cycle = some c → c.src = p → SrcServes c s.src[p] (f s.src[p])) : (modSrc p f s).cycleOk :=
  h.keep rfl (fun c lit => by
    rw [modSrc_getElem]
    split
    · next e => subst e; exact keep c lit rfl
    · exact .of_eq rfl) (fun _ _ => .of_eq rfl) fun _ _ => .of_eq rfl rfl

/-- One order position changes, not what the lit cycle reads of its target. -/
theorem State.cycleOk.ord {s : State} (h : s.cycleOk) {q : Fin 12} {f : OrdPos → OrdPos}
    (keep : ∀ c, s.put.cycle = some c → c.tgt = q → OrdServes s.wall.pos[q] (f s.wall.pos[q])) : (modOrd q f s).cycleOk :=
  h.keep rfl (fun _ _ => .of_eq rfl) (fun _ _ => .of_eq rfl) fun c lit => by
    rw [modOrd_getElem]
    split
    · next e => subst e; exact keep c lit rfl
    · exact .of_eq rfl rfl

/-- Without a cycle nothing is asked. -/
theorem State.cycleOk_of_none {s : State} (dark : s.put.cycle = none) : s.cycleOk := fun c lit => by
  rw [dark] at lit; cases lit

/-! ## The bundle -/

/-- The invariants an operation of a step keeps, with the exposure that has grown since `s₀`; the lit cycle is true to what
it names but where `lit` fails, while it is being ended. -/
structure Sound (s₀ : State) (lit : Prop) (s : State) : Prop where
  offers : s.offersOk
  slots : s.slotsOk
  wall : s.wallOk
  profile : s.profileOk
  places : PlacesOk s
  records : RecordsOk s
  lists : s.listsOk
  surveys : s.surveysOk
  progress : s.progressOk
  grows : exposureGrows s₀ s
  cycle : lit → s.cycleOk

theorem Sound.of_consistent {s : State} (h : s.consistent) : Sound s True s := by
  obtain ⟨offers, slots, -, places, wall, records, -, cycle, -, surveys, lists, profile, -, progress⟩ := h
  exact ⟨offers, slots, wall, profile, (State.placesOk_iff offers).mp places, (s.recordsOk_iff).mp records, lists, surveys,
    progress, exposureGrows_refl offers, fun _ => cycle⟩

/-- What the bundle says of a step. -/
theorem Sound.conclusions {s t : State} (h : Sound s True t) : t.placesOk ∧ t.recordsOk ∧ t.listsOk ∧ t.surveysOk ∧
    t.cycleOk ∧ t.progressOk ∧ exposureGrows s t :=
  ⟨(State.placesOk_iff h.offers).mpr h.places, (t.recordsOk_iff).mpr h.records, h.lists, h.surveys, h.cycle trivial,
    h.progress, h.grows⟩

section
variable {s₀ s t : State} {lit : Prop}

theorem Sound.weaken (h : Sound s₀ lit s) : Sound s₀ False s := { h with cycle := False.elim }

/-- Where no cycle is left, none is asked about. -/
theorem Sound.unlit (h : Sound s₀ lit s) (dark : s.put.cycle = none) (lit' : Prop) : Sound s₀ lit' s :=
  { h with cycle := fun _ => State.cycleOk_of_none dark }

/-- An operation that leaves the positions, the offers, the lines and the cycle record alone. -/
theorem Sound.same (h : Sound s₀ lit s) (kept : Keeps s t) (src : t.src = s.src) (pos : t.wall.pos = s.wall.pos)
    (lines : t.lines = s.lines) (offers : t.offers = s.offers) (cycle : t.put.cycle = s.put.cycle)
    (surveying : t.bench.surveying = s.bench.surveying) (held : t.link.held = s.link.held) : Sound s₀ lit t := by
  have survey : ∀ pos, inSurvey pos t = inSurvey pos s := inSurvey_congr (fun p => by rw [src]) fun q => by rw [pos]
  exact ⟨State.offersOk_of_fixedKept (.of_offers offers) h.offers, kept.slots h.slots, kept.wall h.wall, kept.profile h.profile,
    h.places.of_eq src offers, h.records.of_pos pos, h.lists.of_lines lines fun p run => by rw [survey]; exact run,
    h.surveys.of_fewer (fun p run => by rw [← survey]; exact run) surveying held, h.progress.later (.of_offers offers),
    exposureGrows_later h.grows (.of_offers offers), fun l => (h.cycle l).of_eq cycle src offers pos⟩

/-- An operation that leaves everything but the link alone, the held execution with it. -/
theorem Sound.link (h : Sound s₀ lit s) {l : Link} (held : l.held = s.link.held) : Sound s₀ lit { s with link := l } :=
  h.same (Keeps.same rfl rfl rfl rfl rfl rfl rfl) rfl rfl rfl rfl rfl rfl held

theorem Sound.notify (h : Sound s₀ lit s) (b : NoticeBody) : Sound s₀ lit (notify b s) := by
  rcases notify_cases b s with e | ⟨e, -⟩ | e <;> rw [e]
  · exact h
  · exact h.link rfl
  · exact h.link rfl

theorem Sound.answer (h : Sound s₀ lit s) (r : Request) (b : ReplyBody) : Sound s₀ lit (answer r b s) := h.link rfl

/-- An update of one source position that leaves its slots' states and names, and its survey timer. -/
theorem Sound.src (h : Sound s₀ lit s) {p : Fin 4} {f : SrcPos → SrcPos} (kept : Keeps s (modSrc p f s))
    (slots : ∀ sl, (f s.src[p]).stage sl = s.src[p].stage sl ∧ (f s.src[p]).named sl = s.src[p].named sl)
    (survey : (f s.src[p]).surveyT = s.src[p].surveyT)
    (face : lit → ∀ c, s.put.cycle = some c → c.src = p → SrcServes c s.src[p] (f s.src[p])) :
    Sound s₀ lit (modSrc p f s) := by
  have same : ∀ pos, inSurvey pos (modSrc p f s) = inSurvey pos s := inSurvey_congr (fun p' => by
    rw [modSrc_getElem]
    split
    · next e => subst e; rw [survey]
    · rfl) fun q => rfl
  exact ⟨h.offers, kept.slots h.slots, h.wall, h.profile, h.places.src slots, h.records.of_pos rfl,
    h.lists.of_lines rfl fun pos run => by rw [same]; exact run,
    h.surveys.of_fewer (fun pos run => by rw [← same]; exact run) rfl rfl, h.progress, h.grows, fun l => (h.cycle l).src (face l)⟩

/-- An update of one order position that keeps its record, its survey timer, and what the lit cycle reads of it. -/
theorem Sound.ord (h : Sound s₀ lit s) {q : Fin 12} {f : OrdPos → OrdPos} (kept : Keeps s (modOrd q f s))
    (heir : s.wall.pos[q].RecordOk → s.wall.pos[q].Heir (f s.wall.pos[q]))
    (survey : (f s.wall.pos[q]).surveyT = s.wall.pos[q].surveyT)
    (serves : lit → ∀ c, s.put.cycle = some c → c.tgt = q → OrdServes s.wall.pos[q] (f s.wall.pos[q])) :
    Sound s₀ lit (modOrd q f s) := by
  have same : ∀ pos, inSurvey pos (modOrd q f s) = inSurvey pos s := inSurvey_congr (fun p => rfl) fun q' => by
    rw [modOrd_getElem]
    split
    · next e => subst e; rw [survey]
    · rfl
  exact ⟨h.offers, h.slots, kept.wall h.wall, h.profile, h.places.of_eq rfl rfl, h.records.ord heir,
    h.lists.of_lines rfl fun pos run => by rw [same]; exact run,
    h.surveys.of_fewer (fun pos run => by rw [← same]; exact run) rfl rfl, h.progress, h.grows,
    fun l => (h.cycle l).ord (serves l)⟩

/-- A record changed apart from what it is known by, within its caps. -/
theorem Sound.record (h : Sound s₀ lit s) {q : Fin 12} {f : Rec → Rec} (same : ∀ r, (f r).tote = r.tote ∧ (f r).ref = r.ref)
    (charges : ∀ r, s.wall.pos[q].record = some r → r.chargesOk = true → (f r).chargesOk = true)
    (baseline : ∀ r, r.baseline.isSome = true → (f r).baseline.isSome = true)
    (serves : lit → ∀ c, s.put.cycle = some c → c.tgt = q →
      ∀ r, s.wall.pos[q].record = some r → r.cond = .clean → (f r).serving = r.serving) :
    Sound s₀ lit (modRec q f s) :=
  h.ord (keepsClosed.record q f s) (fun ok => ok.heir_of_map rfl id (fun r _ => same r) charges baseline) rfl
    fun l c on at' active r here clean =>
      ⟨active, f r, (congrArg (Option.map f) here).trans rfl, serves l c on at' r here clean⟩

/-- An order that a line carries, but SURVEY, is handed to it. -/
theorem Sound.hand (h : Sound s₀ lit s) {pos : Pos} {o : Order} (fits : o.fits pos = true) (plain : o ≠ .survey) :
    Sound s₀ lit (handOrder pos o s) := by
  have kept := keepsClosed.hand pos o s
  have survey := fun pos' => inSurvey_handOrder pos pos' o s
  exact ⟨State.offersOk_of_fixedKept (fixedKeptClosed.hand pos o s) h.offers, kept.slots h.slots, kept.wall h.wall,
    kept.profile h.profile, h.places.of_eq (handOrder_src ..) (handOrder_offers ..), h.records.of_pos (by rw [handOrder_wall]),
    h.lists.hand fits plain, h.surveys.of_fewer (fun p run => by rw [← survey]; exact run) (by rw [handOrder_bench])
      (by rw [handOrder_link]),
    h.progress.later (.of_offers (handOrder_offers ..)), exposureGrows_later h.grows (.of_offers (handOrder_offers ..)),
    fun l => (h.cycle l).of_eq (by rw [handOrder_put]) (handOrder_src ..) (handOrder_offers ..) (by rw [handOrder_wall])⟩

/-- An update of one field line's list. -/
theorem Sound.lines (h : Sound s₀ lit s) {i : Fin 16} {f : FieldLine → FieldLine} (lists : (modLine i f s).listsOk) :
    Sound s₀ lit (modLine i f s) :=
  ⟨h.offers, h.slots, h.wall, h.profile, h.places.of_eq rfl rfl, h.records.of_pos rfl, lists,
    h.surveys.of_fewer (fun pos run => by rw [inSurvey_modLine] at run; exact run) rfl rfl, h.progress, h.grows,
    fun l => (h.cycle l).of_eq rfl rfl rfl rfl⟩

theorem Sound.clear (h : Sound s₀ lit s) (pos : Pos) : Sound s₀ lit (clearLine pos s) := h.lines (h.lists.clear pos)

/-- An operation that moves slots of one position with their offers, handing orders on the way. -/
theorem Sound.moved (h : Sound s₀ lit s) (kept : Keeps s t) (fixed : FixedKept s t) (places : PlacesOk t)
    (pos : t.wall.pos = s.wall.pos) (lists : t.listsOk) (survey : ∀ p : Fin 4, t.src[p].surveyT = s.src[p].surveyT)
    (surveying : t.bench.surveying = s.bench.surveying) (held : t.link.held = s.link.held) (later : OffersLater s t)
    (cycle : lit → t.cycleOk) : Sound s₀ lit t := by
  have same : ∀ pos, inSurvey pos t = inSurvey pos s := inSurvey_congr (fun p => by rw [survey p]) fun q => by rw [pos]
  exact ⟨State.offersOk_of_fixedKept fixed h.offers, kept.slots h.slots, kept.wall h.wall, kept.profile h.profile, places,
    h.records.of_pos pos, lists, h.surveys.of_fewer (fun p run => by rw [← same]; exact run) surveying held,
    h.progress.later later, exposureGrows_later h.grows later, cycle⟩

end

end Sys2Proof.Machine

namespace Sys2Proof.Machine

/-!
The shared operations keep the bundle of invariants: notices and full marks, orphan timers, closing and draining, lights.
-/

/-! ## Slots that name no offer -/

/-- A slot whose state goes with no offer state names none (R22). -/
theorem SrcPos.SlotsOk.named_none {x : SrcPos} (h : x.SlotsOk) {sl : Slot} (free : x.stage sl = none) : x.named sl = none := by
  have face := h.face
  have lane := h.lane
  simp only [Face.ok, Lane.ok, Bool.and_eq_true] at face lane
  cases sl with
  | face =>
    have names := face.2
    unfold Face.namesOk at names
    unfold SrcPos.stage at free
    cases e : x.face.state <;> rw [e] at free names <;> simp_all [FaceState.stage, SrcPos.named]
  | lane =>
    have names := lane.2
    unfold Lane.namesOk at names
    unfold SrcPos.stage at free
    cases e : x.lane.state <;> rw [e] at free names <;> simp_all [LaneState.stage, SrcPos.named]

theorem SrcPos.stage_of_bothEmpty {x : SrcPos} (h : x.bothEmpty = true) (sl : Slot) : x.stage sl = none := by
  obtain ⟨face, lane⟩ := (SrcPos.bothEmpty_iff x).mp h
  cases sl with
  | face => unfold SrcPos.stage; rw [face] <;> rfl
  | lane => unfold SrcPos.stage; rw [lane] <;> rfl

section
variable {s₀ s t : State} {lit : Prop}

theorem Sound.slot (h : Sound s₀ lit s) (p : Fin 4) : s.src[p].SlotsOk := (SrcPos.slotsOk_iff _).mp (h.slots p)

theorem Sound.items (h : Sound s₀ lit s) (q : Fin 12) : s.wall.pos[q].ItemsOk := (OrdPos.itemsOk_iff _).mp (h.wall q)

/-- What each step of a fold keeps, the fold keeps. -/
theorem Sound.foldl {α : Type} {f : State → α → State} (step : ∀ {s : State} (a : α), Sound s₀ lit s → Sound s₀ lit (f s a))
    (l : List α) (h : Sound s₀ lit s) : Sound s₀ lit (l.foldl f s) := by
  induction l generalizing s with
  | nil => exact h
  | cons a l ih => exact ih (step a h)

/-! ## Notices and full marks -/

theorem soundNote (s₀ : State) (lit : Prop) : ClosedNote fun s t => Sound s₀ lit s → Sound s₀ lit t where
  refl _ := id
  trans h k := fun x => k (h x)
  notice _ _ h := h.link rfl
  lost _ h := h.link rfl
  full _ _ _ h := h.record (fun _ => ⟨rfl, rfl⟩) (fun _ _ ok => ok) (fun _ => id) fun _ _ _ _ _ _ _ => rfl

/-! ## The orphan judgement (R38) -/

theorem Sound.stopOrphan (h : Sound s₀ lit s) (p : Fin 4) : Sound s₀ lit (stopOrphan p s) :=
  h.src (keepsClosed.orphanOff p s) (fun sl => by cases sl <;> exact ⟨rfl, rfl⟩) rfl
    fun _ _ _ _ present named _ => ⟨present, named, rfl⟩

/-- The timer starts where the face is not the lit source. -/
theorem Sound.startOrphan (h : Sound s₀ lit s) {p : Fin 4} (present : s.src[p].face.state = .present)
    (notLit : isLitSource p s = false) : Sound s₀ lit (startOrphan p s) :=
  h.src (keepsClosed.orphanOn p _ s present) (fun sl => by cases sl <;> exact ⟨rfl, rfl⟩) rfl
    fun _ c on e => absurd e (isLitSource_eq_false.mp notLit c on)

theorem isLitSource_congr (h : t.put = s.put) (p : Fin 4) : isLitSource p t = isLitSource p s := by
  unfold isLitSource
  rw [h]

theorem Sound.judgeOrphan (h : Sound s₀ lit s) (p : Fin 4) : Sound s₀ lit (judgeOrphan p s) := by
  unfold Machine.judgeOrphan
  split
  · next here =>
    split
    · exact h.stopOrphan p
    · next o _ =>
      split
      · have judged := (soundNote s₀ lit).firstServeable o.temp 0 o.lines s h
        obtain ⟨-, -, -, src, put, -⟩ := noteFrame.firstServeable o.temp 0 o.lines s
        split
        · next e => rw [e] at judged; exact judged.stopOrphan p
        · next e =>
          rw [e] at judged src put
          exact judged.startOrphan (by rw [src]; exact here.1) ((isLitSource_congr put p).trans here.2)
      · exact h.stopOrphan p
  · exact h.stopOrphan p

theorem Sound.judgeOrphans (h : Sound s₀ lit s) : Sound s₀ lit (judgeOrphans s) :=
  Sound.foldl (fun p h => h.judgeOrphan p) srcIndices h

/-! ## Closing and draining (R39, R42, R139) -/

theorem Sound.judgeDrain (h : Sound s₀ lit s) : Sound s₀ lit (judgeDrain s) := by
  unfold Machine.judgeDrain
  split
  · next g => exact (h.same (keepsClosed.drained s g.1 (all_bothEmpty.mp g.2)) rfl rfl rfl rfl rfl rfl rfl).notify _
  · exact h

/-- A position with both slots EMPTY loses nothing with its slot states. -/
theorem Sound.blankEmpty (h : Sound s₀ lit s) {p : Fin 4} (empty : s.src[p].bothEmpty = true) {st : SrcState} {c : Option Cause}
    (cause : c.isSome = true ↔ st = .faulted) (goes : st = .closed ∨ st = .faulted) :
    Sound s₀ lit (modSrc p (fun x => x.blank st c) s) :=
  h.src (keepsClosed.blank p st c s cause goes) (fun sl => by
      have stage := SrcPos.stage_of_bothEmpty empty sl
      have named := (h.slot p).named_none stage
      rw [stage, named]
      cases sl <;> exact ⟨rfl, rfl⟩) rfl
    fun _ _ _ _ present => absurd (((SrcPos.bothEmpty_iff _).mp empty).1.symm.trans present) (by decide)

theorem Sound.closeSrc (h : Sound s₀ lit s) {p : Fin 4} (empty : s.src[p].bothEmpty = true) : Sound s₀ lit (closeSrc p s) :=
  (h.blankEmpty empty (by simp) (.inl rfl)).notify _

theorem Sound.synced (h : Sound s₀ lit s) (p : Fin 4) (d : Nat) : Sound s₀ lit (modSrc p (fun x => x.synced d) s) := by
  have same : (s.src[p].synced d).face = s.src[p].face ∧ (s.src[p].synced d).lane = s.src[p].lane ∧
      (s.src[p].synced d).surveyT = s.src[p].surveyT := by
    unfold SrcPos.synced
    split <;> exact ⟨rfl, rfl, rfl⟩
  obtain ⟨face, lane, survey⟩ := same
  refine h.src (keepsClosed.sync p d s) (fun sl => ?_) survey fun _ _ _ _ => .of_eq face
  cases sl with
  | face => exact ⟨congrArg (fun f => f.state.stage) face, congrArg (fun f => f.offer) face⟩
  | lane => exact ⟨congrArg (fun l => l.state.stage) lane, congrArg (fun l => l.offer) lane⟩

theorem Sound.slotSettled (h : Sound s₀ lit s) (p : Fin 4) : Sound s₀ lit (slotSettled p s) := by
  unfold Machine.slotSettled
  dsimp only
  refine Sound.judgeDrain ?_
  have synced := h.synced p s.prof.profile.laneDepth[p]
  split
  · next closing => exact synced.closeSrc closing.2
  · exact synced

/-- An order position that is not ACTIVE, and so not the target of the lit cycle, is closed. -/
theorem Sound.closeOrd (h : Sound s₀ lit s) {q : Fin 12} (away : s.wall.pos[q].state ≠ .active) : Sound s₀ lit (closeOrd q s) :=
  (h.ord (keepsClosed.shut q s) (fun _ r here => by cases here) rfl
    fun _ _ _ _ active => absurd active away).notify _

/-! ## Remove lights (R70) -/

theorem Sound.setLight (h : Sound s₀ lit s) {q : Fin 12} {b : Bool} (at' : b = true → s.wall.pos[q].state = .active) :
    Sound s₀ lit (modOrd q (OrdPos.setLight b) s) :=
  h.ord (keepsClosed.light q b s at') (fun ok => ok.heir_of_same rfl id) rfl fun _ _ _ _ => .of_eq rfl rfl

theorem Sound.lightOff (h : Sound s₀ lit s) (q : Fin 12) : Sound s₀ lit (lightOff q s) := by
  unfold Machine.lightOff
  split
  · exact (h.setLight (by simp)).hand rfl (by simp)
  · exact h

theorem Sound.lightOn (h : Sound s₀ lit s) {q : Fin 12} (at' : s.wall.pos[q].state = .active) : Sound s₀ lit (lightOn q s) := by
  unfold Machine.lightOn
  split
  · exact h
  · exact (h.setLight fun _ => at').hand rfl (by simp)

/-! ## The last-served pointer and offers that go -/

theorem Sound.clearServed (h : Sound s₀ lit s) (n : Nat) : Sound s₀ lit (clearServed n s) := by
  obtain ⟨src, wall, lines, bench, offers, -, -, link, -⟩ := clearServed_fields n s
  exact h.same (Keeps.served n s) src (by rw [wall]) lines offers (clearServed_cycle n s) (by rw [bench]) (by rw [link])

/-- The face of the lit source names the offer of the cycle. -/
theorem Sound.litNamed (h : Sound s₀ lit s) (l : lit) {c : Cycle} (on : s.put.cycle = some c) :
    s.src[c.src].named .face = some c.offer := by
  obtain ⟨-, -, named, -⟩ := h.cycle l c on
  exact named

/-- The source of the lit cycle is PRESENT, and so is its offer. -/
theorem Sound.litPresent (h : Sound s₀ lit s) (l : lit) {c : Cycle} (on : s.put.cycle = some c) :
    s.src[c.src].face.state = .present ∧ ∃ o, findOffer c.offer s = some o ∧ o.state = .present := by
  obtain ⟨-, present, -, -, o, -, -, -, found, here, -⟩ := h.cycle l c on
  exact ⟨present, o, found, here⟩

theorem OfferServes.filter {c : Cycle} {n : Nat} (ne : c.offer ≠ n) (offers : t.offers = s.offers.filter fun o => o.tote != n) :
    OfferServes c s t := fun o found here => by
  refine ⟨o, ?_, here, rfl⟩
  unfold findOffer at found ⊢
  rw [offers, List.find?_filter, ← found]
  congr 1
  funext x
  by_cases e : x.tote = c.offer
  · have : x.tote ≠ n := fun k => ne (e.symm.trans k)
    simp [e, ne]
  · simp [e]

theorem OfferServes.modOffer {c : Cycle} {n : Nat} {f : Offer → Offer}
    (offers : t.offers = s.offers.map fun o => if o.tote = n then f o else o) (tote : ∀ o, (f o).tote = o.tote)
    (keep : c.offer = n → ∀ o, findOffer n s = some o → o.state = .present → (f o).state = .present ∧ (f o).lines = o.lines) :
    OfferServes c s t := fun o found here => by
  have there : findOffer c.offer t = (findOffer c.offer s).map fun o => if o.tote = n then f o else o := by
    rw [← findOffer_modOffer tote s c.offer]
    exact findOffer_congr (s := Machine.modOffer n f s) offers c.offer
  rw [there, found]
  by_cases e : o.tote = n
  · have is : c.offer = n := (findOffer_tote found).symm.trans e
    obtain ⟨state, lines⟩ := keep is o (is ▸ found) here
    exact ⟨f o, by simp [e], state, lines⟩
  · exact ⟨o, by simp [e], here, rfl⟩

/-- An offer that no slot names goes. -/
theorem Sound.dropOffer (h : Sound s₀ lit s) {n : Nat} (free : ∀ (p : Fin 4) (sl : Slot), s.src[p].named sl ≠ some n) :
    Sound s₀ lit (dropOffer n s) := by
  obtain ⟨src, lines, -, cycle, offers⟩ := dropOffer_fields n s
  obtain ⟨-, wall, -, bench, -, -, -, link, -⟩ := clearServed_fields n (eraseOffer n s)
  have pos : (Machine.dropOffer n s).wall.pos = s.wall.pos := congrArg Wall.pos wall
  have survey : ∀ p : Fin 4, (Machine.dropOffer n s).src[p].surveyT = s.src[p].surveyT := fun p => by rw [src]
  refine h.moved (Keeps.drop n s) (FixedKept.drop n s) (h.places.erase free src offers) pos (h.lists.of_lines lines fun pos' run => ?_)
    survey (congrArg Bench.surveying bench) (congrArg Link.held link) (.filter offers) fun l => ?_
  · exact (inSurvey_congr (fun p => congrArg Option.isSome (survey p)) (fun q => by rw [pos]) pos').trans run
  · refine (h.cycle l).keep cycle (fun c _ => .of_eq (by rw [src])) (fun c on => ?_) fun _ _ => .of_eq (by rw [pos]) (by rw [pos])
    exact .filter (fun e => free c.src .face ((h.litNamed l on).trans (congrArg some e))) offers

end

end Sys2Proof.Machine

namespace Sys2Proof.Machine

/-!
Arbitrations and releases keep the bundle of invariants (R17, R21, R33, R37, R48 to R52).
-/

section
variable {s₀ s t : State} {lit : Prop}

/-! ## One position's slots change, with their offers -/

/-- Slots of one position move with their offers; the face of the lit source stays. -/
theorem Sound.slotMoved (h : Sound s₀ lit s) (kept : Keeps s t) (fixed : FixedKept s t) {p : Fin 4} {y : SrcPos}
    (src : t.src = s.src.set p y) (survey : y.surveyT = s.src[p].surveyT) (places : PlacesOk t)
    (pos : t.wall.pos = s.wall.pos) (lists : t.listsOk) (surveying : t.bench.surveying = s.bench.surveying)
    (held : t.link.held = s.link.held) (later : OffersLater s t) (cycle : t.put.cycle = s.put.cycle)
    (face : lit → ∀ c, s.put.cycle = some c → c.src = p → y.face = s.src[p].face)
    (serves : lit → ∀ c, s.put.cycle = some c → OfferServes c s t) : Sound s₀ lit t := by
  have here : ∀ p' : Fin 4, t.src[p'] = if p = p' then y else s.src[p'] := fun p' => by
    rw [src]
    split
    · next e => subst e; exact Vector.getElem_set_self _
    · next ne => exact Vector.getElem_set_ne _ _ fun e => ne (Fin.ext e)
  refine h.moved kept fixed places pos lists (fun p' => ?_) surveying held later fun l => ?_
  · rw [here]
    split
    · next e => subst e; exact survey
    · rfl
  · refine (h.cycle l).keep cycle (fun c on => ?_) (serves l) fun _ _ => .of_eq (by rw [pos]) (by rw [pos])
    rw [here]
    split
    · next e => subst e; exact .of_eq (face l c on rfl)
    · exact .of_eq rfl

/-- The surveys in progress where one position's survey timer stays. -/
theorem inSurvey_of_slotMoved {p : Fin 4} {y : SrcPos} (src : t.src = s.src.set p y) (survey : y.surveyT = s.src[p].surveyT)
    (pos : t.wall.pos = s.wall.pos) (pos' : Pos) : inSurvey pos' t = inSurvey pos' s :=
  inSurvey_congr (fun p' => by
    rw [src]
    by_cases e : p = p'
    · subst e; exact congrArg Option.isSome ((congrArg SrcPos.surveyT (Vector.getElem_set_self _)).trans survey)
    · exact congrArg Option.isSome (congrArg SrcPos.surveyT (Vector.getElem_set_ne _ _ fun k => e (Fin.ext k))))
    (fun q => by rw [pos]) pos'

theorem notify_held (b : NoticeBody) (s : State) : (notify b s).link.held = s.link.held := by
  rcases notify_cases b s with e | ⟨e, -⟩ | e <;> rw [e] <;> rfl

/-! ## Arbitration -/

theorem Sound.dropExposed (h : Sound s₀ lit s) {o : Offer} (free : ∀ (p : Fin 4) (sl : Slot), s.src[p].named sl ≠ some o.tote) :
    Sound s₀ lit (dropExposed s o) := by
  unfold Machine.dropExposed notifyRelease
  exact (h.dropOffer free).notify _

theorem dropExposed_src (s : State) (o : Offer) : (dropExposed s o).src = s.src :=
  (notify_src ..).trans (dropOffer_fields o.tote s).1

theorem Sound.foldl_dropExposed (h : Sound s₀ lit s) {l : List Offer}
    (free : ∀ o ∈ l, ∀ (p : Fin 4) (sl : Slot), s.src[p].named sl ≠ some o.tote) :
    Sound s₀ lit (l.foldl Machine.dropExposed s) := by
  induction l generalizing s with
  | nil => exact h
  | cons o l ih =>
    refine ih (h.dropExposed (free o List.mem_cons_self)) fun o' ho' p sl => ?_
    rw [dropExposed_src]
    exact free o' (List.mem_cons_of_mem _ ho') p sl

/-- A WAITING offer is called to a callable slot. -/
theorem Sound.grant (h : Sound s₀ lit s) {p : Fin 4} {sl : Slot} {o : Offer} (call : callable p sl s = true) (ho : o ∈ s.offers)
    (able : eligible p o s = true) (c : ReqClass) : Sound s₀ lit (grant p sl o c s) := by
  obtain ⟨waiting, -, cold⟩ := (eligible_iff p o s).mp able
  obtain ⟨-, -, -, -, empty⟩ := callable_iff.mp call
  obtain ⟨-, wall, put, -, bench, -, lines, -⟩ := grant_frame p sl o c s
  have src := grant_src p sl o c s
  have offers := grant_offers p sl o c s
  have free : s.src[p].stage sl = none := by
    cases sl with
    | face => exact congrArg FaceState.stage empty
    | lane => exact congrArg LaneState.stage empty.2.2
  have pos : (Machine.grant p sl o c s).wall.pos = s.wall.pos := congrArg Wall.pos wall
  have survey : (s.src[p].called sl o.tote (s.prof.profile.callTimeout * 10)).surveyT = s.src[p].surveyT := by cases sl <;> rfl
  have exposed : ∀ e, o.exposure = some e → (s.prof.profile.travelCharge + s.prof.profile.minDwell) * 10 ≤ e.remaining ∨
      o.temp = .ambient := fun e he => by
    by_cases amb : o.temp = .ambient
    · exact .inr amb
    · exact .inl ((passesExposure_iff o _).mp (cold amb).2.2 e he)
  have later : o.Later (o.granted p sl s.prof.profile) := by
    by_cases amb : o.temp = .ambient
    · have none : o.exposure = none := by
        have cold := ((o.progressOk_iff).mp (h.progress o ho)).cold
        rw [amb] at cold
        simpa [Temp.isCold] using cold
      exact .granted (fun e he => by rw [none] at he; cases he) p sl
    · exact .granted (fun e he => (exposed e he).resolve_right amb) p sl
  refine h.slotMoved (keepsClosed.toArb.grant call ho able c) (fixedKeptClosed.toArb.grant call ho able c) src survey ?_ pos
    (h.lists.of_lines lines fun pos' run => (inSurvey_of_slotMoved src survey pos pos').trans run)
    (congrArg Bench.surveying bench) ?_ (.modOffer offers fun x hx e => ?_) (congrArg PutSeq.cycle put) (fun l k on at' => ?_)
    fun l k on => ?_
  · refine h.places.called h.offers ho waiting ((h.slot p).named_none free) src offers (by cases sl <;> exact ⟨rfl, rfl⟩)
      (by cases sl <;> rfl) (by cases sl <;> rfl) rfl rfl fun timed => ?_
    have reason : o.reason.isSome = false := by
      have := timed.reason
      rw [waiting] at this
      simpa using this
    exact ⟨by rw [show (o.granted p sl s.prof.profile).reason = o.reason from rfl, reason]; simp [Offer.granted],
      fun e => (by cases e), fun e => absurd (timed.presented e) (by rw [waiting]; decide)⟩
  · rw [grant_link, notify_held]
  · rw [h.offers.eq_of_tote hx ho e]
    exact later
  · subst at'
    cases sl with
    | face => exact absurd (empty.symm.trans (h.litPresent l on).1) (by decide)
    | lane => rfl
  · refine .modOffer offers (fun _ => rfl) fun e x found here => ?_
    rw [h.offers.eq_of_tote (findOffer_mem found) ho (findOffer_tote found), waiting] at here
    cases here

theorem Sound.considerSlot (h : Sound s₀ lit s) (x : Fin 4 × Slot) : Sound s₀ lit (considerSlot s x) := by
  unfold Machine.considerSlot
  split
  · next call =>
    split
    · exact h
    · next o c e =>
      obtain ⟨ho, able, -⟩ := mem_of_chooseOffer e
      exact h.grant call ho able c
  · exact h

theorem Sound.arbitrate (h : Sound s₀ lit s) : Sound s₀ lit (arbitrate s) := by
  have free : ∀ o ∈ failingOffers s, ∀ (p : Fin 4) (sl : Slot), s.src[p].named sl ≠ some o.tote := fun o ho => by
    obtain ⟨mem, fails⟩ := List.mem_filter.mp ho
    simp only [Bool.and_eq_true, decide_eq_true_eq] at fails
    exact h.places.unnamed h.offers mem fails.1.2
  unfold Machine.arbitrate
  split
  · exact Sound.foldl (fun x h => h.considerSlot x) slotOrder (h.foldl_dropExposed free)
  · exact h

/-! ## Releases (R17, R32, R33, R37) -/

theorem Sound.releaseSlot (h : Sound s₀ lit s) {p : Fin 4} {sl : Slot} {n : Nat} (named : s.src[p].named sl = some n)
    (away : sl = .face → isLitSource p s = false) (r : Reason) : Sound s₀ lit (releaseSlot p sl n r s) := by
  cases out : s.src[p].releasable sl with
  | false => rw [releaseSlot_of_not out]; exact h
  | true =>
    obtain ⟨o, ho, rfl, -⟩ := h.places.named p sl n named
    have found := h.offers.findOffer_eq ho
    have kept := keepsClosed.releaseSlot p sl o.tote r s
    have fixed := fixedKeptClosed.releaseSlot p sl o.tote r s
    rw [releaseSlot_eq out found] at kept fixed ⊢
    obtain ⟨put, -, link, -, wall, -, bench, -⟩ := orderedOut_frame p sl o.tote r s
    have src := orderedOut_src p sl o.tote r s
    have offers := orderedOut_offers p sl o.tote r s
    have lines := orderedOut_lines p sl o.tote r s
    have survey : (s.src[p].leaving sl (some o.tote) none (s.prof.profile.leaveTimeout * 10)).surveyT = s.src[p].surveyT := by
      cases sl <;> rfl
    generalize orderedOut p sl o.tote r s = u at *
    have src' : (Machine.notify (.release (some o.tote) r (some (p, sl)) o.remainingSeconds o.summary) u).src =
        s.src.set p (s.src[p].leaving sl (some o.tote) none (s.prof.profile.leaveTimeout * 10)) := (notify_src ..).trans src
    have pos : (Machine.notify (.release (some o.tote) r (some (p, sl)) o.remainingSeconds o.summary) u).wall.pos = s.wall.pos := by
      rw [notify_wall, wall]
    have handed := h.lists.hand (pos := .src p) (o := .gate (exitGate sl)) (by cases sl <;> rfl) (by simp)
    refine h.slotMoved kept fixed src' survey ?_ pos (handed.of_lines ((notify_lines ..).trans lines) fun pos' run => ?_)
      (by rw [notify_bench, bench]) (by rw [notify_held, link]) (.modOffer ((notify_offers ..).trans offers) fun _ _ _ => ?_)
      (by rw [notify_put, put]) (fun l c on at' => ?_) fun l c on => ?_
    · refine h.places.relabel h.offers named src' ((notify_offers ..).trans offers) (by cases sl <;> rfl)
        (by cases sl <;> exact ⟨rfl, rfl⟩) fun x _ e place _ timed => ⟨e, place, (by cases sl <;> rfl), ⟨?_, ?_, ?_⟩⟩
      · simp [Offer.orderedOut]
      · intro e; cases e
      · intro _; exact .inr rfl
    · rw [inSurvey_handOrder] at run
      exact (inSurvey_of_slotMoved src' survey pos pos').trans run
    · exact .of_same rfl rfl rfl rfl
    · subst at'
      cases sl with
      | face => exact absurd rfl (isLitSource_eq_false.mp (away rfl) c on)
      | lane => rfl
    · refine .modOffer ((notify_offers ..).trans offers) (fun _ => rfl) fun e => ?_
      obtain ⟨rfl, rfl⟩ := h.places.unique h.offers ((h.litNamed l on).trans (congrArg some e)) named
      exact absurd rfl (isLitSource_eq_false.mp (away rfl) c on)

theorem Sound.holdRelease (h : Sound s₀ lit s) {p : Fin 4} (adv : s.src[p].face.state = .advancing) (r : HeldRelease) :
    Sound s₀ lit (modSrc p (SrcPos.holdRelease r) s) :=
  h.src (keepsClosed.holdRelease p r s adv) (fun sl => by cases sl <;> exact ⟨rfl, rfl⟩) rfl
    fun _ _ _ _ present => absurd (adv.symm.trans present) (by decide)

/-- The slot at which an offer stands names it. -/
theorem Sound.named_of_place (h : Sound s₀ lit s) {o : Offer} (ho : o ∈ s.offers) {p : Fin 4} {sl : Slot}
    (place : o.place = some (p, sl)) : s.src[p].named sl = some o.tote ∧ s.src[p].stage sl = some o.state := by
  rcases h.places.stands o ho with ⟨-, none⟩ | ⟨p', sl', place', stage, named⟩
  · rw [none] at place; cases place
  · rw [place] at place'
    obtain ⟨rfl, rfl⟩ := Prod.mk.inj (Option.some.inj place')
    exact ⟨named, stage⟩

theorem Sound.askRelease (h : Sound s₀ lit s) (n : Nat) (r : HeldRelease) : Sound s₀ lit (askRelease n r s) := by
  have named : ∀ p sl, ((findOffer n s).bind fun o => o.place) = some (p, sl) → s.src[p].named sl = some n := fun p sl e => by
    obtain ⟨o, found, place⟩ := Option.bind_eq_some_iff.mp e
    rw [← findOffer_tote found]
    exact (h.named_of_place (findOffer_mem found) place).1
  unfold Machine.askRelease
  split
  · exact h
  · next p e =>
    split
    · split
      · exact h
      · next notLit => exact h.releaseSlot (named p .face e) (fun _ => by simpa using notLit) _
    · next adv => exact h.holdRelease adv r
    · exact h
  · next p e =>
    split
    · exact h.releaseSlot (named p .lane e) (fun k => by cases k) _
    · exact h

theorem Sound.judgeFace (h : Sound s₀ lit s) (p : Fin 4) : Sound s₀ lit (judgeFace p s) := by
  unfold Machine.judgeFace
  split
  · next here =>
    split
    · exact h
    · next o found =>
      split
      · exact h.judgeOrphan p
      · exact h.releaseSlot (sl := .face) (faceOffer_iff.mp found).1 (fun _ => here.2) _
  · exact h

end

end Sys2Proof.Machine

namespace Sys2Proof.Machine

/-!
A put cycle keeps the bundle of invariants: its beginning, its units, its end and its cancellation (R78, R82 to R98).
-/

section
variable {s₀ s t : State} {lit : Prop}

/-! ## The picker and the put sequencer -/

/-- An operation on the picker and the put grace timer. -/
theorem Sound.parts (h : Sound s₀ lit s) {pk : Picker} {pt : PutSeq} (cycle : pt.cycle = s.put.cycle) :
    Sound s₀ lit { s with picker := pk, put := pt } :=
  h.same (Keeps.same rfl rfl rfl rfl rfl rfl rfl) rfl rfl rfl rfl cycle rfl rfl

theorem Sound.setIdleT (h : Sound s₀ lit s) (n : Option Nat) : Sound s₀ lit (setIdleT n s) := h.parts (pt := s.put) rfl

theorem Sound.startIdle (h : Sound s₀ lit s) : Sound s₀ lit (startIdle s) := by
  unfold Machine.startIdle
  split
  · exact h.setIdleT _
  · exact h

theorem Sound.stopIdle (h : Sound s₀ lit s) : Sound s₀ lit (stopIdle s) := h.setIdleT none

theorem Sound.setPicker (h : Sound s₀ lit s) (c : PickerCond) (k : PickerCause) : Sound s₀ lit (setPicker c k s) :=
  Sound.notify (h.parts (pt := s.put) rfl) _

theorem Sound.setGraceT (h : Sound s₀ lit s) (n : Option Nat) : Sound s₀ lit (setGraceT n s) :=
  h.parts (pk := s.picker) rfl

/-- The put sequencer changed, with a cycle that serves where one is asked about. -/
theorem Sound.relit (h : Sound s₀ lit s) {pt : PutSeq} {lit' : Prop} (cycle : lit' → ({ s with put := pt } : State).cycleOk) :
    Sound s₀ lit' { s with put := pt } :=
  ⟨h.offers, h.slots, h.wall, h.profile, h.places.of_eq rfl rfl, h.records.of_pos rfl, h.lists, h.surveys, h.progress, h.grows,
    cycle⟩

/-- The cycle record is replaced by one that serves. -/
theorem Sound.putCycle (h : Sound s₀ lit s) {c : Cycle} {lit' : Prop} (serves : lit' → c.serves s) :
    Sound s₀ lit' (putCycle c s) :=
  h.relit fun l c' on => by
    cases on
    exact serves l

theorem Sound.deleteCycle (h : Sound s₀ lit s) (lit' : Prop) : Sound s₀ lit' (deleteCycle s) :=
  h.relit fun _ => State.cycleOk_of_none rfl

/-! ## The lights of a cycle (R85, R86) -/

theorem Sound.lightSource (h : Sound s₀ lit s) (c : Cycle) (w : Show) : Sound s₀ lit (lightSource c w s) :=
  Sound.hand h rfl (by simp)

theorem Sound.lightTarget (h : Sound s₀ lit s) {c : Cycle} (comp : c.comp < 6) (w : Show) : Sound s₀ lit (lightTarget c w s) :=
  Sound.hand h (decide_eq_true comp) (by simp)

theorem Sound.darkCycle (h : Sound s₀ lit s) {c : Cycle} (comp : c.comp < 6) (f : Option Pos) :
    Sound s₀ lit (darkCycle c f s) := by
  have source : Sound s₀ lit (if f = some (.src c.src) then s else Machine.lightSource c .dark s) := by
    split
    · exact h
    · exact h.lightSource c .dark
  unfold Machine.darkCycle
  dsimp only
  generalize (if f = some (.src c.src) then s else Machine.lightSource c .dark s) = u at source
  split
  · exact source
  · exact source.lightTarget comp .dark

theorem Sound.dimmed (h : Sound s₀ lit s) {c : Cycle} (comp : c.comp < 6) (f : Option Pos) : Sound s₀ lit (dimmed c f s) := by
  unfold Machine.dimmed
  split
  · exact h
  · exact h.darkCycle comp f

/-- The compartment of a cycle that serves is one of six. -/
theorem Sound.comp_lt (h : Sound s₀ lit s) {c : Cycle} (serves : c.serves s) : c.comp < 6 := by
  obtain ⟨-, -, -, -, -, -, r, k, -, -, -, -, -, -, -, record, -, -, -, at', -⟩ := serves
  exact Rec.comp_lt ((h.records.held c.tgt) r record).1 at'

/-- A cycle that goes on takes its new record (R85). -/
theorem Sound.updateCycle (h : Sound s₀ lit s) {new : Cycle} (serves : new.serves s) (old : Cycle) {lit' : Prop} :
    Sound s₀ lit' (updateCycle old new s) := by
  have comp := h.comp_lt serves
  have put : Sound s₀ lit' (Machine.putCycle new s) := h.putCycle fun _ => serves
  have source : Sound s₀ lit' (if old.sourceShow = new.sourceShow then Machine.putCycle new s
      else Machine.lightSource new new.sourceShow (Machine.putCycle new s)) := by
    split
    · exact put
    · exact put.lightSource new _
  unfold Machine.updateCycle
  dsimp only
  generalize (if old.sourceShow = new.sourceShow then Machine.putCycle new s
    else Machine.lightSource new new.sourceShow (Machine.putCycle new s)) = u at source
  split
  · exact put
  · split
    · exact source
    · exact source.lightTarget comp _

/-! ## Beginning a cycle (R82 to R84) -/

theorem OrdServes.of_unmarked {x y : OrdPos} (h : y.unmarked = x.unmarked) : OrdServes x y := fun active r here _ => by
  obtain ⟨r', here', same⟩ := OrdPos.exists_record h here
  exact ⟨(OrdPos.state_of_unmarked h).trans active, r', here', (congrArg Rec.serving same : r'.unmarked.serving = r.unmarked.serving)⟩

/-- The cycle of a candidate serves once its orphan timer is stopped. -/
theorem Candidate.fits.serves {k : Candidate} (h : k.fits s) (sound : Sound s₀ lit s) : k.cycle.serves (stopOrphan k.p s) := by
  obtain ⟨pos, present, named, o, l, r, found, here, -, line, opn, mode, owed, room, active, record, clean, ref, tote⟩ := h.cycle
  obtain ⟨r', -, -, ⟨-, record', -, -⟩, -, -, -, -, ⟨k', comp, shut, free, -, weight, volume⟩, -⟩ := findRoom_eq_some room
  have same : r' = r := Option.some.inj (record'.symm.trans record)
  subst same
  obtain ⟨-, -, -, within⟩ := (Rec.chargesOk_iff _).mp ((sound.records.held k.cycle.tgt) r' record).1
  obtain ⟨weighs, fills⟩ := within _ k' comp
  have self : (stopOrphan k.p s).src[k.cycle.src] = s.src[k.p].setOrphan none := modSrc_self ..
  have left : k.cycle.left = k.cycle.n := Nat.sub_zero _
  have named' : (stopOrphan k.p s).src[k.cycle.src].face.offer = some k.cycle.offer := by rw [self]; exact named
  have present' : (stopOrphan k.p s).src[k.cycle.src].face.state = .present := by rw [self]; exact present
  refine ⟨pos, present', named', by rw [self] <;> rfl, o, l, r', k', found, here, line, opn, owed, mode, active, record, clean,
    ref, tote, comp, shut, ?_, ?_, (OLine.barred_eq_false_iff ..).mpr (tote ▸ free)⟩
  · rw [left]
    dsimp only at weight
    omega
  · rw [left]
    dsimp only at volume
    omega

theorem Sound.startCycle {u : State} (h : Sound s₀ lit s) (h' : Sound s₀ lit u) (looking : Looking s u) {k : Candidate}
    (fits : k.fits s) {lit' : Prop} : Sound s₀ lit' (startCycle k u) := by
  have stopped := h'.stopOrphan k.p
  have face : (Machine.stopOrphan k.p u).src[k.p].face = (Machine.stopOrphan k.p s).src[k.p].face := by
    unfold Machine.stopOrphan
    rw [modSrc_self, modSrc_self, looking.src]
  have serves : k.cycle.serves (Machine.stopOrphan k.p u) :=
    (fits.serves h).keep (.of_eq face) (.of_eq looking.apart.offers) (.of_unmarked (looking.marked.unmarked k.cycle.tgt))
  have put : Sound s₀ lit' (begun k u) :=
    stopped.relit (pt := { cycle := some k.cycle, lastServed := some k.offer.tote, graceT := u.put.graceT }) fun _ c on => by
      cases on
      exact serves
  rw [startCycle_eq]
  refine Sound.startIdle ?_
  unfold Machine.showCycle
  exact (put.lightSource _ _).lightTarget (stopped.comp_lt serves) _

theorem Sound.attempt (h : Sound s₀ lit s) : Sound s₀ lit (attempt s) := by
  by_cases may : mayBegin s = true
  · have found := (soundNote s₀ lit).candidates srcIndices s h
    obtain ⟨looking, fit, -⟩ := candidates_spec (Looking.refl s) srcIndices
    rw [attempt_of_may may]
    cases e : pickCandidate (candidates srcIndices s).1 s.put.lastServed with
    | none => exact found
    | some k => exact h.startCycle found looking (fit k (pickCandidate_mem (candidates_sorted s) e))
  · rw [attempt_of_not (by simpa using may)]
    exact h

theorem Sound.wallChanged (h : Sound s₀ lit s) : Sound s₀ lit (wallChanged s) := h.judgeOrphans.attempt

theorem Sound.recordEntered (h : Sound s₀ lit s) : Sound s₀ lit (recordEntered s) := h.arbitrate.wallChanged

theorem Sound.activity (h : Sound s₀ lit s) (pos : Pos) (r : ActivityReport) : Sound s₀ lit (activity pos r s) := by
  unfold Machine.activity
  split
  · exact h.startIdle
  · exact h
  · exact (h.setPicker _ _).startIdle.arbitrate.attempt

end

end Sys2Proof.Machine

namespace Sys2Proof.Machine

/-!
Units charged, and the end and the cancellation of a put cycle, keep the bundle of invariants (R78, R87 to R98, R125).
-/

section
variable {s₀ s t : State} {lit : Prop}

/-! ## Charging (R78) -/

/-- A record charged with units of a line, and its baseline set when that is asked (R78). -/
def chargedRec (c : Cycle) (l : OLine) (k : Nat) (base : Option Nat) (r : Rec) : Rec :=
  { r.chargeUnits c.comp k l.charge l.volume with
    baseline := match base with
      | none => r.baseline
      | some b => some b }

theorem charge_eq {c : Cycle} {l : OLine} (line : cycleLine c s = some l) (k : Nat) (base : Option Nat) :
    charge c k base s = judgeOrphans (modRec c.tgt (chargedRec c l k base) s) := by
  rw [charge_of_line line]
  cases base <;> rfl

theorem chargedRec_baseline {c : Cycle} {l : OLine} {k : Nat} {base : Option Nat} {r : Rec} (h : r.baseline.isSome = true) :
    (chargedRec c l k base r).baseline.isSome = true := by
  cases base with
  | none => exact h
  | some b => rfl

/-- The line a cycle serves is found. -/
theorem Cycle.serves.lineServed {c : Cycle} (h : c.serves s) : ∃ o l r k, findOffer c.offer s = some o ∧
    o.lines[c.line]? = some l ∧ cycleLine c s = some l ∧ l.state = .opn ∧ c.n ≤ l.owed ∧
    l.barred c.tgtTote c.comp = false ∧ s.wall.pos[c.tgt].record = some r ∧ r.comps[c.comp]? = some k ∧
    k.weight + c.left * l.charge ≤ r.weightCap ∧ k.volume + c.left * l.volume ≤ r.volumeCap := by
  obtain ⟨-, -, -, -, o, l, r, k, found, -, line, opn, owed, -, -, record, -, -, -, comp, -, weight, volume, free⟩ := h
  exact ⟨o, l, r, k, found, line, by rw [Machine.cycleLine, found]; exact line, opn, owed, free, record, comp, weight, volume⟩

/-- Units within what the cycle has left are charged within the caps. -/
theorem Sound.charge (h : Sound s₀ lit s) {c : Cycle} (serves : c.serves s) {k : Nat} (few : k ≤ c.left) (base : Option Nat) :
    Sound s₀ False (charge c k base s) := by
  obtain ⟨o, l, r, x, -, -, line, -, -, -, record, comp, weight, volume⟩ := serves.lineServed
  rw [charge_eq line]
  refine Sound.judgeOrphans (h.weaken.record (fun _ => ⟨rfl, rfl⟩) (fun r' here ok => ?_) (fun _ => chargedRec_baseline)
    fun no => no.elim)
  rw [record] at here
  cases here
  refine Rec.chargesOk_chargeUnits ok fun x' at' => ?_
  rw [comp] at at'
  cases at'
  have heavier := Nat.mul_le_mul_right l.charge few
  have bigger := Nat.mul_le_mul_right l.volume few
  omega

theorem charge_frame (c : Cycle) (k : Nat) (base : Option Nat) (s : State) :
    (charge c k base s).offers = s.offers ∧ (charge c k base s).put = s.put := by
  cases line : cycleLine c s with
  | none => exact ⟨by simp only [Machine.charge, line], by simp only [Machine.charge, line]⟩
  | some l =>
    rw [charge_eq line]
    obtain ⟨-, offers, -, put, -⟩ := (orphansJudged (modRec c.tgt (chargedRec c l k base) s)).apart
    exact ⟨offers, put⟩

/-- A cycle with the source of the lit one goes on serving while the orphan condition is judged. -/
theorem Cycle.serves.judgeOrphans {c c' : Cycle} (h : c'.serves s) (on : s.put.cycle = some c) (src : c.src = c'.src) :
    c'.serves (judgeOrphans s) := by
  have judged := orphansJudged s
  generalize Machine.judgeOrphans s = u at judged ⊢
  have rest := judged.rest c'.src
  have still : ¬ orphaned s c'.src := fun lone => ((orphaned_iff s c'.src).mp lone).2.1 c on src
  have timer : ¬ u.src[c'.src].face.orphanT.isSome = true := fun run => still ((judged.runs c'.src).mp run)
  have offers := judged.apart.offers
  have unmarked := judged.marked.unmarked c'.tgt
  refine h.keep (fun present named _ => ⟨?_, ?_, by simpa using timer⟩) (.of_eq offers) (.of_unmarked unmarked)
  · exact (congrArg (fun x => x.face.state) rest).trans present
  · exact (congrArg (fun x => x.face.offer) rest).trans named

/-- A cycle that charges fewer units than it has left goes on serving with the rest. -/
theorem Cycle.serves.charge {c : Cycle} (h : c.serves s) (on : s.put.cycle = some c) {k : Nat} (fewer : k < c.left)
    (base : Option Nat) : ({ c with acc := c.acc + k } : Cycle).serves (charge c k base s) := by
  obtain ⟨-, present, named, still, o, l, r, x, found, here, line, opn, owed, mode, active, record, clean, ref, tote, comp, shut,
    weight, volume, free⟩ := h
  have at' : cycleLine c s = some l := by rw [Machine.cycleLine, found]; exact line
  rw [charge_eq at']
  refine Cycle.serves.judgeOrphans ?_ on rfl
  have left : c.left = k + ({ c with acc := c.acc + k } : Cycle).left := by unfold Cycle.left at fewer ⊢; dsimp only; omega
  have pos : (modRec c.tgt (chargedRec c l k base) s).wall.pos[c.tgt] =
      { s.wall.pos[c.tgt] with record := s.wall.pos[c.tgt].record.map (chargedRec c l k base) } := modOrd_self ..
  rw [left, Nat.add_mul] at weight volume
  have comp' : (chargedRec c l k base r).comps[c.comp]? =
      some { x with weight := x.weight + k * l.charge, volume := x.volume + k * l.volume } :=
    (List.getElem?_modify_eq _ _ _).trans (by rw [comp]; rfl)
  refine ⟨?_, present, named, still, o, l, chargedRec c l k base r, _, found, here, line, opn, owed, mode, ?_, ?_, clean, ref,
    tote, comp', shut, ?_, ?_, free⟩
  · unfold Cycle.left at fewer; dsimp only; omega
  · exact (congrArg OrdPos.state pos).trans active
  · exact (congrArg OrdPos.record pos).trans (by dsimp only; rw [record]; rfl)
  · show x.weight + k * l.charge + _ * l.charge ≤ r.weightCap
    omega
  · show x.volume + k * l.volume + _ * l.volume ≤ r.volumeCap
    omega

/-! ## Settling the target (R92, R93, R98) -/

theorem Sound.disturb (h : Sound s₀ False s) (q : Fin 12) (d : Disturbance) (g : Gross) : Sound s₀ False (disturb q d g s) := by
  unfold Machine.disturb
  split
  · exact h
  · refine Sound.judgeOrphans (Sound.notify ?_ _)
    exact h.record (fun _ => ⟨rfl, rfl⟩) (fun _ _ => id) (fun _ => id) fun no => no.elim

theorem Sound.settleTarget (h : Sound s₀ False s) (q : Fin 12) : Sound s₀ False (settleTarget q s) := by
  unfold Machine.settleTarget
  split
  · split
    · exact h
    · exact h.disturb ..
  · exact h

theorem Sound.settlePress (h : Sound s₀ False s) (q : Fin 12) : Sound s₀ False (settlePress q s) := by
  unfold Machine.settlePress
  split
  · exact h
  · exact h.record (fun _ => ⟨rfl, rfl⟩) (fun _ _ => id) (fun _ _ => rfl) fun no => no.elim
  · exact h.disturb ..

theorem Sound.settledEnd (h : Sound s₀ False s) (c : Cycle) (short : Bool) : Sound s₀ False (settledEnd c short s) := by
  unfold Machine.settledEnd
  split
  · exact h.settlePress _
  · split
    · exact h.settleTarget _
    · exact h

theorem Sound.settledCancel (h : Sound s₀ False s) (c : Cycle) (f : Option Pos) : Sound s₀ False (settledCancel c f s) := by
  unfold Machine.settledCancel
  split
  · exact h
  · exact h.settleTarget _

/-! ## Writing the line (R6, R95) -/

/-- The line that a cycle writes its units into, with the units it owes. -/
structure Cycle.Fills (c : Cycle) (s : State) (o : Offer) (l : OLine) : Prop where
  found : findOffer c.offer s = some o
  line : o.lines[c.line]? = some l
  opn : l.state = .opn
  owed : c.acc ≤ l.owed
  free : l.barred c.tgtTote c.comp = false
  comp : c.comp < 6

/-- A cycle that serves fills its line, and so does the cycle with more units, up to n. -/
theorem Sound.fills (h : Sound s₀ lit s) {c : Cycle} (serves : c.serves s) {k : Nat} (few : k ≤ c.left) :
    ∃ o l, ({ c with acc := c.acc + k } : Cycle).Fills s o l ∧ (k < c.left → c.acc + k < l.owed) := by
  have less := serves.1
  obtain ⟨o, l, r, x, found, line, -, opn, owed, free, -⟩ := serves.lineServed
  unfold Cycle.left at few ⊢
  exact ⟨o, l, ⟨found, line, opn, by dsimp only; omega, free, (show c.comp < 6 from h.comp_lt serves)⟩, fun fewer => by omega⟩

theorem Cycle.Fills.congr {c : Cycle} {o : Offer} {l : OLine} (h : c.Fills s o l) (offers : t.offers = s.offers) : c.Fills t o l :=
  { h with found := (findOffer_congr offers _).trans h.found }

theorem Sound.writeLine (h : Sound s₀ lit s) {c : Cycle} {o : Offer} {l : OLine} (fills : c.Fills s o l) {f : OLine → OLine}
    (same : ∀ l, (f l).fixed = l.fixed ∧ (f l).done = l.done ∧ (f l).puts = l.puts)
    (ok : l.ProgressOk → (f (l.accept c.tgtTote c.comp c.acc)).ProgressOk) : Sound s₀ False (writeLine c f s) := by
  have offers : (Machine.writeLine c f s).offers = s.offers.map fun o => if o.tote = c.offer then { o with
      lines := o.lines.modify c.line fun l => f (l.accept c.tgtTote c.comp c.acc) } else o := rfl
  have kept := keepsClosed.write c f s same
  have later : OffersLater s (Machine.writeLine c f s) := .modOffer offers fun o' ho' e => .line fun l' at' => by
    have is : o' = o := h.offers.eq_of_tote ho' (findOffer_mem fills.found) (e.trans (findOffer_tote fills.found).symm)
    subst is
    cases fills.line.symm.trans at'
    exact ok
  exact ⟨State.offersOk_of_fixedKept (fixedKeptClosed.write c f s same) h.offers, kept.slots h.slots, kept.wall h.wall,
    kept.profile h.profile, h.places.map rfl offers fun o => by split <;> rfl, h.records.of_pos rfl, h.lists.of_lines rfl fun _ => id,
    h.surveys.of_fewer (fun _ => id) rfl rfl, h.progress.later later, exposureGrows_later h.grows later, fun no => no.elim⟩

theorem Sound.notifyLine (h : Sound s₀ lit s) (c : Cycle) : Sound s₀ lit (notifyLine c s) := by
  unfold Machine.notifyLine
  split
  · exact h
  · split
    · exact h
    · exact h.notify _

/-! ## The hand-over (R97, R125) -/

theorem Sound.endGrace (h : Sound s₀ lit s) (c : Cycle) (fault : Bool) : Sound s₀ lit (endGrace c fault s) := by
  unfold Machine.endGrace
  split
  · dsimp only
    split
    · exact h.setGraceT none
    · exact (h.setGraceT none).askRelease ..
  · exact h

theorem Sound.handOver (h : Sound s₀ lit s) (c : Cycle) (fault : Bool) : Sound s₀ lit (handOver c fault s) := by
  have graced := h.endGrace c fault
  unfold Machine.handOver
  refine Sound.stopIdle ?_
  split
  · exact graced
  · exact graced.judgeFace c.src

/-! ## The end and the cancellation (R93, R95, R98) -/

theorem Sound.endCycle (h : Sound s₀ lit s) {c : Cycle} {o : Offer} {l : OLine} (fills : c.Fills s o l) {short : Bool}
    (less : short = true → c.acc < l.owed) (lit' : Prop) : Sound s₀ lit' (endCycle c short s) := by
  have written := h.writeLine fills (f := fun l => l.closed short) (fun _ => ⟨rfl, rfl, rfl⟩)
    fun ok => ok.closed fills.free fills.owed less
  rw [endCycle_eq]
  refine Sound.attempt (Sound.handOver ?_ c false)
  exact (((written.notifyLine c).dimmed fills.comp none).settledEnd c short).deleteCycle lit'

theorem Sound.cancelCycle (h : Sound s₀ lit s) {c : Cycle} {o : Offer} {l : OLine} (fills : c.Fills s o l)
    (less : c.acc < l.owed) (f : Option Pos) (lit' : Prop) : Sound s₀ lit' (cancelCycle c f s) := by
  have written := h.writeLine fills (f := id) (fun _ => ⟨rfl, rfl, rfl⟩) fun ok => ok.accepted fills.opn fills.free less
  have ended := ((written.settledCancel c f).dimmed fills.comp f).deleteCycle lit'
  rw [cancelCycle_eq]
  refine Sound.handOver ?_ c _
  unfold cancelledState
  dsimp only
  split
  · exact ended.clearServed _
  · exact ended

/-- The lit cycle is cancelled (R98). -/
theorem Sound.cancelLit (h : Sound s₀ True s) {c : Cycle} (on : s.put.cycle = some c) (f : Option Pos) (lit' : Prop) :
    Sound s₀ lit' (Machine.cancelCycle c f s) := by
  have serves := h.cycle trivial c on
  obtain ⟨o, l, fills, less⟩ := h.fills serves (k := 0) (Nat.zero_le _)
  exact h.cancelCycle (c := c) fills (less (Nat.sub_pos_of_lt serves.1)) f lit'

theorem Sound.cancelFor (h : Sound s₀ True s) (pos : Pos) (concerned : Bool) : Sound s₀ True (cancelFor pos concerned s) := by
  unfold Machine.cancelFor
  split
  · exact h
  · next c on =>
    split
    · exact h.cancelLit on _ True
    · exact h

/-! ## Put grace (R124, R125) -/

theorem Sound.graceExpired (h : Sound s₀ True s) : Sound s₀ True (graceExpired s) := by
  unfold Machine.graceExpired
  split
  · exact h
  · next c on =>
    split
    · exact (h.cancelLit on none True).attempt
    · exact h

theorem Sound.startGrace (h : Sound s₀ True s) {c : Cycle} (on : s.put.cycle = some c) : Sound s₀ True (startGrace c s) := by
  unfold Machine.startGrace
  split
  · exact h
  · refine Sound.graceExpired (Sound.setGraceT ?_ _)
    exact h.putCycle (c := { c with grace := true }) fun l => h.cycle l c on

/-! ## Units and keys (R87 to R94) -/

theorem pos_of_part {b : Basis} {d r ta tp k : Nat} (h : classify b d r ta tp = .part k) : 1 ≤ k ∧ k < r := by
  unfold classify at h
  dsimp only at h
  split_ifs at h with more zero outside all
  cases h
  omega

theorem pos_of_verdict {g : Gross} {base r : Nat} {b : Basis} {ta tp k : Nat} (h : verdict g base r b ta tp = .part k) :
    1 ≤ k ∧ k < r := by
  cases g with
  | overload => cases h
  | grams w =>
    rw [verdict_grams] at h
    split_ifs at h
    exact pos_of_part h

theorem Sound.actOnVerdict (h : Sound s₀ True s) {c : Cycle} (on : s.put.cycle = some c) {v : Verdict}
    (part : ∀ k, v = .part k → 1 ≤ k ∧ k < c.left) (g : Gross) : Sound s₀ True (actOnVerdict c v g s) := by
  have serves := h.cycle trivial c on
  have all : c.acc + c.left = c.n := Nat.add_sub_cancel' (Nat.le_of_lt serves.1)
  have same : ∀ v st, Sound s₀ True (Machine.updateCycle c { c with verdict := v, state := st } s) := fun v st =>
    h.updateCycle (new := { c with verdict := v, state := st }) serves c
  cases v with
  | matched =>
    obtain ⟨o, l, fills, -⟩ := h.fills serves (le_refl c.left)
    rw [all] at fills
    have put : Sound s₀ False (Machine.putCycle { c with acc := c.n, verdict := some .matched, state := .lit } s) :=
      h.putCycle fun no => no.elim
    have charged := put.charge (c := c) serves (le_refl c.left) (match g with
      | .grams w => some w
      | .overload => none)
    exact charged.endCycle (c := { c with acc := c.n, verdict := some .matched, state := .lit }) (o := o) (l := l)
      (short := false) ⟨(findOffer_congr (charge_frame ..).1 _).trans fills.found, fills.line, fills.opn, fills.owed, fills.free,
        fills.comp⟩ (fun e => by cases e) True
  | part k =>
    obtain ⟨-, fewer⟩ := part k rfl
    exact (h.charge serves (Nat.le_of_lt fewer) _).updateCycle
      (new := { c with acc := c.acc + k, verdict := some (.part k), state := .lit }) (serves.charge on fewer _) c
  | _ => exact same _ _

theorem Sound.weighTarget (h : Sound s₀ True s) {c : Cycle} (on : s.put.cycle = some c) (g : Gross) :
    Sound s₀ True (weighTarget c g s) := by
  unfold Machine.weighTarget
  split
  · exact h.actOnVerdict on (fun k e => pos_of_verdict e) g
  · exact h

theorem Sound.takeShort (h : Sound s₀ True s) (p : Fin 4) : Sound s₀ True (takeShort p s) := by
  unfold Machine.takeShort
  split
  · exact h
  · next c on =>
    split
    · have serves := h.cycle trivial c on
      obtain ⟨o, l, fills, less⟩ := h.fills serves (k := 0) (Nat.zero_le _)
      exact h.endCycle (c := c) fills (fun _ => less (Nat.sub_pos_of_lt serves.1)) True
    · exact h

theorem Sound.takeButton (h : Sound s₀ True s) (q : Fin 12) (j : Nat) : Sound s₀ True (takeButton q j s) := by
  unfold Machine.takeButton
  split
  · exact h
  · next c on =>
    split
    · have serves := h.cycle trivial c on
      have one : 1 ≤ c.left := Nat.sub_pos_of_lt serves.1
      have charged := h.charge serves one none
      dsimp only
      split
      · next more =>
        have fewer : 1 < c.left := by unfold Cycle.left; omega
        exact charged.updateCycle (serves.charge on fewer none) c
      · obtain ⟨o, l, fills, -⟩ := h.fills serves one
        have put : Sound s₀ False (Machine.putCycle { c with acc := c.acc + 1 } (Machine.charge c 1 none s)) :=
          charged.putCycle fun no => no.elim
        exact put.endCycle (c := { c with acc := c.acc + 1 }) (fills.congr (charge_frame c 1 none s).1) (fun e => by cases e) True
    · exact h

end

end Sys2Proof.Machine

namespace Sys2Proof.Machine

/-!
Faults of source and order positions keep the bundle of invariants (R34, R40, R74, R75, R159).
-/

section
variable {s₀ s t : State} {lit : Prop}

/-! ## The offers of a position that goes -/

/-- A list of offers thinned out, the offer of the cycle kept. -/
theorem OfferServes.keeping {c : Cycle} {keep : Offer → Bool} (stay : ∀ o, o.tote = c.offer → keep o = true)
    (offers : t.offers = s.offers.filter keep) : OfferServes c s t := fun o found here => by
  refine ⟨o, ?_, here, rfl⟩
  unfold findOffer at found ⊢
  rw [offers, List.find?_filter, ← found]
  congr 1
  funext x
  by_cases e : x.tote = c.offer
  · simp [e, stay x e]
  · simp [e]

/-- Whether an offer is one that neither slot of a position names. -/
def SrcPos.lets (x : SrcPos) (o : Offer) : Bool := x.face.offer != some o.tote && x.lane.offer != some o.tote

theorem SrcPos.lets_iff (x : SrcPos) (o : Offer) : x.lets o = true ↔ ∀ sl, x.named sl ≠ some o.tote := by
  unfold SrcPos.lets
  rw [Bool.and_eq_true, bne_iff_ne, bne_iff_ne]
  constructor
  · rintro ⟨face, lane⟩ (_ | _)
    · exact face
    · exact lane
  · exact fun h => ⟨h .face, h .lane⟩

theorem faultRemove_frame (p : Fin 4) (sl : Slot) (named : Option Nat) (s : State) :
    (faultRemove p sl named s).wall = s.wall ∧ (faultRemove p sl named s).bench = s.bench ∧
      (faultRemove p sl named s).link.held = s.link.held ∧
      (faultRemove p sl named s).offers = s.offers.filter fun o => named != some o.tote := by
  obtain ⟨stays, goes⟩ := faultRemove_cases p sl named s
  cases found : named.bind fun t => findOffer t s with
  | none =>
    rw [stays found]
    refine ⟨rfl, rfl, rfl, (List.filter_eq_self.mpr fun o ho => bne_iff_ne.mpr fun e => ?_).symm⟩
    rw [e, Option.bind_some, findOffer, List.find?_eq_none] at found
    exact absurd (found o ho) (by simp)
  | some o =>
    obtain ⟨n, rfl, found'⟩ := Option.bind_eq_some_iff.mp found
    obtain ⟨-, wall, -, bench, -, -, -, link, -⟩ := clearServed_fields o.tote (eraseOffer o.tote s)
    rw [goes o found]
    refine ⟨(notify_wall ..).trans wall, (notify_bench ..).trans bench,
      (notify_held ..).trans (congrArg Link.held link), (notify_offers ..).trans ((dropOffer_fields o.tote s).2.2.2.2.trans ?_)⟩
    refine List.filter_congr fun x _ => ?_
    rw [findOffer_tote found', Bool.eq_iff_iff, bne_iff_ne, bne_iff_ne, ne_eq, ne_eq, Option.some.injEq]
    exact not_congr eq_comm

theorem removeOffersAt_frame (p : Fin 4) (s : State) :
    (removeOffersAt p s).wall = s.wall ∧ (removeOffersAt p s).bench = s.bench ∧
      (removeOffersAt p s).link.held = s.link.held ∧ (removeOffersAt p s).offers = s.offers.filter s.src[p].lets := by
  obtain ⟨wall, bench, held, offers⟩ := faultRemove_frame p .face s.src[p].face.offer s
  obtain ⟨wall', bench', held', offers'⟩ :=
    faultRemove_frame p .lane s.src[p].lane.offer (faultRemove p .face s.src[p].face.offer s)
  rw [removeOffersAt_eq]
  refine ⟨wall'.trans wall, bench'.trans bench, held'.trans held, ?_⟩
  rw [offers', offers, List.filter_filter]
  refine List.filter_congr fun o _ => ?_
  rw [Bool.and_comm]
  rfl

/-! ## Faults of source positions (R34, R40) -/

theorem SrcPos.SlotsOk.bothEmpty {x : SrcPos} (h : x.SlotsOk) (gone : x.state = .closed ∨ x.state = .faulted) :
    x.bothEmpty = true := by
  obtain ⟨face, lane⟩ := h.blank gone
  exact (SrcPos.bothEmpty_iff x).mpr ⟨by rw [face], by rw [lane]⟩

/-- A position that is not the lit source drops its slots, its offers with them. -/
theorem Sound.dropAll (h : Sound s₀ True s) {p : Fin 4} (away : ∀ c, s.put.cycle = some c → c.src ≠ p) (c : Cause) :
    Sound s₀ True (dropToFault p c (removeOffersAt p s)) := by
  obtain ⟨src, lines, -, cycle, -⟩ := removeOffersAt_spec p s
  obtain ⟨wall, bench, held, offers⟩ := removeOffersAt_frame p s
  have kept := (keepsClosed.removeOffersAt p s).trans (keepsClosed.dropToFault p c _)
  have fixed := (fixedKeptClosed.removeOffersAt p s).trans (fixedKeptClosed.dropToFault p c _)
  generalize removeOffersAt p s = u at *
  have src' : (dropToFault p c u).src = s.src.set p (s.src[p].blank .faulted (some c)) := by
    unfold dropToFault
    rw [notifySrc_src]
    show u.src.set p (u.src[p].blank .faulted (some c)) = _
    rw [src]
  have offers' : (dropToFault p c u).offers = s.offers.filter s.src[p].lets := (notify_offers ..).trans offers
  have pos' : (dropToFault p c u).wall.pos = s.wall.pos := congrArg Wall.pos ((notify_wall ..).trans wall)
  have survey : ∀ pos, inSurvey pos (dropToFault p c u) = inSurvey pos s := inSurvey_of_slotMoved src' rfl pos'
  have blanked : (modSrc p (fun x => x.blank .faulted (some c)) u).src = s.src.set p (s.src[p].blank .faulted (some c)) := by
    show u.src.set p (u.src[p].blank .faulted (some c)) = _
    rw [src]
  have same : ∀ pos, inSurvey pos (modSrc p (fun x => x.blank .faulted (some c)) u) = inSurvey pos s :=
    inSurvey_of_slotMoved blanked rfl (congrArg Wall.pos wall)
  have blank : (modSrc p (fun x => x.blank .faulted (some c)) u).listsOk :=
    h.lists.of_lines lines fun pos run => (same pos).trans run
  refine h.slotMoved kept fixed src' rfl ?_ pos' ((blank.clear (.src p)).of_lines (notify_lines ..) fun pos run => ?_)
    (congrArg Bench.surveying ((notify_bench ..).trans bench)) ((notify_held ..).trans held) (.filter offers')
    ((congrArg PutSeq.cycle (notify_put ..)).trans cycle) (fun _ k on at' => absurd at' (away k on)) fun l k on => ?_
  · refine h.places.vacate h.offers src' (moved := fun _ => True) (fun _ no => absurd trivial no)
      (fun sl _ => by cases sl <;> rfl) (fun o free => ?_) fun o ho sl _ named => ?_
    · rw [offers', List.mem_filter, SrcPos.lets_iff]
      exact and_iff_left fun sl => free sl trivial
    · rw [offers', List.mem_filter, SrcPos.lets_iff] at ho
      exact absurd named (ho.2 sl)
  · rw [clearLine, inSurvey_modLine] at run
    exact (survey pos).trans ((same pos).symm.trans run)
  · refine .keeping (fun o e => (SrcPos.lets_iff _ _).mpr fun sl named => ?_) offers'
    obtain ⟨at', -⟩ := h.places.unique h.offers (h.litNamed l on) (named.trans (congrArg some e))
    exact away k on at'

theorem Sound.faultSrc (h : Sound s₀ True s) (p : Fin 4) (c : Cause) : Sound s₀ True (faultSrc p c s) := by
  have dropped : Sound s₀ True (Machine.judgeDrain (modSrc p (fun x => x.synced s.prof.profile.laneDepth[p])
      (dropToFault p c (removeOffersAt p (Machine.cancelFor (Pos.src p) (isLitSource p s) s))))) :=
    (((h.cancelFor (Pos.src p) (isLitSource p s)).dropAll (cancelFor_src p s).2 c).synced p _).judgeDrain
  unfold Machine.faultSrc
  split
  · exact h
  · next closed =>
    exact ((h.blankEmpty ((h.slot p).bothEmpty (.inl closed)) (by simp) (.inr rfl)).clear _).notify _
  · dsimp only
    split
    · exact dropped.attempt
    · exact dropped

/-! ## Faults of order positions (R74, R75) -/

theorem Sound.faultOrd (h : Sound s₀ True s) (q : Fin 12) (c : Cause) : Sound s₀ True (faultOrd q c s) := by
  have dropped : Sound s₀ True (notifyOrd q (clearLine (Pos.ord q) (modOrd q (fun x => x.faulted c)
      (Machine.cancelFor (Pos.ord q) (isTarget q s) s)))) :=
    (((h.cancelFor (Pos.ord q) (isTarget q s)).ord (keepsClosed.failed q c _) (fun ok => ok.faulted c) rfl
      fun _ k on at' => absurd at' ((cancelFor_ord q s).2 k on)).clear _).notify _
  unfold Machine.faultOrd
  split
  · exact h
  · dsimp only
    split
    · exact dropped
    · exact dropped.wallChanged

theorem Sound.faultAt (h : Sound s₀ True s) (pos : Pos) (c : Cause) : Sound s₀ True (faultAt pos c s) := by
  cases pos with
  | src p => exact h.faultSrc p c
  | ord q => exact h.faultOrd q c

end

end Sys2Proof.Machine

namespace Sys2Proof.Machine

/-!
Surveys, acknowledgements and line failures keep the bundle of invariants (R25, R61, R142, R158, R160 to R162).
-/

/-! ## What setting the state by a survey does to lines and surveys -/

/-- An operation that leaves the surveys in progress and the held execution, and keeps the lists of the lines. -/
structure Lists (s t : State) : Prop where
  survey : ∀ pos, inSurvey pos t = inSurvey pos s
  held : t.link.held = s.link.held
  lists : s.listsOk → t.listsOk

theorem Lists.trans {s t u : State} (h : Lists s t) (k : Lists t u) : Lists s u :=
  ⟨fun pos => (k.survey pos).trans (h.survey pos), k.held.trans h.held, fun ok => k.lists (h.lists ok)⟩

theorem Lists.of_survey {s t : State} (survey : ∀ pos, inSurvey pos t = inSurvey pos s) (lines : t.lines = s.lines)
    (held : t.link.held = s.link.held) : Lists s t :=
  ⟨survey, held, fun ok => ok.of_lines lines fun pos run => (survey pos).trans run⟩

theorem Lists.refl (s : State) : Lists s s := .of_survey (fun _ => rfl) rfl rfl

theorem Lists.notify (b : NoticeBody) (s : State) : Lists s (notify b s) :=
  .of_survey (inSurvey_congr (fun p => by rw [notify_src]) fun q => by rw [notify_wall]) (notify_lines ..) (notify_held ..)

theorem Lists.src (p : Fin 4) (f : SrcPos → SrcPos) (same : ∀ x, (f x).surveyT = x.surveyT) (s : State) :
    Lists s (modSrc p f s) :=
  .of_survey (inSurvey_congr (fun p' => by rw [modSrc_getElem]; split <;> simp [same, -Fin.getElem_fin]) fun _ => rfl) rfl rfl

theorem Lists.ord (q : Fin 12) (f : OrdPos → OrdPos) (same : ∀ x, (f x).surveyT = x.surveyT) (s : State) :
    Lists s (modOrd q f s) :=
  .of_survey (inSurvey_congr (fun _ => rfl) fun q' => by rw [modOrd_getElem]; split <;> simp [same, -Fin.getElem_fin]) rfl rfl

theorem Lists.clear (pos : Pos) (s : State) : Lists s (clearLine pos s) :=
  ⟨fun pos' => inSurvey_modLine .., rfl, fun ok => ok.clear pos⟩

theorem Lists.hand {pos : Pos} {o : Order} (fits : o.fits pos = true) (plain : o ≠ .survey) (s : State) :
    Lists s (handOrder pos o s) :=
  ⟨fun pos' => inSurvey_handOrder .., congrArg Link.held (handOrder_link ..), fun ok => ok.hand fits plain⟩

theorem releaseFound_lists (p : Fin 4) (sl : Slot) (x : Option (Option Nat)) (s : State) : Lists s (releaseFound p sl x s) := by
  unfold releaseFound releaseUnknown
  split
  · exact .refl s
  · exact (Lists.src p _ (fun x => by cases sl <;> rfl) s).trans
      ((Lists.hand (by cases sl <;> rfl) (by simp) _).trans (.notify ..))

theorem surveyFailedSrc_lists (p : Fin 4) (c : Cause) (s : State) : Lists s (surveyFailedSrc p c s) := by
  have h : Lists s (clearLine (.src p) (modSrc p (fun x => x.blank .faulted (some c)) s)) :=
    (Lists.src p (fun x => x.blank .faulted (some c)) (fun _ => rfl) s).trans (.clear ..)
  unfold surveyFailedSrc
  dsimp only
  split
  · exact h
  · exact h.trans (.notify ..)

theorem surveyFailedOrd_lists (q : Fin 12) (c : Cause) (s : State) : Lists s (surveyFailedOrd q c s) := by
  have h : Lists s (clearLine (.ord q) (modOrd q (OrdPos.surveyFailed c) s)) := (Lists.ord q (OrdPos.surveyFailed c) (fun _ => rfl) s).trans (.clear ..)
  unfold surveyFailedOrd
  dsimp only
  split
  · exact h
  · exact h.trans (.notify ..)

theorem surveyedSrc_lists (p : Fin 4) (f l : Option (Option Nat)) (s : State) : Lists s (surveyedSrc p f l s) := by
  have face : Lists s (releaseFound p .face f (notifySrc p (modSrc p (fun x => x.blank .opn none) s))) :=
    (Lists.src p (fun x => x.blank .opn none) (fun _ => rfl) s).trans ((Lists.notify ..).trans (releaseFound_lists ..))
  unfold surveyedSrc
  dsimp only
  split
  · exact face.trans ((Lists.src p SrcPos.waitLane (fun _ => rfl) _).trans (releaseFound_lists ..))
  · exact face.trans (releaseFound_lists ..)

theorem reopenOrd_lists (q : Fin 12) (st : OrdState) (g : Gross) (f : OrdPos → OrdPos) (same : ∀ x, (f x).surveyT = x.surveyT)
    (s : State) : Lists s (reopenOrd q st g f s) :=
  (Lists.ord q (fun x => f (x.reopened st g)) (fun x => same _) s).trans (.notify ..)

theorem giveUpRecord_lists (q : Fin 12) (i : Option Nat) (s : State) : Lists s (giveUpRecord q i s) := by
  have told : Lists s (notifyReleased q true s) := by
    unfold notifyReleased
    split
    · exact .notify ..
    · exact .notify ..
  exact told.trans (.ord q (OrdPos.withoutRecord i) (fun _ => rfl) _)

theorem surveyedOrd_lists (q : Fin 12) (t : Option (Option Nat)) (g : Gross) (s : State) : Lists s (surveyedOrd q t g s) := by
  have kept : ∀ st, Lists s (reopenOrd q st g id s) := fun st => reopenOrd_lists q st g _ (fun _ => rfl) s
  have held : ∀ st r b, Lists s (notifyWall q b (reopenOrd q st g (fun x => { x with record := r }) s)) := fun st r b =>
    (reopenOrd_lists q st g (fun x => { x with record := r }) (fun _ => rfl) s).trans (.notify ..)
  unfold surveyedOrd
  split
  · split
    · exact kept _
    · exact reopenOrd_lists q _ _ _ (by intro x; rfl) s
  · dsimp only
    split
    · split
      · exact (kept _).trans (giveUpRecord_lists ..)
      · exact held _ _ _
    · split
      · exact (kept _).trans (giveUpRecord_lists ..)
      · split
        · split
          · exact held _ _ _
          · exact kept _
        · split
          · exact held _ _ _
          · exact reopenOrd_lists q _ _ _ (by intro x; rfl) s

theorem applySurvey_lists (pos : Pos) (e : SurveyEnd) (s : State) : Lists s (applySurvey pos e s) := by
  unfold applySurvey
  split
  · exact surveyFailedSrc_lists ..
  · exact surveyedSrc_lists ..
  · exact surveyFailedSrc_lists ..
  · exact surveyFailedOrd_lists ..
  · exact surveyedOrd_lists ..
  · exact surveyFailedOrd_lists ..

theorem reopenDrain_lists (pos : Pos) (s : State) : Lists s (reopenDrain pos s) ∧
    (reopenDrain pos s).bench.surveying = s.bench.surveying := by
  unfold reopenDrain setMode
  split
  · split
    · exact ⟨(Lists.of_survey (s := s) (t := putMode .draining s) (fun _ => rfl) rfl rfl).trans (.notify ..), (congrArg Bench.surveying (notify_bench ..) : _)⟩
    · exact ⟨.refl s, rfl⟩
  · exact ⟨.refl s, rfl⟩

/-! ## The state after a survey -/

/-- Source positions that differ in one are an update of it. -/
theorem src_eq_set {v w : Vector SrcPos 4} {p : Fin 4} {y : SrcPos} (h : ∀ p' : Fin 4, w[p'] = if p = p' then y else v[p']) :
    w = v.set p y := by
  refine Vector.ext fun i hi => ?_
  have at' := h ⟨i, hi⟩
  rw [Vector.getElem_set]
  by_cases e : p = ⟨i, hi⟩
  · rw [if_pos e] at at'
    rw [if_pos (congrArg Fin.val e)]
    exact at'
  · rw [if_neg e] at at'
    rw [if_neg fun k => e (Fin.ext k)]
    exact at'

/-- A source position judged by a survey names no offer. -/
theorem SrcPos.judged_named (x : SrcPos) (e : SurveyEnd) (time : Nat) (sl : Slot) : (x.judged e time).named sl = none := by
  cases e with
  | failed c => cases sl <;> rfl
  | order t g => cases sl <;> rfl
  | source f l => cases f <;> cases l <;> cases sl <;> rfl

section
variable {s₀ s t : State} {lit : Prop}

/-- The state a survey gives its position (R25, R61, R160 to R162). -/
theorem Sound.surveyed (h : Sound s₀ lit s) {pos : Pos} (run : inSurvey pos s = true) (e : SurveyEnd)
    (depth : ∀ p f l, pos = .src p → e = .source f l → s.src[p].depth = 0 → l = none) :
    Sound s₀ lit (reopenDrain pos (applySurvey pos e (stopSurvey pos s))) := by
  have kept := keepsClosedStep.surveyed pos e s run depth
  have fixed := fixedKeptClosedStep.surveyed pos e s run depth
  obtain ⟨-, offers, -, -, put, -, bench⟩ := (stopSurvey_apart pos s).trans (applySurvey_apart pos e _)
  have lists := applySurvey_lists pos e (stopSurvey pos s)
  obtain ⟨drain, surveying⟩ := reopenDrain_lists pos (applySurvey pos e (stopSurvey pos s))
  obtain ⟨src, wall, -, offers', -, -, put', -⟩ := reopenDrain_fields pos (applySurvey pos e (stopSurvey pos s))
  have listed := lists.trans drain
  have stopped : (stopSurvey pos s).link = s.link := by cases pos <;> rfl
  have survey : ∀ pos', inSurvey pos' (reopenDrain pos (applySurvey pos e (stopSurvey pos s))) =
      inSurvey pos' (stopSurvey pos s) := listed.survey
  have later : OffersLater s (reopenDrain pos (applySurvey pos e (stopSurvey pos s))) := .of_offers (offers'.trans offers)
  have cycle : (reopenDrain pos (applySurvey pos e (stopSurvey pos s))).put.cycle = s.put.cycle :=
    congrArg PutSeq.cycle (put'.trans put)
  refine ⟨State.offersOk_of_fixedKept fixed h.offers, kept.slots h.slots, kept.wall h.wall, kept.profile h.profile, ?_, ?_,
    listed.lists (h.lists.stop pos), (h.surveys.stop pos).of_fewer (fun pos' run => (survey pos').symm.trans run)
      (surveying.trans (congrArg Bench.surveying (bench.trans ?_))) listed.held, h.progress.later later,
    exposureGrows_later h.grows later, fun l => ?_⟩
  · cases pos with
    | src p =>
      have gone : s.src[p].bothEmpty = true := (h.slot p).bothEmpty ((h.slot p).survey run)
      have set : (reopenDrain (.src p) (applySurvey (.src p) e (stopSurvey (.src p) s))).src =
          s.src.set p ((s.src[p].setSurvey none).judged e (s.prof.profile.leaveTimeout * 10)) := by
        refine src_eq_set fun p' => ?_
        rw [src, applySurvey_src, stopSurvey_src]
        split
        · next e => subst e; rfl
        · rfl
      exact h.places.bare h.offers set (offers'.trans offers) (moved := fun _ => True) (fun _ no => absurd trivial no)
        (fun sl _ => (h.slot p).named_none (SrcPos.stage_of_bothEmpty gone sl)) fun sl _ => SrcPos.judged_named _ e _ sl
    | ord q => exact h.places.of_eq (src.trans (applySurvey_ord_src ..)) (offers'.trans offers)
  · cases pos with
    | src p => exact h.records.of_pos (congrArg Wall.pos (wall.trans (applySurvey_src_wall ..)))
    | ord q =>
      refine h.records.heirs fun q' => ?_
      rw [wall, applySurvey_ord, stopSurvey_ord]
      split
      · next e =>
        subst e
        have items := h.items q
        exact OrdPos.RecordOk.judged (x := s.wall.pos[q].setSurvey none) (h.records.held q) (items.setSurvey (.inl rfl))
          (items.survey run) e _
      · exact (h.records.held q').heir
  · cases pos <;> rfl
  · cases pos with
    | src p =>
      have pos := congrArg Wall.pos (wall.trans (applySurvey_src_wall p e (stopSurvey (.src p) s)))
      have gone : s.src[p].bothEmpty = true := (h.slot p).bothEmpty ((h.slot p).survey run)
      refine (h.cycle l).keep cycle (fun c on => ?_) (fun _ _ => .of_eq (offers'.trans offers)) fun c _ =>
        .of_eq (congrArg (fun v => v[c.tgt].state) pos) (congrArg (fun v => v[c.tgt].record) pos)
      refine .of_eq ?_
      rw [src, applySurvey_src, stopSurvey_src]
      split
      · next e =>
        subst e
        exact absurd (((SrcPos.bothEmpty_iff _).mp gone).1.symm.trans (h.litPresent l on).1) (by decide)
      · rfl
    | ord q =>
      refine (h.cycle l).keep cycle (fun _ _ => .of_eq (by rw [src, applySurvey_ord_src] <;> rfl))
        (fun _ _ => .of_eq (offers'.trans offers)) fun c on => ?_
      rw [wall, applySurvey_ord, stopSurvey_ord]
      split
      · next e =>
        subst e
        intro active
        rcases (h.items c.tgt).survey run with at' | at'
        · exact absurd (at'.symm.trans active) (by decide)
        · exact absurd (at'.symm.trans active) (by decide)
      · exact .of_eq rfl rfl

/-! ## What follows the end of a survey -/

/-- The surveys or what they are made for change with nothing but them. -/
theorem Sound.putLinkBench (h : Sound s₀ lit s) {l : Link} {b : Bench} (surveys : ({ s with link := l, bench := b } : State).surveysOk) :
    Sound s₀ lit { s with link := l, bench := b } :=
  ⟨h.offers, h.slots, h.wall, h.profile, h.places.of_eq rfl rfl, h.records.of_pos rfl, h.lists.of_lines rfl fun pos => by
    cases pos <;> exact id, surveys, h.progress, h.grows, fun l' => (h.cycle l').of_eq rfl rfl rfl rfl⟩

/-- A held request waits for one position. -/
theorem HeldJob.waitsFor_unique {j : HeldJob} {pos pos' : Pos} (h : j.waitsFor pos = true) (h' : j.waitsFor pos' = true) :
    pos = pos' := by
  cases j with
  | openSource p => exact (decide_eq_true_eq.mp h).trans (decide_eq_true_eq.mp h').symm
  | openOrder q => exact (decide_eq_true_eq.mp h).trans (decide_eq_true_eq.mp h').symm
  | restart => cases h

theorem Sound.answerHeld (h : Sound s₀ lit s) {pos : Pos} (ended : inSurvey pos s = false) (e : SurveyEnd) :
    Sound s₀ lit (answerHeld pos e s) := by
  unfold Machine.answerHeld
  split
  · exact h
  · next x on =>
    split
    · next waits =>
      refine Sound.answer ?_ _ _
      refine h.putLinkBench (l := { s.link with held := none }) (b := s.bench) fun pos' run => ?_
      have run' : inSurvey pos' s = true := by cases pos' <;> exact run
      rcases h.surveys pos' run' with surveying | ⟨x', on', waits'⟩
      · exact .inl surveying
      · have same : x' = x := Option.some.inj (on'.symm.trans on)
        subst same
        rw [HeldJob.waitsFor_unique waits' waits, ended] at run'
        cases run'
    · exact h

theorem Sound.afterSurvey (h : Sound s₀ lit s) (pos : Pos) : Sound s₀ lit (afterSurvey pos s) := by
  unfold Machine.afterSurvey
  split
  · split
    · exact h.arbitrate.attempt
    · exact h
  · split
    · exact h.recordEntered
    · exact h

theorem Sound.finishStartup (h : Sound s₀ lit s) : Sound s₀ lit (finishStartup s) := by
  unfold Machine.finishStartup
  split
  · next ended =>
    simp only [Bool.and_eq_true, Bool.not_eq_true'] at ended
    refine Sound.notify ?_ _
    refine h.putLinkBench (l := s.link) (b := { s.bench with surveying := false }) fun pos run => ?_
    obtain ⟨src, ord⟩ := (anySurvey_eq_false s).mp ended.2
    cases pos with
    | src p => exact absurd ((congrArg Option.isSome (src p)).symm.trans run) (by decide)
    | ord q => exact absurd ((congrArg Option.isSome (ord q)).symm.trans run) (by decide)
  · exact h

theorem Sound.endSurvey (h : Sound s₀ lit s) {pos : Pos} (run : inSurvey pos s = true) {e : SurveyEnd}
    (depth : ∀ p f l, pos = .src p → e = .source f l → s.src[p].depth = 0 → l = none) : Sound s₀ lit (endSurvey pos e s) := by
  have ended : inSurvey pos (reopenDrain pos (applySurvey pos e (stopSurvey pos s))) = false := by
    rw [((applySurvey_lists pos e (stopSurvey pos s)).trans (reopenDrain_lists pos _).1).survey, inSurvey_stopped]
    simp
  exact (((h.surveyed run e depth).answerHeld ended e).afterSurvey pos).finishStartup

/-! ## Reports and timers of a field line -/

theorem Sound.takeAck (h : Sound s₀ lit s) (pos : Pos) (n : Nat) : Sound s₀ lit (takeAck pos n s) := by
  unfold Machine.takeAck
  split
  · exact h
  · next o rest e =>
    split
    · have sub : rest.Sublist s.lines[lineOf pos].orders := e ▸ List.sublist_cons_self o rest
      exact h.lines (h.lists.line (fun ok => ok.sublist sub) fun x hx _ => .inl (sub.subset hx))
    · exact h

theorem Sound.lineFailed (h : Sound s₀ True s) (pos : Pos) : Sound s₀ True (lineFailed pos s) := by
  unfold Machine.lineFailed
  split
  · split
    · next run => exact (h.clear pos).endSurvey (by rw [clearLine, inSurvey_modLine]; exact run) (by simp)
    · split
      · exact h.clear pos
      · exact (h.clear pos).faultAt pos .line
  · exact h

theorem Sound.surveyExpired (h : Sound s₀ lit s) (pos : Pos) : Sound s₀ lit (surveyExpired pos s) := by
  unfold Machine.surveyExpired
  split
  · next spent => exact h.endSurvey (by cases pos <;> exact congrArg Option.isSome spent) (by simp)
  · exact h

/-- An answer is judged by the lane depth of its position (R25). -/
theorem judgeAnswer_depth (pos : Pos) (a : SurveyAnswer) (s : State) (p : Fin 4) (f l : Option (Option Nat)) (at' : pos = .src p)
    (e : judgeAnswer pos a s = .source f l) (depth : s.src[p].depth = 0) : l = none := by
  subst at'
  cases a with
  | source f' l' =>
    simp only [judgeAnswer, depth, true_and] at e
    split at e
    · cases e
    · next n =>
      cases e
      simpa using n
  | order => cases e

theorem Sound.takeAnswer (h : Sound s₀ lit s) (pos : Pos) (a : SurveyAnswer) : Sound s₀ lit (takeAnswer pos a s) := by
  unfold Machine.takeAnswer
  split
  · next run =>
    rw [Bool.and_eq_true] at run
    exact h.endSurvey run.1 fun p f l => judgeAnswer_depth pos a s p f l
  · exact h

theorem Sound.takeFault (h : Sound s₀ True s) (pos : Pos) (c : ModCause) : Sound s₀ True (takeFault pos c s) := by
  unfold Machine.takeFault
  split
  · next run =>
    split
    · exact h
    · exact h.endSurvey run (by simp)
  · split
    · exact h
    · exact h.faultAt pos _

end

end Sys2Proof.Machine

namespace Sys2Proof.Machine

/-!
The events of a source position keep the bundle of invariants: arrivals, departures, lapses, settle guards (chapter 02, R55).
-/

/-! ## What is left around the slots -/

/-- What a move of slots and offers leaves. -/
structure Around (s t : State) : Prop where
  pos : t.wall.pos = s.wall.pos
  lines : t.lines = s.lines
  surveying : t.bench.surveying = s.bench.surveying
  held : t.link.held = s.link.held
  cycle : t.put.cycle = s.put.cycle

theorem Around.trans {s t u : State} (h : Around s t) (k : Around t u) : Around s u :=
  ⟨k.pos.trans h.pos, k.lines.trans h.lines, k.surveying.trans h.surveying, k.held.trans h.held, k.cycle.trans h.cycle⟩

theorem Around.notify (b : NoticeBody) (s : State) : Around s (notify b s) :=
  ⟨congrArg Wall.pos (notify_wall ..), notify_lines .., congrArg Bench.surveying (notify_bench ..), notify_held ..,
    congrArg PutSeq.cycle (notify_put ..)⟩

theorem Around.src (p : Fin 4) (f : SrcPos → SrcPos) (s : State) : Around s (modSrc p f s) := ⟨rfl, rfl, rfl, rfl, rfl⟩

theorem Around.offer (n : Nat) (f : Offer → Offer) (s : State) : Around s (modOffer n f s) := ⟨rfl, rfl, rfl, rfl, rfl⟩

theorem Around.drop (n : Nat) (s : State) : Around s (dropOffer n s) := by
  obtain ⟨-, wall, lines, bench, -, -, -, link, -⟩ := clearServed_fields n (eraseOffer n s)
  exact ⟨congrArg Wall.pos wall, lines, congrArg Bench.surveying bench, congrArg Link.held link, (dropOffer_fields n s).2.2.2.1⟩

/-- An offer neither PRESENT nor LEAVING has no presentation time and no reason (R4). -/
theorem Offer.Timed.plain {o : Offer} (h : o.Timed) (present : o.state ≠ .present) (leaving : o.state ≠ .leaving) :
    o.reason = none ∧ o.presented = none := by
  refine ⟨Option.not_isSome_iff_eq_none.mp fun e => leaving (h.reason.mp e), Option.not_isSome_iff_eq_none.mp fun e => ?_⟩
  rcases h.presented e with e | e
  · exact present e
  · exact leaving e

/-- An offer that is given a place in a state before it is PRESENT. -/
theorem Offer.Timed.before {o : Offer} (reason : o.reason = none) (presented : o.presented = none)
    (present : o.state ≠ .present) (leaving : o.state ≠ .leaving) : o.Timed :=
  ⟨by rw [reason]; simp [leaving], fun e => absurd e present, fun e => by rw [presented] at e; cases e⟩

/-- The offer a slot named has gone from the list, or is back to WAITING with its lines and figures (R18, R19). -/
inductive Freed (n : Nat) (s t : State) : Prop
  | gone (offers : t.offers = s.offers.filter fun o => o.tote != n)
  | back (f : Offer → Offer) (offers : t.offers = s.offers.map fun o => if o.tote = n then f o else o)
      (same : ∀ o, (f o).tote = o.tote ∧ (f o).temp = o.temp ∧ (f o).exposure = o.exposure ∧ (f o).lines = o.lines)
      (waiting : ∀ o, (f o).state = .waiting ∧ (f o).place = none ∧ (f o).presented = none ∧ (f o).reason = none)

theorem Freed.notify {n : Nat} {s t : State} (h : Freed n s t) (b : NoticeBody) : Freed n s (notify b t) := by
  cases h with
  | gone offers => exact .gone ((notify_offers ..).trans offers)
  | back f offers same waiting => exact .back f ((notify_offers ..).trans offers) same waiting

section
variable {s₀ s t : State} {lit : Prop}

/-- A face that is not PRESENT is not the lit source. -/
theorem Sound.notLit (h : Sound s₀ True s) {p : Fin 4} (away : s.src[p].face.state ≠ .present) : isLitSource p s = false :=
  isLitSource_eq_false.mpr fun _ on at' => away (at' ▸ (h.litPresent trivial on).1)

/-! ## Moves of one position's slots -/

theorem Sound.slotsAround (h : Sound s₀ lit s) (kept : Keeps s t) (fixed : FixedKept s t) {p : Fin 4} {y : SrcPos}
    (src : t.src = s.src.set p y) (survey : y.surveyT = s.src[p].surveyT) (around : Around s t) (places : PlacesOk t)
    (later : OffersLater s t) (face : lit → ∀ c, s.put.cycle = some c → c.src = p → y.face = s.src[p].face)
    (serves : lit → ∀ c, s.put.cycle = some c → OfferServes c s t) : Sound s₀ lit t :=
  h.slotMoved kept fixed src survey places around.pos
    (h.lists.of_lines around.lines fun pos run => (inSurvey_of_slotMoved src survey around.pos pos).trans run)
    around.surveying around.held later around.cycle face serves

/-- A slot that is not the lit source's face goes on with its offer. -/
theorem Sound.slotCarries (h : Sound s₀ True s) (kept : Keeps s t) (fixed : FixedKept s t) {p : Fin 4} {sl : Slot} {n : Nat}
    {y : SrcPos} {f : Offer → Offer} (named : s.src[p].named sl = some n)
    (away : sl = .face → s.src[p].face.state ≠ .present) (src : t.src = s.src.set p y) (survey : y.surveyT = s.src[p].surveyT)
    (around : Around s t) (offers : t.offers = s.offers.map fun o => if o.tote = n then f o else o)
    (face : sl = .lane → y.face = s.src[p].face) (lane : sl = .face → y.lane = s.src[p].lane) (keeps : y.named sl = some n)
    (same : ∀ o, (f o).tote = o.tote ∧ (f o).temp = o.temp ∧ (f o).exposure = o.exposure ∧ (f o).lines = o.lines)
    (moves : ∀ o, s.src[p].stage sl = some o.state → o.Timed →
      (f o).place = some (p, sl) ∧ y.stage sl = some (f o).state ∧ (f o).Timed) : Sound s₀ True t := by
  have notLit : ∀ c, s.put.cycle = some c → ¬ (c.src = p ∧ sl = .face) := fun c on ⟨at', e⟩ =>
    away e (at' ▸ (h.litPresent trivial on).1)
  have apart : y.stage (otherSlot sl) = s.src[p].stage (otherSlot sl) ∧ y.named (otherSlot sl) = s.src[p].named (otherSlot sl) := by
    cases sl with
    | face => exact ⟨congrArg (fun l => l.state.stage) (lane rfl), congrArg (fun l => l.offer) (lane rfl)⟩
    | lane => exact ⟨congrArg (fun f => f.state.stage) (face rfl), congrArg (fun f => f.offer) (face rfl)⟩
  refine h.slotsAround kept fixed src survey around
    (h.places.relabel h.offers named src offers keeps apart fun o _ e _ stage timed => ?_)
    (.modOffer offers fun o _ _ => .of_same (same o).1 (same o).2.1 (same o).2.2.1 (same o).2.2.2)
    (fun _ c on at' => ?_) fun l c on => .modOffer offers (fun o => (same o).1) fun e => ?_
  · exact ⟨(same o).1.trans e, moves o stage timed⟩
  · cases sl with
    | face => exact absurd ⟨at', rfl⟩ (notLit c on)
    | lane => exact face rfl
  · obtain ⟨at', k⟩ := h.places.unique h.offers ((h.litNamed l on).trans (congrArg some e)) named
    exact absurd ⟨at', k.symm⟩ (notLit c on)

/-- A slot that is not the lit source's face lets its offer go. -/
theorem Sound.slotFreed (h : Sound s₀ True s) (kept : Keeps s t) (fixed : FixedKept s t) {p : Fin 4} {sl : Slot} {n : Nat}
    {y : SrcPos} (named : s.src[p].named sl = some n) (away : sl = .face → s.src[p].face.state ≠ .present)
    (src : t.src = s.src.set p y) (survey : y.surveyT = s.src[p].surveyT) (around : Around s t) (freed : Freed n s t)
    (apart : y.stage (otherSlot sl) = s.src[p].stage (otherSlot sl) ∧ y.named (otherSlot sl) = s.src[p].named (otherSlot sl))
    (face : s.src[p].face.state = .present → y.face = s.src[p].face) (gone : y.named sl = none) : Sound s₀ True t := by
  have others : ∀ o : Offer, o.tote ≠ n → (o ∈ t.offers ↔ o ∈ s.offers) := fun o ne => by
    cases freed with
    | gone offers => rw [offers, List.mem_filter]; exact and_iff_left (bne_iff_ne.mpr ne)
    | back f offers same waiting =>
      rw [offers, List.mem_map]
      constructor
      · rintro ⟨o', ho', rfl⟩
        by_cases e : o'.tote = n
        · rw [if_pos e] at ne; exact absurd ((same o').1.trans e) ne
        · rwa [if_neg e]
      · exact fun ho => ⟨o, ho, if_neg ne⟩
  have mine : ∀ o ∈ t.offers, o.tote = n → o.state = .waiting ∧ o.place = none ∧ o.presented = none ∧ o.reason = none :=
      fun o ho e => by
    cases freed with
    | gone offers =>
      rw [offers, List.mem_filter] at ho
      exact absurd e (bne_iff_ne.mp ho.2)
    | back f offers same waiting =>
      rw [offers] at ho
      obtain ⟨o', ho', rfl⟩ := List.mem_map.mp ho
      by_cases k : o'.tote = n
      · rw [if_pos k]; exact waiting o'
      · rw [if_neg k] at e; exact absurd e k
  have later : OffersLater s t := by
    cases freed with
    | gone offers => exact .filter offers
    | back f offers same waiting =>
      exact .modOffer offers fun o _ _ => .of_same (same o).1 (same o).2.1 (same o).2.2.1 (same o).2.2.2
  refine h.slotsAround kept fixed src survey around
    (h.places.vacate h.offers src (moved := fun sl' => sl' = sl) (fun sl' ne => eq_otherSlot ne ▸ apart)
      (fun sl' e => e ▸ gone) (fun o free => others o fun e => free sl rfl (named.trans (congrArg some e.symm)))
      fun o ho sl' e same => mine o ho (Option.some.inj ((e ▸ same).symm.trans named)))
    later (fun l c on at' => face (at' ▸ (h.litPresent l on).1)) fun l c on => ?_
  have ne : c.offer ≠ n := fun e => by
    obtain ⟨at', k⟩ := h.places.unique h.offers ((h.litNamed l on).trans (congrArg some e)) named
    exact away k.symm (at' ▸ (h.litPresent l on).1)
  cases freed with
  | gone offers => exact .filter ne offers
  | back f offers same waiting => exact .modOffer offers (fun o => (same o).1) fun e => absurd e ne

/-- Slots that name no offer change. -/
theorem Sound.slotBare (h : Sound s₀ lit s) {p : Fin 4} {f : SrcPos → SrcPos} (kept : Keeps s (modSrc p f s)) {moved : Slot → Prop}
    (survey : (f s.src[p]).surveyT = s.src[p].surveyT)
    (apart : ∀ sl, ¬ moved sl → (f s.src[p]).stage sl = s.src[p].stage sl ∧ (f s.src[p]).named sl = s.src[p].named sl)
    (was : ∀ sl, moved sl → s.src[p].named sl = none) (now : ∀ sl, moved sl → (f s.src[p]).named sl = none)
    (face : s.src[p].face.state = .present → (f s.src[p]).face = s.src[p].face) : Sound s₀ lit (modSrc p f s) :=
  h.slotsAround kept (.refl s) rfl survey (.src p f s) (h.places.bare h.offers rfl rfl apart was now) (.of_offers rfl)
    (fun l c on at' => face (at' ▸ (h.litPresent l on).1)) fun _ _ _ => .of_eq rfl

end

end Sys2Proof.Machine

namespace Sys2Proof.Machine

/-!
The reports and timers of a source position, and the exposure bank's events, keep the bundle of invariants (chapters 02, 07).
-/

section
variable {s₀ s t : State}

theorem handOrder_modOffer (pos : Pos) (o : Order) (n : Nat) (f : Offer → Offer) (s : State) :
    modOffer n f (handOrder pos o s) = handOrder pos o (modOffer n f s) := by
  have same : isFaulted pos (modOffer n f s) = isFaulted pos s := by cases pos <;> rfl
  unfold handOrder
  rw [same]
  split <;> rfl

/-! ## Arrivals (R28 to R31) -/

theorem Sound.sendOut (h : Sound s₀ True s) (p : Fin 4) (sl : Slot) (id : Option Nat) (r : Reason) :
    Sound s₀ True (sendOut p sl id r s) :=
  Sound.notify (Sound.hand h (by cases sl <;> rfl) (by simp)) _

theorem Sound.faceChecks (h : Sound s₀ True s) {p : Fin 4} {x : Nat} (named : s.src[p].named .face = some x)
    (notLit : isLitSource p s = false) (held : Option HeldRelease) : Sound s₀ True (faceChecks p x held s) := by
  unfold Machine.faceChecks
  split
  · exact h.releaseSlot named (fun _ => notLit) _
  · exact h.judgeFace p

theorem Sound.faceArrival (h : Sound s₀ True s) {p : Fin 4} {x : Nat} (aw : s.src[p].face.awaits x = true) :
    Sound s₀ True (faceArrival p x s) := by
  obtain ⟨state, named⟩ := (awaits_iff ..).mp aw
  have away : s.src[p].face.state ≠ .present := by rcases state with e | e <;> rw [e] <;> decide
  have here : Sound s₀ True (modOffer x (fun o => { o with
      state := .present, place := some (p, .face), presented := some s.bench.clock }) (modSrc p (SrcPos.presented x) s)) := by
    refine h.slotCarries (sl := .face) (n := x) (y := s.src[p].presented x)
      (keepsClosedStep.trans (keepsClosedStep.presented p x s aw) (keepsClosedStep.keep _ _ _ fun _ => ⟨rfl, rfl⟩))
      (fixedKeptClosedStep.trans (fixedKeptClosedStep.presented p x s aw) (fixedKeptClosedStep.keep _ _ _ fun _ => ⟨rfl, rfl⟩))
      named (fun _ => away) rfl rfl ((Around.src p _ s).trans (.offer x _ _)) rfl (by simp) (fun _ => rfl) rfl
      (fun _ => ⟨rfl, rfl, rfl, rfl⟩) fun o stage timed => ⟨rfl, rfl, ?_⟩
    have st : s.src[p].face.state.stage = some o.state := stage
    obtain ⟨reason, -⟩ := timed.plain
      (by rcases state with e | e <;> rw [e] at st <;> rw [← Option.some.inj st] <;> decide)
      (by rcases state with e | e <;> rw [e] at st <;> rw [← Option.some.inj st] <;> decide)
    exact ⟨by rw [show ({ o with state := .present, place := some (p, .face), presented := some s.bench.clock } : Offer).reason =
      o.reason from rfl, reason]; simp, fun _ => rfl, fun _ => .inl rfl⟩
  have named' : (modOffer x (fun o => { o with
      state := .present, place := some (p, .face), presented := some s.bench.clock }) (modSrc p (SrcPos.presented x) s)).src[p].named
        .face = some x := congrArg (fun y : SrcPos => y.face.offer) (modSrc_self p (SrcPos.presented x) s)
  exact ((here.faceChecks named' (h.notLit away) _).arbitrate).attempt

theorem Sound.laneArrival (h : Sound s₀ True s) {p : Fin 4} {x : Nat} (was : s.src[p].lane.state = .called)
    (named : s.src[p].lane.offer = some x) : Sound s₀ True (laneArrival p x s) := by
  refine h.slotCarries (sl := .lane) (n := x) (y := s.src[p].staged x)
    (keepsClosedStep.trans (keepsClosedStep.staged p x s was) (keepsClosedStep.keep _ _ _ fun _ => ⟨rfl, rfl⟩))
    (fixedKeptClosedStep.trans (fixedKeptClosedStep.staged p x s was) (fixedKeptClosedStep.keep _ _ _ fun _ => ⟨rfl, rfl⟩))
    named (fun e => by cases e) rfl rfl ((Around.src p _ s).trans (.offer x _ _)) rfl (fun _ => rfl) (by simp) rfl
    (fun _ => ⟨rfl, rfl, rfl, rfl⟩) fun o stage timed => ⟨rfl, rfl, ?_⟩
  have st : s.src[p].lane.state.stage = some o.state := stage
  rw [was] at st
  obtain ⟨reason, presented⟩ := timed.plain (by rw [← Option.some.inj st]; decide) (by rw [← Option.some.inj st]; decide)
  exact .before reason presented (fun e => by cases e) fun e => by cases e

theorem Sound.followForward (h : Sound s₀ True s) {p : Fin 4} {x : Nat} (was : s.src[p].face.state = .called)
    (named : s.src[p].face.offer = some x) : Sound s₀ True (followForward p x s) := by
  unfold Machine.followForward
  rw [handOrder_modOffer]
  refine Sound.hand ?_ rfl (by simp)
  refine h.slotCarries (sl := .face) (n := x) (y := s.src[p].followed)
    (keepsClosedStep.trans (keepsClosedStep.followed p s was) (keepsClosedStep.keep _ _ _ fun _ => ⟨rfl, rfl⟩))
    (fixedKeptClosedStep.trans (fixedKeptClosedStep.followed p s was) (fixedKeptClosedStep.keep _ _ _ fun _ => ⟨rfl, rfl⟩))
    named (fun _ => by rw [was]; decide) rfl rfl ((Around.src p _ s).trans (.offer x _ _)) rfl (by simp) (fun _ => rfl) named
    (fun _ => ⟨rfl, rfl, rfl, rfl⟩) fun o stage timed => ⟨rfl, rfl, ?_⟩
  have st : s.src[p].face.state.stage = some o.state := stage
  rw [was] at st
  obtain ⟨reason, presented⟩ := timed.plain (by rw [← Option.some.inj st]; decide) (by rw [← Option.some.inj st]; decide)
  exact .before reason presented (fun e => by cases e) fun e => by cases e

theorem Sound.takeArrival (h : Sound s₀ True s) (p : Fin 4) (sl : Slot) (id : Option Nat) :
    Sound s₀ True (takeArrival p sl id s) := by
  unfold Machine.takeArrival
  split
  · exact h.sendOut ..
  · dsimp only
    split
    · split
      · next aw => exact h.faceArrival aw
      · split
        · exact h
        · exact h.sendOut ..
    · split
      · next call => exact h.laneArrival call.1 call.2
      · split
        · next call => exact h.followForward call.1 call.2.1
        · split
          · exact h
          · exact h.sendOut ..

/-! ## Departures (R18, R36) -/

/-- The offer that leaves is freed. -/
theorem offerDeparts_freed {n : Nat} (listed : ∃ o, findOffer n t = some o) (offers : t.offers = s.offers) :
    Freed n s (offerDeparts (some n) t) ∧ Around t (offerDeparts (some n) t) ∧ (offerDeparts (some n) t).src = t.src := by
  obtain ⟨o, found⟩ := listed
  obtain ⟨back, goes⟩ := offerDeparts_of_found found rfl
  by_cases rescue : o.reason = some .idleRescue
  · rw [(back rescue).2]
    exact ⟨.back (fun o => { o.toWaiting with ret := true }) (by rw [← offers]; rfl) (fun _ => ⟨rfl, rfl, rfl, rfl⟩)
      fun _ => ⟨rfl, rfl, rfl, rfl⟩, .offer n _ t, rfl⟩
  · rw [(goes rescue).2]
    obtain ⟨src, -, -, -, filtered⟩ := dropOffer_fields n t
    exact ⟨.gone (by rw [filtered, offers]), .drop n t, src⟩

/-- A slot that lets go the offer it names, if it names one, at a departure. -/
theorem Sound.departs (h : Sound s₀ True s) {p : Fin 4} {sl : Slot} {f : SrcPos → SrcPos}
    (kept : ∀ {R : State → State → Prop}, ClosedStep R → R s (modSrc p f s))
    (away : sl = .face → s.src[p].face.state ≠ .present) (survey : (f s.src[p]).surveyT = s.src[p].surveyT)
    (apart : (f s.src[p]).stage (otherSlot sl) = s.src[p].stage (otherSlot sl) ∧
      (f s.src[p]).named (otherSlot sl) = s.src[p].named (otherSlot sl))
    (face : s.src[p].face.state = .present → (f s.src[p]).face = s.src[p].face) (gone : (f s.src[p]).named sl = none) :
    Sound s₀ True (offerDeparts (s.src[p].named sl) (modSrc p f s)) := by
  cases named : s.src[p].named sl with
  | none =>
    exact h.slotBare (kept keepsClosedStep) (moved := fun sl' => sl' = sl) survey (fun sl' ne => eq_otherSlot ne ▸ apart)
      (fun sl' e => e ▸ named) (fun sl' e => e ▸ gone) face
  | some n =>
    obtain ⟨o, ho, e, -⟩ := h.places.named p sl n named
    obtain ⟨freed, around, src⟩ := offerDeparts_freed (s := s) (t := modSrc p f s) (n := n) ⟨o, by
      rw [← e]; exact h.offers.findOffer_eq ho⟩ rfl
    exact h.slotFreed ((kept keepsClosedStep).trans (keepsClosed.offerDeparts _ _))
      ((kept fixedKeptClosedStep).trans (fixedKeptClosed.offerDeparts _ _)) named away (src.trans rfl) survey
      ((Around.src p f s).trans around) freed apart face gone

theorem Sound.takeDeparture (h : Sound s₀ True s) (p : Fin 4) (sl : Slot) : Sound s₀ True (takeDeparture p sl s) := by
  unfold Machine.takeDeparture
  dsimp only
  split
  · split
    · next leaving =>
      have left := h.departs (p := p) (sl := .face) (f := SrcPos.settling s.prof.profile.settleGuard)
        (fun C => C.settling p _ s leaving) (fun _ => by rw [leaving]; decide) rfl ⟨rfl, rfl⟩
        (fun present => absurd (leaving.symm.trans present) (by decide)) rfl
      split
      · exact left.arbitrate
      · exact left
    · exact h
  · split
    · next leaving =>
      have apart : s.src[p].laneGone.stage .face = s.src[p].stage .face ∧ s.src[p].laneGone.named .face = s.src[p].named .face := by
        by_cases settling : s.src[p].face.state = .settling ∧ s.src[p].face.settleT = none
        · have stage : s.src[p].stage .face = none := congrArg FaceState.stage settling.1
          have gone : s.src[p].laneGone.face = {} := if_pos settling
          rw [stage, (h.slot p).named_none stage]
          exact ⟨congrArg (fun f : Face => f.state.stage) gone, congrArg (fun f : Face => f.offer) gone⟩
        · have stays : s.src[p].laneGone.face = s.src[p].face := if_neg settling
          exact ⟨congrArg (fun f : Face => f.state.stage) stays, congrArg (fun f : Face => f.offer) stays⟩
      exact ((h.departs (p := p) (sl := .lane) (f := SrcPos.laneGone) (fun C => C.laneGone p s leaving) (fun e => by cases e)
        rfl apart (fun present => if_neg fun settling => absurd (present.symm.trans settling.1) (by decide)) rfl).slotSettled
          p).arbitrate
    · exact h

/-! ## Lapses (R19, R55) -/

theorem offerLapses_freed {n : Nat} (listed : ∃ o, findOffer n t = some o) (offers : t.offers = s.offers) (p : Fin 4) (sl : Slot) :
    Freed n s (offerLapses n p sl t) ∧ Around t (offerLapses n p sl t) ∧ (offerLapses n p sl t).src = t.src := by
  obtain ⟨o, found⟩ := listed
  rw [offerLapses_of_found found]
  split
  · obtain ⟨src, -, -, -, filtered⟩ := dropOffer_fields n t
    exact ⟨Freed.notify (.gone (by rw [filtered, offers])) _, (Around.drop n t).trans (.notify ..), (notify_src ..).trans src⟩
  · exact ⟨Freed.notify (.back (fun x => { x.toWaiting with lapses := o.lapses + 1 }) (by rw [← offers]; rfl)
      (fun _ => ⟨rfl, rfl, rfl, rfl⟩) fun _ => ⟨rfl, rfl, rfl, rfl⟩) _, (Around.offer n _ t).trans (.notify ..), notify_src ..⟩

theorem Sound.callExpired (h : Sound s₀ True s) (p : Fin 4) (sl : Slot) : Sound s₀ True (callExpired p sl s) := by
  unfold Machine.callExpired
  split
  · next spent =>
    unfold takeLapse
    split
    · exact h
    · next n named =>
      obtain ⟨o, ho, e, -⟩ := h.places.named p sl n named
      obtain ⟨freed, around, src⟩ := offerLapses_freed (s := s) (t := modSrc p (SrcPos.emptied sl) s) (n := n) ⟨o, by
        rw [← e]; exact h.offers.findOffer_eq ho⟩ rfl p sl
      have away : sl = .face → s.src[p].face.state ≠ .present := fun e present => by
        subst e
        have run : s.src[p].face.callT.isSome = true := congrArg Option.isSome spent
        rcases (Face.state_of_timers (h.slot p).face).1 run with k | k <;> rw [k] at present <;> cases present
      refine Sound.arbitrate (Sound.slotSettled (h.slotFreed
        ((keepsClosedStep.lapsed p sl s spent).trans (keepsClosed.offerLapses n p sl _))
        ((fixedKeptClosedStep.lapsed p sl s spent).trans (fixedKeptClosed.offerLapses n p sl _)) named away (src.trans rfl)
        (y := s.src[p].emptied sl) (by cases sl <;> rfl) ((Around.src p _ s).trans around) freed
        (by cases sl <;> exact ⟨rfl, rfl⟩) (fun present => ?_) (by cases sl <;> rfl)) p)
      cases sl with
      | face => exact absurd present (away rfl)
      | lane => rfl
  · exact h

theorem Sound.leaveExpired (h : Sound s₀ True s) (p : Fin 4) (sl : Slot) : Sound s₀ True (leaveExpired p sl s) := by
  unfold Machine.leaveExpired
  split
  · exact h.faultSrc p _
  · exact h

/-! ## The settle guard (R35) -/

/-- The offer of the lane goes to a face that named none. -/
theorem Sound.slotForward (h : Sound s₀ True s) {p : Fin 4} {n : Nat} {f : SrcPos → SrcPos}
    (kept : ∀ {R : State → State → Prop}, ClosedStep R → R s (modSrc p f s)) (settling : s.src[p].face.state = .settling)
    (lane : s.src[p].lane.offer = some n) (survey : (f s.src[p]).surveyT = s.src[p].surveyT)
    (now : (f s.src[p]).named .face = some n) (left : (f s.src[p]).named .lane = none)
    (stage : (f s.src[p]).stage .face = s.src[p].stage .lane) :
    Sound s₀ True (modOffer n (fun o => { o with place := some (p, .face) }) (modSrc p f s)) := by
  have free := (h.slot p).named_none (sl := .face) (congrArg FaceState.stage settling)
  refine h.slotsAround ((kept keepsClosedStep).trans (keepsClosedStep.keep _ _ _ fun _ => ⟨rfl, rfl⟩))
    ((kept fixedKeptClosedStep).trans (fixedKeptClosedStep.keep _ _ _ fun _ => ⟨rfl, rfl⟩)) rfl survey
    ((Around.src p f s).trans (.offer n _ _)) (h.places.forward h.offers free lane rfl rfl now left stage)
    (.modOffer rfl fun _ _ _ => .of_same rfl rfl rfl rfl)
    (fun l c on at' => absurd at' (isLitSource_eq_false.mp (h.notLit (by rw [settling]; decide)) c on))
    fun _ _ _ => .modOffer rfl (fun _ => rfl) fun _ _ _ here => ⟨here, rfl⟩

theorem Sound.settleExpired (h : Sound s₀ True s) (p : Fin 4) : Sound s₀ True (settleExpired p s) := by
  unfold Machine.settleExpired
  dsimp only
  split
  · next spent =>
    have settling : s.src[p].face.state = .settling :=
      (Face.state_of_timers (h.slot p).face).2.2.1 (congrArg Option.isSome spent)
    obtain ⟨called, staged, -⟩ := Lane.names_of_state (h.slot p).lane
    split
    · next st =>
      obtain ⟨n, named⟩ := Option.isSome_iff_exists.mp (staged st)
      refine Sound.arbitrate (Sound.slotSettled ?_ p)
      have eq : advance p s = handOrder (.src p) (.gate .advance) (modOffer n (fun o => { o with place := some (p, .face) })
          (modSrc p (SrcPos.advanced (s.prof.profile.callTimeout * 10)) s)) := by
        rw [← handOrder_modOffer]
        simp only [advance, named]
      rw [eq]
      exact (h.slotForward (fun C => C.advanced p _ s spent st) settling named rfl named rfl
        (by rw [show s.src[p].stage .lane = s.src[p].lane.state.stage from rfl, st] <;> rfl)).hand rfl (by simp)
    · next st =>
      obtain ⟨n, named⟩ := Option.isSome_iff_exists.mp (called st).1
      refine Sound.arbitrate (Sound.slotSettled ?_ p)
      have eq : transferCall p s = Machine.callExpired p .face (modOffer n (fun o => { o with place := some (p, .face) })
          (modSrc p SrcPos.transferred s)) := by
        simp only [transferCall, named]
      rw [eq]
      exact (h.slotForward (fun C => C.transferred p s spent st) settling named rfl named rfl
        (by rw [show s.src[p].stage .lane = s.src[p].lane.state.stage from rfl, st] <;> rfl)).callExpired p .face
    · exact h.src (keepsClosedStep.stopGuard p s) (fun sl => by cases sl <;> exact ⟨rfl, rfl⟩) rfl
        fun _ _ _ _ present => absurd (settling.symm.trans present) (by decide)
    · next empty =>
      have stage : s.src[p].stage .face = none := congrArg FaceState.stage settling
      refine Sound.arbitrate (Sound.slotSettled (h.src (keepsClosedStep.faceFree p s spent empty) (fun sl => ?_) rfl
        fun _ _ _ _ present => absurd (settling.symm.trans present) (by decide)) p)
      cases sl with
      | face => rw [stage, (h.slot p).named_none stage]; exact ⟨rfl, rfl⟩
      | lane => exact ⟨rfl, rfl⟩
  · exact h

/-! ## Orphans, exposure and idle rescue (R38, R121 to R126, R135) -/

theorem Sound.orphanExpired (h : Sound s₀ True s) (p : Fin 4) : Sound s₀ True (orphanExpired p s) := by
  unfold Machine.orphanExpired
  split
  · next spent =>
    split
    · exact h
    · next n named =>
      refine h.releaseSlot (sl := .face) named (fun _ => isLitSource_eq_false.mpr fun c on at' => ?_) _
      subst at'
      obtain ⟨-, -, -, still, -⟩ := h.cycle trivial c on
      cases spent.1.symm.trans still
  · exact h

/-- The warning flags of some offers are judged. -/
theorem Sound.warned (h : Sound s₀ True s) {f : Offer → Offer} (margin : Nat)
    (judged : ∀ o, f o = o ∨ f o = { o with exposure := o.exposure.map fun e => e.judged margin }) :
    Sound s₀ True { s with offers := s.offers.map f } := by
  have fixed : FixedKept s { s with offers := s.offers.map f } := .of_map rfl fun o => by
    rcases judged o with e | e <;> rw [e]
    exact fixed_judged ..
  have tote : ∀ o, (f o).tote = o.tote := fun o => by rcases judged o with e | e <;> rw [e]
  have later : OffersLater s { s with offers := s.offers.map f } := .map rfl fun o _ => by
    rcases judged o with e | e <;> rw [e]
    · exact .refl o
    · exact .judged o margin
  refine ⟨State.offersOk_of_fixedKept fixed h.offers, h.slots, h.wall, h.profile, h.places.map rfl rfl fun o => ?_,
    h.records.of_pos rfl, h.lists.of_lines rfl fun pos => by cases pos <;> exact id,
    h.surveys.of_fewer (fun pos => by cases pos <;> exact id) rfl rfl, h.progress.later later, exposureGrows_later h.grows later,
    fun l => (h.cycle l).keep rfl (fun _ _ => .of_eq rfl) (fun c _ o found here => ?_) fun _ _ => .of_eq rfl rfl⟩
  · rcases judged o with e | e <;> rw [e] <;> rfl
  · refine ⟨f o, ?_, ?_, ?_⟩
    · rw [findOffer, List.find?_map]
      show (s.offers.find? fun x => (f x).tote == c.offer).map f = _
      simp only [tote]
      rw [show (s.offers.find? fun x => x.tote == c.offer) = some o from found] <;> rfl
    · rcases judged o with e | e <;> rw [e] <;> exact here
    · rcases judged o with e | e <;> rw [e]

theorem Sound.judgeWarning (h : Sound s₀ True s) (n : Nat) : Sound s₀ True (judgeWarning n s) :=
  h.warned s.prof.profile.warningMargin fun o => by
    split
    · exact .inr rfl
    · exact .inl rfl

theorem Sound.exposureExpired (h : Sound s₀ True s) (n : Nat) : Sound s₀ True (exposureExpired n s) := by
  unfold Machine.exposureExpired
  split
  · exact h
  · split
    · split
      · next on =>
        split
        · exact h.startGrace on
        · exact h.askRelease ..
      · exact h.askRelease ..
      · exact h.askRelease ..
      · exact h
    · exact h

theorem Sound.rescueSlot (h : Sound s₀ True s) (x : Fin 4 × Slot) : Sound s₀ True (rescueSlot s x) := by
  unfold Machine.rescueSlot
  split
  · exact h
  · split
    · exact h.askRelease ..
    · exact h

theorem Sound.idleRescue (h : Sound s₀ True s) : Sound s₀ True (idleRescue s) :=
  Sound.foldl (fun x h => h.rescueSlot x) _ h

theorem Sound.idleExpired (h : Sound s₀ True s) : Sound s₀ True (idleExpired s) := by
  unfold Machine.idleExpired
  split
  · exact (h.stopIdle.setPicker _ _).idleRescue
  · exact h

end

end Sys2Proof.Machine

namespace Sys2Proof.Machine

/-!
The reports and timers of an order position, the picker's keys and the HOLD input keep the bundle of invariants (R68 to R75,
R87 to R94, R131, R132).
-/

section
variable {s₀ s t : State}

/-! ## Arrivals and departures of order totes (R68, R74) -/

/-- An order position that is not ACTIVE, and so not the target of the lit cycle, changes with the record it holds. -/
theorem Sound.ordAside (h : Sound s₀ True s) {q : Fin 12} {f : OrdPos → OrdPos} (kept : Keeps s (modOrd q f s))
    (away : s.wall.pos[q].state ≠ .active) (survey : (f s.wall.pos[q]).surveyT = s.wall.pos[q].surveyT)
    (heir : s.wall.pos[q].RecordOk → s.wall.pos[q].Heir (f s.wall.pos[q])) : Sound s₀ True (modOrd q f s) :=
  h.ord kept heir survey fun _ _ _ _ active => absurd active away

theorem Sound.exitOrd (h : Sound s₀ True s) (q : Fin 12) : Sound s₀ True (exitOrd q s) := Sound.hand h rfl (by simp)

theorem Sound.emptyOrd (h : Sound s₀ True s) {q : Fin 12}
    (gone : s.wall.pos[q].settleT = some 0 ∨ s.wall.pos[q].state = .expected) : Sound s₀ True (emptyOrd q s) := by
  have away : s.wall.pos[q].state ≠ .active := by
    rcases gone with spent | expected
    · rw [(h.items q).settleT (congrArg Option.isSome spent)]; decide
    · rw [expected]; decide
  have emptied : Sound s₀ True (modOrd q OrdPos.emptied s) :=
    h.ordAside (keepsClosedStep.emptied q s gone) away rfl fun _ _ here => by cases here
  unfold Machine.emptyOrd
  dsimp only
  split
  · exact emptied.closeOrd (by rw [modOrd_self]; exact fun e => by cases e)
  · exact emptied

theorem Sound.takeOrderArrival (h : Sound s₀ True s) (q : Fin 12) (id : Option Nat) : Sound s₀ True (takeOrderArrival q id s) := by
  have wrong : Sound s₀ True (notifyWall q (.wrongTote id) s) := h.notify _
  have out : Sound s₀ True (notifyWall q (.wrongTote id) (Machine.exitOrd q s)) := (h.exitOrd q).notify _
  unfold Machine.takeOrderArrival
  dsimp only
  split
  · next expected =>
    split
    · have arrived : Sound s₀ True (modOrd q (OrdPos.putState .arrived) s) :=
        h.ordAside (keepsClosedStep.arrived q s expected) (by rw [expected]; decide) rfl fun ok =>
          ok.heir_of_same rfl fun active => .inr (active.resolve_left fun e => by cases e)
      exact Sound.recordEntered (arrived.notify _)
    · exact out
  · exact out
  · exact out
  · split
    · exact h
    · exact wrong
  · split
    · exact h
    · exact wrong
  · split
    · exact h
    · exact wrong
  · exact wrong
  · exact h.exitOrd q
  · exact h

theorem Sound.takeOrderDeparture (h : Sound s₀ True s) (q : Fin 12) : Sound s₀ True (takeOrderDeparture q s) := by
  unfold Machine.takeOrderDeparture
  split
  · next leaving =>
    exact h.ordAside (keepsClosedStep.departed q _ s leaving) (by rw [leaving]; decide) rfl fun ok =>
      ok.heir_of_same rfl fun active => .inr (active.resolve_left fun e => by cases e)
  · exact h

theorem Sound.orderLeaveExpired (h : Sound s₀ True s) (q : Fin 12) : Sound s₀ True (orderLeaveExpired q s) := by
  unfold Machine.orderLeaveExpired
  split
  · exact h.faultOrd q _
  · exact h

theorem Sound.orderSettleExpired (h : Sound s₀ True s) (q : Fin 12) : Sound s₀ True (orderSettleExpired q s) := by
  unfold Machine.orderSettleExpired
  split
  · next spent => exact h.emptyOrd (.inl spent)
  · exact h

/-! ## Stable weights (R60, R68 to R70, R87, R92) -/

theorem Sound.weighed (h : Sound s₀ True s) (q : Fin 12) (g : Gross) : Sound s₀ True (modOrd q (OrdPos.weighed g) s) :=
  h.ord (keepsClosedStep.weighed q g s) (fun ok => ok.heir_of_same rfl id) rfl fun _ _ _ _ => .of_eq rfl rfl

/-- A record becomes ACTIVE with its first stable weight for its baseline (R68). -/
theorem Sound.activateRecord (h : Sound s₀ True s) {q : Fin 12} (was : s.wall.pos[q].state = .arrived) (g : Gross) :
    Sound s₀ True (activateRecord q g s) := by
  unfold Machine.activateRecord
  split
  · exact h.notify _
  · next w =>
    refine Sound.recordEntered (Sound.notify ?_ _)
    have kept := (keepsClosedStep.active q s was).trans
      (keepsClosed.record q (fun r => { r with baseline := some w, cond := .clean }) (modOrd q (OrdPos.putState .active) s))
    unfold modRec at kept ⊢
    rw [modOrd_modOrd] at kept ⊢
    exact h.ordAside kept (by rw [was]; decide) rfl fun ok r' here => by
      obtain ⟨r, at', rfl⟩ := Option.map_eq_some_iff.mp here
      exact ⟨r, at', rfl, rfl, (ok r at').1, fun _ => rfl⟩

theorem Sound.cleanRecord (h : Sound s₀ True s) {q : Fin 12} (away : ∀ c, s.put.cycle = some c → c.tgt ≠ q) :
    Sound s₀ True (cleanRecord q s) :=
  Sound.lightOff (h.record (f := fun r => { r with cond := .clean, misput := false }) (fun _ => ⟨rfl, rfl⟩) (fun _ _ => id) (fun _ => id) fun _ c on at' => absurd at' (away c on)) q

theorem Sound.disturbByReport (h : Sound s₀ True s) {q : Fin 12} (away : ∀ c, s.put.cycle = some c → c.tgt ≠ q)
    (active : s.wall.pos[q].state = .active) (d : Disturbance) (g : Gross) (b : Nat) :
    Sound s₀ True (disturbByReport q d g b s) := by
  have changed : Sound s₀ True (notifyWall q (.disturbed d g b s.put.cycle.isSome)
      (modRec q (fun r => { r with cond := .disturbed d, misput := r.misput || s.put.cycle.isSome }) s)) :=
    Sound.notify (h.record (f := fun r => { r with cond := .disturbed d, misput := r.misput || s.put.cycle.isSome }) (fun _ => ⟨rfl, rfl⟩) (fun _ _ => id) (fun _ => id) fun _ c on at' => absurd at' (away c on)) _
  unfold Machine.disturbByReport
  dsimp only
  split
  · refine changed.lightOn ?_
    rw [show ∀ u : State, (notifyWall q (.disturbed d g b s.put.cycle.isSome) u).wall = u.wall from fun u => notify_wall .., modRec,
      modOrd_self]
    exact active
  · exact changed

theorem Sound.judgeCondition (h : Sound s₀ True s) {q : Fin 12} (away : ∀ c, s.put.cycle = some c → c.tgt ≠ q)
    (active : s.wall.pos[q].state = .active) (g : Gross) : Sound s₀ True (judgeCondition q g s) := by
  unfold Machine.judgeCondition
  split
  · exact h
  · dsimp only
    split
    · exact h
    · split
      · exact Sound.wallChanged (Sound.cleanRecord (h.notify _) fun c on => away c ((congrArg PutSeq.cycle (notify_put ..)).symm.trans on))
      · exact (h.disturbByReport away active _ _ _).wallChanged

theorem Sound.takeActiveStable (h : Sound s₀ True s) {q : Fin 12} (active : s.wall.pos[q].state = .active) (g : Gross) :
    Sound s₀ True (takeActiveStable q g s) := by
  unfold Machine.takeActiveStable
  split
  · next dark => exact h.judgeCondition (fun c on => by rw [dark] at on; cases on) active g
  · next c on =>
    split
    · split
      · exact h.weighTarget on g
      · exact h
    · next other =>
      refine h.judgeCondition (fun c' on' => ?_) active g
      rw [on] at on'
      cases on'
      exact other

theorem Sound.takeStable (h : Sound s₀ True s) (q : Fin 12) (g : Gross) : Sound s₀ True (takeStable q g s) := by
  have weighed : s.wall.pos[q].state ≠ .closed → (if s.wall.pos[q].state = .closed then s
      else modOrd q (OrdPos.weighed g) s) = modOrd q (OrdPos.weighed g) s := fun run => if_neg run
  have state : (modOrd q (OrdPos.weighed g) s).wall.pos[q].state = s.wall.pos[q].state :=
    (congrArg OrdPos.state (modOrd_self q (OrdPos.weighed g) s)).trans rfl
  have owner : Sound s₀ True (match s.wall.pos[q].state with
      | .arrived => Machine.activateRecord q g (if s.wall.pos[q].state = .closed then s else modOrd q (OrdPos.weighed g) s)
      | .active => Machine.takeActiveStable q g (if s.wall.pos[q].state = .closed then s else modOrd q (OrdPos.weighed g) s)
      | _ => if s.wall.pos[q].state = .closed then s else modOrd q (OrdPos.weighed g) s) := by
    split
    · next e =>
      rw [weighed (by rw [e]; decide)]
      exact (h.weighed q g).activateRecord (state.trans e) g
    · next e =>
      rw [weighed (by rw [e]; decide)]
      exact (h.weighed q g).takeActiveStable (state.trans e) g
    · split
      · exact h
      · exact h.weighed q g
  unfold Machine.takeStable
  dsimp only
  split
  · exact owner.activity _ _
  · exact owner

/-! ## The HOLD input (R86, R131, R132) -/

theorem Sound.darkenAll (h : Sound s₀ True s) : Sound s₀ True (darkenAll s) := by
  unfold Machine.darkenAll
  dsimp only
  refine Sound.foldl (fun q h => h.lightOff q) _ ?_
  split
  · exact h
  · next c on => exact h.darkCycle (h.comp_lt (h.cycle trivial c on)) none

theorem Sound.restoreLight (h : Sound s₀ True s) (q : Fin 12) : Sound s₀ True (restoreLight s q) := by
  unfold Machine.restoreLight
  split
  · next on => exact h.lightOn on.1
  · exact h

theorem Sound.restoreAll (h : Sound s₀ True s) : Sound s₀ True (restoreAll s) := by
  unfold Machine.restoreAll
  dsimp only
  refine Sound.foldl (fun q h => h.restoreLight q) _ ?_
  split
  · exact h
  · next c on => exact (h.lightSource c _).lightTarget (h.comp_lt (h.cycle trivial c on)) _

theorem Sound.holdGoesOn (h : Sound s₀ True s) : Sound s₀ True (holdGoesOn s) := by
  unfold Machine.holdGoesOn
  split
  · exact h
  · exact (h.stopIdle.setPicker _ _).darkenAll

theorem Sound.holdGoesOff (h : Sound s₀ True s) : Sound s₀ True (holdGoesOff s) := by
  unfold Machine.holdGoesOff
  split
  · exact (h.setPicker _ _).startIdle.restoreAll.arbitrate.attempt
  · exact h

end

end Sys2Proof.Machine

namespace Sys2Proof.Machine

/-!
The requests about offers and order tote records keep the bundle of invariants (R9, R15, R64 to R67, R71 to R73).
-/

section
variable {s₀ s t : State}

/-! ## OFFER and RECALL (R9, R13, R15) -/

/-- An accepted OFFER makes a WAITING record without a place. -/
theorem judgeOffer_waiting {bs : List Byte} {o : Offer} (ok : judgeOffer s bs = .ok o) :
    o.Timed ∧ o.state = .waiting ∧ o.place = none ∧ findOffer o.tote s = none := by
  obtain ⟨-, new, -, t, budget, used, ls, -, -, e⟩ := judgeOffer_ok ok
  refine ⟨?_, by rw [e] <;> rfl, by rw [e] <;> rfl, new⟩
  rw [e]
  exact .before rfl rfl (fun k => by cases k) fun k => by cases k

theorem Sound.appendOffer (h : Sound s₀ True s) (same : s.offers = s₀.offers) {bs : List Byte} {o : Offer}
    (ok : judgeOffer s bs = .ok o) : Sound s₀ True (appendOffer o s) := by
  obtain ⟨timed, waiting, place, new⟩ := judgeOffer_waiting ok
  refine ⟨State.offersOk_appendOffer ok h.offers, h.slots, h.wall, h.profile, h.places.append rfl rfl timed waiting place,
    h.records.of_pos rfl, h.lists.of_lines rfl fun pos => by cases pos <;> exact id,
    h.surveys.of_fewer (fun pos => by cases pos <;> exact id) rfl rfl, fun x hx => ?_, fun x hx x' hx' e => ?_,
    fun l => (h.cycle l).keep rfl (fun _ _ => .of_eq rfl) (fun c _ x found here => ⟨x, ?_, here, rfl⟩) fun _ _ => .of_eq rfl rfl⟩
  · rcases List.mem_append.mp hx with old | fresh
    · exact h.progress x old
    · rw [List.mem_singleton.mp fresh]
      exact (o.progressOk_iff).mpr (judgeOffer_progressOk ok)
  · rcases List.mem_append.mp hx' with old | fresh
    · exact h.grows x hx x' old e
    · rw [List.mem_singleton.mp fresh] at e
      rw [findOffer, List.find?_eq_none] at new
      exact absurd (new x (same ▸ hx)) (by simp [e])
  · show (s.offers ++ [o]).find? _ = _
    rw [List.find?_append, show (s.offers.find? fun x => x.tote == c.offer) = some x from found] <;> rfl

theorem Sound.ownOffer (h : Sound s₀ True s) (same : s.offers = s₀.offers) (r : Request) (bs : List Byte) :
    Sound s₀ True (ownOffer r bs s) := by
  unfold Machine.ownOffer
  split
  · exact h.answer ..
  · next o ok => exact Sound.arbitrate ((h.appendOffer same ok).answer ..)

theorem FaceState.called_of_stage {x : FaceState} (h : x.stage = some .called) : x = .called := by
  cases x with
  | called => rfl
  | _ => cases h

theorem LaneState.called_of_stage {x : LaneState} (h : x.stage = some .called) : x = .called := by
  cases x with
  | called => rfl
  | _ => cases h

theorem Sound.divertCall (h : Sound s₀ True s) {o : Offer} (ho : o ∈ s.offers) (called : o.state = .called) {p : Fin 4} {sl : Slot}
    (place : o.place = some (p, sl)) (r : Request) : Sound s₀ True (divertCall r o.tote p sl s) := by
  obtain ⟨named, stage⟩ := h.named_of_place ho place
  rw [called] at stage
  obtain ⟨src, -, -, -, offers⟩ := dropOffer_fields o.tote (modSrc p (SrcPos.diverted sl) s)
  have empty : s.src[p].diverted sl = s.src[p].emptied sl := by
    cases sl with
    | face => exact if_pos (FaceState.called_of_stage stage)
    | lane => exact if_pos (LaneState.called_of_stage stage)
  refine Sound.arbitrate (Sound.answer (Sound.slotSettled (h.slotFreed
    ((keepsClosedStep.diverted p sl s).trans (keepsClosed.drop o.tote _))
    ((fixedKeptClosedStep.diverted p sl s).trans (fixedKeptClosed.drop o.tote _)) named (fun e present => ?_) (src.trans rfl)
    (y := s.src[p].diverted sl) (by rw [empty]; cases sl <;> rfl) ((Around.src p _ s).trans (.drop ..)) (.gone offers)
    (by rw [empty]; cases sl <;> exact ⟨rfl, rfl⟩) (fun present => ?_) (by rw [empty]; cases sl <;> rfl)) p) _ _)
  · subst e
    exact absurd ((congrArg FaceState.stage present).symm.trans stage) (by decide)
  · cases sl with
    | face => exact absurd ((congrArg FaceState.stage present).symm.trans stage) (by decide)
    | lane => rw [empty] <;> rfl

theorem Sound.ownRecall (h : Sound s₀ True s) (r : Request) (n : Nat) : Sound s₀ True (ownRecall r n s) := by
  unfold Machine.ownRecall
  split
  · exact h.answer ..
  · next o found =>
    have ho := findOffer_mem found
    have tote := findOffer_tote found
    subst tote
    split
    · next waiting => exact (h.dropOffer (h.places.unnamed h.offers ho waiting)).answer ..
    · next called place => exact h.divertCall ho called place r
    · next place => exact (h.releaseSlot (h.named_of_place ho place).1 (fun e => by cases e) _).answer ..
    · next place =>
      split
      · exact h.answer ..
      · next notLit => exact (h.releaseSlot (h.named_of_place ho place).1 (fun _ => by simpa using notLit) _).answer ..
    · exact h.answer ..
    · exact h.answer ..

/-! ## Order tote records (R64 to R67, R71, R72) -/

theorem registered_surveyT (x : OrdPos) (r : Rec) (pr : Profile) (cs : List (Nat × Nat)) :
    (registered x r pr cs).surveyT = x.surveyT := by
  unfold registered
  split <;> rfl

/-- A registered record joins those on the wall (R62, R64, R65). -/
theorem Sound.registered (h : Sound s₀ True s) {f : WallAddFields} {q : Fin 12} (ok : judgeWallAdd f s = .ok q) (seq : Nat) :
    Sound s₀ True (modOrd q (fun _ => Machine.registered s.wall.pos[q] (makeRecord s.prof.profile seq f) s.prof.profile f.charges)
      (setCounter seq s)) := by
  have at' := judgeWallAdd_state ok
  have away : s.wall.pos[q].state ≠ .active := by rcases at' with e | e <;> rw [e] <;> decide
  have kept := (Keeps.same (s := s) (t := setCounter seq s) rfl rfl rfl rfl rfl rfl rfl).trans (keepsClosedStep.registered q
    (makeRecord s.prof.profile seq f) s.prof.profile f.charges (setCounter seq s) at')
  have survey : ∀ pos, inSurvey pos (modOrd q (fun _ => Machine.registered s.wall.pos[q] (makeRecord s.prof.profile seq f)
      s.prof.profile f.charges) (setCounter seq s)) = inSurvey pos s := inSurvey_congr (fun _ => rfl) fun q' => by
    rw [modOrd_getElem]
    split
    · next e => subst e; rw [registered_surveyT] <;> rfl
    · rfl
  exact ⟨h.offers, h.slots, kept.wall h.wall, h.profile, h.places.of_eq rfl rfl, h.records.registered h.wall h.profile.1 ok seq rfl,
    h.lists.of_lines rfl fun pos run => (survey pos).trans run, h.surveys.of_fewer (fun pos run => (survey pos).symm.trans run) rfl rfl,
    h.progress, h.grows, fun l => State.cycleOk.ord (s := setCounter seq s) (h.cycle l) fun _ _ _ active => absurd active away⟩

theorem Sound.ownWallAdd (h : Sound s₀ True s) (r : Request) (f : WallAddFields) : Sound s₀ True (ownWallAdd r f s) := by
  unfold Machine.ownWallAdd
  split
  · exact h.answer ..
  · next q ok =>
    exact Sound.recordEntered (Sound.answer (Sound.notify (h.registered ok _) _) _ _)

/-- A record's condition aside, what a cycle reads of it is as it was. -/
theorem Sound.urged (h : Sound s₀ True s) (ref : Nat) (u : Bool) : Sound s₀ True (setUrgent ref u s) := by
  unfold setUrgent
  refine Sound.foldl (fun q h => h.record (f := fun r => if r.ref = ref then { r with urgent := u } else r) (fun r => ?_)
    (fun r _ ok => ?_) (fun r some => ?_) fun _ _ _ _ r _ _ => ?_) _ h
  · split <;> exact ⟨rfl, rfl⟩
  · split <;> exact ok
  · split <;> exact some
  · split <;> rfl

theorem Sound.ownWallUrge (h : Sound s₀ True s) (r : Request) (a : Nat × Byte) : Sound s₀ True (ownWallUrge r a s) := by
  unfold Machine.ownWallUrge
  dsimp only
  split
  · exact h.answer ..
  · have urged := (h.urged a.1 (flagOf a.2)).answer r (.ok (.urged ((allRecords s).countP fun x => x.ref == a.1)))
    split
    · exact urged.arbitrate
    · exact urged

theorem Sound.ownWallWindow (h : Sound s₀ True s) (r : Request) (a : Nat × Nat × WindowField) :
    Sound s₀ True (ownWallWindow r a s) := by
  unfold Machine.ownWallWindow
  split
  · next q t _ _ =>
    split
    · exact h.answer ..
    · split
      · exact h.answer ..
      · next x _ =>
        split
        · exact h.answer ..
        · split
          · exact h.answer ..
          · dsimp only
            refine Sound.wallChanged (Sound.answer ?_ _ _)
            exact h.record (f := fun y => { y with
                windows := y.windows.set t (storeWindow x.count a.2.2), full := y.full.set t false })
              (fun _ => ⟨rfl, rfl⟩) (fun _ _ => id) (fun _ => id) fun _ _ _ _ _ _ _ => rfl
  · exact h.answer ..

/-- A record with one compartment shut (R72). -/
def Rec.shutting (j : Nat) (x : Rec) : Rec :=
  { x with comps := x.comps.modify j fun c => { c with shut := true }, full := ⟨false, false, false⟩ }

/-- A compartment is shut that the lit cycle does not target. -/
theorem Sound.shutComp (h : Sound s₀ True s) {q : Fin 12} {j : Nat} (away : cycleTargets q j s = false) :
    Sound s₀ True (modRec q (Rec.shutting j) s) := by
  have changed : Sound s₀ False (modRec q (Rec.shutting j) s) :=
    h.weaken.record (fun _ => ⟨rfl, rfl⟩) (fun x _ ok => Rec.chargesOk_modify (j := j) ok rfl rfl rfl rfl fun _ _ w v => ⟨w, v⟩)
      (fun _ => id) fun no => no.elim
  refine { changed with cycle := fun _ c on => ?_ }
  obtain ⟨less, present, named, still, o, l, x, k, found, here, line, opn, owed, mode, active, record, clean, ref, tote, comp,
    unshut, weight, volume, free⟩ := h.cycle trivial c on
  by_cases e : q = c.tgt
  · subst e
    have ne : j ≠ c.comp := fun e => by
      rw [cycleTargets, show s.put.cycle = some c from on] at away
      simp [e] at away
    have mine := modOrd_self c.tgt (fun y => { y with record := y.record.map (Rec.shutting j) }) s
    have held : (s.wall.pos[c.tgt].record.map (Rec.shutting j)) = some (x.shutting j) := by rw [record] <;> rfl
    exact ⟨less, present, named, still, o, l, _, k, found, here, line, opn, owed, mode, (congrArg OrdPos.state mine).trans active,
      (congrArg OrdPos.record mine).trans held, clean, ref, tote, (List.getElem?_modify_ne _ _ ne).trans comp, unshut, weight,
      volume, free⟩
  · have same : (modRec q (Rec.shutting j) s).wall.pos[c.tgt] = s.wall.pos[c.tgt] := by
      rw [modRec, modOrd_getElem, if_neg e]
    exact ⟨less, present, named, still, o, l, x, k, found, here, line, opn, owed, mode, (congrArg OrdPos.state same).trans active,
      (congrArg OrdPos.record same).trans record, clean, ref, tote, comp, unshut, weight, volume, free⟩

theorem Sound.ownWallShut (h : Sound s₀ True s) (r : Request) (a : Nat × Nat) : Sound s₀ True (ownWallShut r a s) := by
  unfold Machine.ownWallShut
  split
  · exact h.answer ..
  · split
    · exact h.answer ..
    · split
      · exact h.answer ..
      · split
        · exact h.answer ..
        · split
          · exact h.answer ..
          · next away =>
            split
            · exact h.answer ..
            · exact Sound.wallChanged ((h.shutComp (by simpa using away)).answer ..)

theorem isTarget_eq_false {q : Fin 12} : isTarget q s = false ↔ ∀ c, s.put.cycle = some c → c.tgt ≠ q := by
  unfold isTarget
  cases s.put.cycle with
  | none => simp
  | some c => simp

theorem Sound.ownWallRebase (h : Sound s₀ True s) (r : Request) (n : Nat) : Sound s₀ True (ownWallRebase r n s) := by
  unfold Machine.ownWallRebase
  split
  · exact h.answer ..
  · next q _ =>
    split
    · exact h.answer ..
    · next free =>
      have away := isTarget_eq_false.mp (by simpa using free : isTarget q s = false)
      split
      · exact h.answer ..
      · split
        · next g _ =>
          have based : Sound s₀ True (modRec q (fun x => { x with baseline := some g }) s) :=
            h.record (fun _ => ⟨rfl, rfl⟩) (fun _ _ => id) (fun _ _ => rfl) fun _ c on at' => absurd at' (away c on)
          dsimp only
          split
          · refine Sound.wallChanged (Sound.answer (Sound.cleanRecord (based.notify _) fun c on => away c ?_) _ _)
            exact (congrArg PutSeq.cycle (notify_put _ (modRec q (fun x => { x with baseline := some g }) s))).symm.trans on
          · exact based.answer ..
        · exact h.answer ..

/-! ## WALL-RELEASE (R73) -/

/-- A tote that is not the lit target's is ordered out. -/
theorem Sound.leaveOrd (h : Sound s₀ True s) {q : Fin 12} (away : ∀ c, s.put.cycle = some c → c.tgt ≠ q)
    (was : s.wall.pos[q].state = .arrived ∨ s.wall.pos[q].state = .active ∨ s.wall.pos[q].state = .occupied) (time : Nat) :
    Sound s₀ True (modOrd q (OrdPos.leave time) s) :=
  h.ord (keepsClosedStep.leaveOrd q time s was) (fun ok => ok.heir_of_map rfl
      (fun active => .inr (active.resolve_left fun e => by cases e)) (fun _ _ => ⟨rfl, rfl⟩) (fun _ _ => id) fun _ => id) rfl
    fun _ c on at' => absurd at' (away c on)

theorem notifyReleased_put (q : Fin 12) (b : Bool) (s : State) : (Machine.notifyReleased q b s).put = s.put := by
  rw [notifyReleased_eq]
  exact notify_put ..

theorem Sound.notifyReleased (h : Sound s₀ True s) (q : Fin 12) (b : Bool) : Sound s₀ True (notifyReleased q b s) := by
  rw [notifyReleased_eq]
  exact h.notify _

theorem Sound.releaseOrd (h : Sound s₀ True s) {q : Fin 12} (away : ∀ c, s.put.cycle = some c → c.tgt ≠ q)
    (was : s.wall.pos[q].state = .arrived ∨ s.wall.pos[q].state = .active ∨ s.wall.pos[q].state = .occupied) :
    Sound s₀ True (releaseOrd q s) := by
  have out : Sound s₀ True (Machine.exitOrd q (modOrd q (OrdPos.leave (s.prof.profile.leaveTimeout * 10))
      (Machine.notifyReleased q false s))) :=
    ((h.notifyReleased q false).leaveOrd (fun c on => away c (by rwa [notifyReleased_put] at on))
      (by rw [notifyReleased_state]; exact was) _).exitOrd q
  unfold Machine.releaseOrd
  dsimp only
  split
  · exact out.hand rfl (by simp)
  · exact out

theorem Sound.ownWallRelease (h : Sound s₀ True s) (r : Request) (n : Nat) : Sound s₀ True (ownWallRelease r n s) := by
  have litActive : ∀ c, s.put.cycle = some c → s.wall.pos[c.tgt].state = .active := fun c on => by
    obtain ⟨-, -, -, -, _, _, _, _, -, -, -, -, -, -, active, -⟩ := h.cycle trivial c on
    exact active
  unfold Machine.ownWallRelease
  split
  · exact h.answer ..
  · next q _ =>
    split
    · exact h.answer ..
    · exact h.answer ..
    · exact h.answer ..
    · exact h.answer ..
    · exact h.answer ..
    · next expected =>
      exact Sound.wallChanged (((h.notifyReleased q false).emptyOrd (.inr (by rw [notifyReleased_state]; exact expected))).answer ..)
    · next occupied =>
      exact (h.releaseOrd (fun c on at' => by subst at'; exact absurd ((litActive c on).symm.trans occupied) (by decide))
        (.inr (.inr occupied))).answer ..
    · next closed faulted empty leaving settling expected occupied =>
      split
      · exact h.answer ..
      · next free =>
        refine Sound.wallChanged ((h.releaseOrd (isTarget_eq_false.mp (by simpa using free)) ?_).answer ..)
        cases e : s.wall.pos[q].state with
        | arrived => exact .inl rfl
        | active => exact .inr (.inl rfl)
        | _ => simp_all

end

end Sys2Proof.Machine

namespace Sys2Proof.Machine

/-!
The requests about positions, the profile, the bench and the link, and the link itself, keep the bundle of invariants
(R39, R41, R76, R138 to R153, R163 to R169).
-/

section
variable {s₀ s t : State} {lit : Prop}

/-! ## Surveys that begin (R41, R161) -/

/-- A position that begins its survey is CLOSED or FAULTED (R160). -/
def maySurvey (pos : Pos) (s : State) : Prop :=
  match pos with
  | .src p => s.src[p].state = .closed ∨ s.src[p].state = .faulted
  | .ord q => s.wall.pos[q].state = .closed ∨ s.wall.pos[q].state = .faulted

theorem Sound.beginSurvey (h : Sound s₀ lit s) {pos : Pos} (may : maySurvey pos s) (still : inSurvey pos s = false)
    (reason : s.bench.surveying = true ∨ ∃ x, s.link.held = some x ∧ x.job.waitsFor pos = true) :
    Sound s₀ lit (beginSurvey pos s) := by
  have lists := h.lists.begin still
  have surveys := h.surveys.begin reason
  have kept : Keeps s (Machine.beginSurvey pos s) := by
    cases pos with
    | src p => exact keepsClosedStep.beginSurveySrc p s may
    | ord q => exact keepsClosedStep.beginSurveyOrd q s may
  rw [beginSurvey_eq] at lists surveys kept ⊢
  cases pos with
  | src p =>
    exact ⟨h.offers, kept.slots h.slots, h.wall, h.profile,
      (h.places.src (f := SrcPos.setSurvey (some Config.surveyTenths)) fun sl => by cases sl <;> exact ⟨rfl, rfl⟩).of_eq rfl rfl,
      h.records.of_pos rfl, lists, surveys, h.progress, h.grows,
      fun l => ((h.cycle l).src (f := SrcPos.setSurvey (some Config.surveyTenths)) fun _ _ _ => .of_eq rfl).of_eq rfl rfl rfl rfl⟩
  | ord q =>
    exact ⟨h.offers, h.slots, kept.wall h.wall, h.profile, h.places.of_eq rfl rfl,
      (h.records.ord (f := OrdPos.setSurvey (some Config.surveyTenths)) fun ok => ok.heir_of_same rfl id).of_pos rfl, lists, surveys,
      h.progress, h.grows,
      fun l => ((h.cycle l).ord (f := OrdPos.setSurvey (some Config.surveyTenths)) fun _ _ _ => .of_eq rfl rfl).of_eq rfl rfl rfl rfl⟩

/-- Where no request is held and the start-up survey is over, no position is in a survey (R142, R160). -/
theorem Sound.noSurvey (h : Sound s₀ lit s) (free : s.link.held = none) (ended : s.bench.surveying = false) (pos : Pos) :
    inSurvey pos s = false := by
  by_contra run
  rcases h.surveys pos (by simpa using run) with surveying | ⟨x, held, -⟩
  · rw [ended] at surveying; cases surveying
  · rw [free] at held; cases held

/-- A request that holds execution, while no survey is in progress. -/
theorem Sound.holdFor (h : Sound s₀ lit s) (quiet : ∀ pos, inSurvey pos s = false) (r : Request) (j : HeldJob) :
    Sound s₀ lit (holdFor r j s) :=
  h.putLinkBench (l := { s.link with held := some { req := r, job := j } }) (b := s.bench) fun pos run => by
    have run' : inSurvey pos s = true := by cases pos <;> exact run
    rw [quiet] at run'
    cases run'

theorem Sound.surveyFor (h : Sound s₀ lit s) (quiet : ∀ pos, inSurvey pos s = false) (r : Request) {j : HeldJob} {pos : Pos}
    (may : maySurvey pos s) (waits : j.waitsFor pos = true) :
    Sound s₀ lit (Machine.beginSurvey pos (Machine.holdFor r j s)) := by
  refine (h.holdFor quiet r j).beginSurvey (by cases pos <;> exact may) ?_ (.inr ⟨_, rfl, waits⟩)
  have still := quiet pos
  cases pos <;> exact still

/-! ## Opening and closing positions (R39, R41, R76) -/

/-- The state of a position changes, its slots as they were. -/
theorem Sound.setState (h : Sound s₀ lit s) {p : Fin 4} {st : SrcState} (kept : Keeps s (modSrc p (SrcPos.putState st) s)) :
    Sound s₀ lit (modSrc p (SrcPos.putState st) s) :=
  h.src kept (fun sl => by cases sl <;> exact ⟨rfl, rfl⟩) rfl fun _ _ _ _ => .of_eq rfl

theorem Sound.startClosing (h : Sound s₀ lit s) {p : Fin 4} (here : s.src[p].state = .opn) :
    Sound s₀ lit (notifySrc p (modSrc p (SrcPos.putState .closing) s)) :=
  (h.setState (keepsClosedStep.closing p s here)).notify _

theorem Sound.closeFaulted (h : Sound s₀ lit s) {p : Fin 4} (here : s.src[p].state = .faulted) : Sound s₀ lit (Machine.closeSrc p s) :=
  h.closeSrc ((h.slot p).bothEmpty (.inr here))

theorem Sound.ownPosClose (h : Sound s₀ True s) (r : Request) (n : Nat) : Sound s₀ True (ownPosClose r n s) := by
  unfold Machine.ownPosClose
  split
  · exact h.answer ..
  · split
    · exact h.answer ..
    · split
      · next here =>
        split
        · next empty => exact (h.closeSrc empty).judgeDrain.answer ..
        · exact (h.startClosing here).answer ..
      · exact h.answer ..
      · exact h.answer ..
      · next here => exact (h.closeFaulted here).judgeDrain.answer ..

theorem Sound.ownPosOpen (h : Sound s₀ True s) (quiet : ∀ pos, inSurvey pos s = false) (r : Request) (n : Nat) :
    Sound s₀ True (ownPosOpen r n s) := by
  unfold Machine.ownPosOpen
  split
  · exact h.answer ..
  · next p _ =>
    split
    · exact h.answer ..
    · split
      · exact h.answer ..
      · next here => exact (((h.setState (keepsClosedStep.reopening p s here)).notify _).answer ..).arbitrate
      · next opn closing =>
        refine h.surveyFor quiet r ?_ (decide_eq_true rfl)
        show s.src[p].state = .closed ∨ s.src[p].state = .faulted
        cases e : s.src[p].state with
        | opn => exact absurd e opn
        | closing => exact absurd e closing
        | closed => exact .inl rfl
        | faulted => exact .inr rfl

theorem Sound.ownPosOpenOrder (h : Sound s₀ True s) (quiet : ∀ pos, inSurvey pos s = false) (r : Request) (n : Nat) :
    Sound s₀ True (ownPosOpenOrder r n s) := by
  unfold Machine.ownPosOpenOrder
  split
  · exact h.answer ..
  · next q _ =>
    split
    · exact h.answer ..
    · split
      · next closed => exact h.surveyFor quiet r (.inl closed) (decide_eq_true rfl)
      · next faulted => exact h.surveyFor quiet r (.inr faulted) (decide_eq_true rfl)
      · exact h.answer ..

theorem Sound.closeFaultedOrd (h : Sound s₀ True s) {q : Fin 12} (here : s.wall.pos[q].state = .faulted) :
    Sound s₀ True (closeFaultedOrd q s) := by
  unfold Machine.closeFaultedOrd
  split
  · exact (h.notifyReleased q true).closeOrd (by rw [notifyReleased_state, here]; decide)
  · exact h.closeOrd (by rw [here]; decide)

theorem Sound.ownPosCloseOrder (h : Sound s₀ True s) (r : Request) (n : Nat) : Sound s₀ True (ownPosCloseOrder r n s) := by
  unfold Machine.ownPosCloseOrder
  split
  · exact h.answer ..
  · split
    · exact h.answer ..
    · split
      · exact h.answer ..
      · next empty => exact (h.closeOrd (by rw [empty]; decide)).answer ..
      · next faulted => exact (h.closeFaultedOrd faulted).answer ..
      · exact h.answer ..

/-! ## The profile (R146 to R153) -/

theorem Sound.followSourceCount (h : Sound s₀ True s) (old : Nat) (p : Fin 4) : Sound s₀ True (followSourceCount old s p) := by
  unfold Machine.followSourceCount
  split
  · split
    · exact h
    · next here => exact h.closeFaulted here
    · exact h
    · next here =>
      split
      · next empty => exact h.closeSrc empty
      · exact h.startClosing here
  · exact h

theorem Sound.followOrderCount (h : Sound s₀ True s) (old : Nat) (q : Fin 12) : Sound s₀ True (followOrderCount old s q) := by
  unfold Machine.followOrderCount
  split
  · split
    · next empty => exact h.closeOrd (by rw [empty]; decide)
    · next faulted => exact h.closeFaultedOrd faulted
    · exact h
  · exact h

theorem Sound.handChange (h : Sound s₀ True s) (f : ProfileField) (old : Profile) : Sound s₀ True (handChange f old s) := by
  unfold Machine.handChange
  split
  · exact (h.same (keepsClosedStep.ladder s) rfl rfl rfl rfl rfl rfl rfl).arbitrate
  · exact h.arbitrate
  · exact h.arbitrate
  · exact h.arbitrate
  · exact h.arbitrate
  · exact h.arbitrate
  · exact h.arbitrate
  · exact (Sound.foldl (fun p h => h.followSourceCount old.sourceCount p) srcIndices h).judgeDrain.arbitrate
  · exact (Sound.foldl (fun p h => h.synced p _) srcIndices h).arbitrate
  · exact Sound.foldl (fun q h => h.followOrderCount old.orderCount q) ordIndices h
  · exact h.judgeOrphans
  · exact h.judgeOrphans
  · exact h.judgeOrphans
  · exact h.warned s.prof.profile.warningMargin fun _ => .inr rfl
  · exact h

theorem Sound.ownProfileSet (h : Sound s₀ True s) (r : Request) (a : Option ProfileField × List Byte) :
    Sound s₀ True (ownProfileSet r a s) := by
  unfold Machine.ownProfileSet
  split
  · exact h.answer ..
  · next still =>
    split
    · exact h.answer ..
    · split
      · exact h.answer ..
      · split
        · exact h.answer ..
        · split
          · exact h.answer ..
          · next stored =>
            exact ((h.same (keepsClosedStep.setting _ _ _ _ s (by simpa using still) stored) rfl rfl rfl rfl rfl rfl rfl).handChange
              ..).answer ..

theorem Sound.ownProfileGet (h : Sound s₀ True s) (r : Request) (a : Option Nat) : Sound s₀ True (ownProfileGet r a s) := by
  unfold Machine.ownProfileGet
  split
  · exact h.answer ..
  · split
    · exact h.answer ..
    · exact h.answer ..

theorem Sound.ownProfileStore (h : Sound s₀ True s) (r : Request) (a : Unit) : Sound s₀ True (ownProfileStore r a s) := by
  unfold Machine.ownProfileStore
  split
  · exact h.answer ..
  · split
    · exact h.answer ..
    · exact (h.same (keepsClosedStep.storing s) rfl rfl rfl rfl rfl rfl rfl).answer ..

theorem Sound.ownLockShift (h : Sound s₀ True s) (r : Request) (a : Unit) : Sound s₀ True (ownLockShift r a s) := by
  unfold Machine.ownLockShift
  split
  · exact h.answer ..
  · exact (h.same (keepsClosedStep.shift s) rfl rfl rfl rfl rfl rfl rfl).answer ..

theorem Sound.completeStore (h : Sound s₀ True s) (o : StoreOutcome) : Sound s₀ True (completeStore o s) := by
  unfold Machine.completeStore
  split
  · next storing => exact (h.same (keepsClosedStep.completed o s storing) rfl rfl rfl rfl rfl rfl rfl).notify _
  · exact h

/-! ## Bench modes and queries (R138, R139, R141, R169) -/

theorem Sound.setMode (h : Sound s₀ lit s) {m : BenchMode} (ne : m ≠ .drained) : Sound s₀ lit (setMode m s) :=
  Sound.notify (h.same (keepsClosedStep.mode m s ne) rfl rfl rfl rfl rfl rfl rfl) _

theorem Sound.ownBenchStart (h : Sound s₀ True s) (r : Request) (a : Unit) : Sound s₀ True (ownBenchStart r a s) := by
  unfold Machine.ownBenchStart
  split
  · exact h.answer ..
  · split
    · exact h.answer ..
    · split
      · exact h.answer ..
      · exact Sound.attempt (Sound.arbitrate ((h.setMode (m := .service) (by decide)).answer ..))

theorem Sound.ownBenchDrain (h : Sound s₀ True s) (r : Request) (a : Unit) : Sound s₀ True (ownBenchDrain r a s) := by
  unfold Machine.ownBenchDrain
  split
  · exact Sound.attempt ((h.setMode (m := .draining) (by decide)).judgeDrain.answer ..)
  · exact h.answer ..

theorem Sound.ownRestart (h : Sound s₀ True s) (quiet : ∀ pos, inSurvey pos s = false) (r : Request) (a : Unit) :
    Sound s₀ True (ownRestart r a s) :=
  Sound.holdFor (h.answer ..) (fun pos => by have := quiet pos; cases pos <;> exact this) r .restart

theorem Sound.ownQueryBench (h : Sound s₀ True s) (r : Request) (a : QueryArg) : Sound s₀ True (ownQueryBench r a s) := by
  unfold Machine.ownQueryBench
  split
  · exact Sound.answer (s := clearLost s) (h.link rfl) ..
  · exact h.answer ..

theorem Sound.ownQueryPosition (h : Sound s₀ True s) (r : Request) (a : QueryArg) : Sound s₀ True (ownQueryPosition r a s) := by
  unfold Machine.ownQueryPosition
  split
  · split
    · exact h.answer ..
    · exact h.answer ..
  · split
    · exact h.answer ..
    · exact h.answer ..
  · exact h.answer ..

theorem Sound.ownQueryOffer (h : Sound s₀ True s) (r : Request) (a : QueryArg) : Sound s₀ True (ownQueryOffer r a s) := by
  unfold Machine.ownQueryOffer
  split
  · split
    · exact h.answer ..
    · exact h.answer ..
  · exact h.answer ..

theorem Sound.ownQueryOrder (h : Sound s₀ True s) (r : Request) (a : QueryArg) : Sound s₀ True (ownQueryOrder r a s) := by
  unfold Machine.ownQueryOrder
  split
  · split
    · exact h.answer ..
    · exact h.answer ..
  · exact h.answer ..

/-! ## The link and the start-up (R140, R141, R163, R164, R168) -/

theorem Sound.startUp (h : Sound s₀ lit s) (k : Bool) : Sound s₀ True (startUp k s) := by
  have fresh := Sound.of_consistent (startUp_consistent k h.profile)
  obtain ⟨-, -, -, offers, -⟩ := startUp_made k s
  generalize Machine.startUp k s = u at fresh offers
  exact { fresh with grows := fun x _ x' hx' => by rw [offers] at hx'; cases hx' }

theorem Sound.receiveByte (h : Sound s₀ lit s) (b : Byte) : Sound s₀ lit (receiveByte s b) := by
  have taken : ∀ x, Sound s₀ lit (setRx x s) := fun _ => h.link rfl
  unfold Machine.receiveByte
  dsimp only
  split
  · exact taken _
  · next r _ =>
    have set := taken (receive s.link.rx b).1
    generalize setRx (receive s.link.rx b).1 s = u at set
    unfold takeRequest
    split
    · exact set.link rfl
    · split
      · exact set.answer ..
      · exact set

theorem Sound.frameSent (h : Sound s₀ True s) : Sound s₀ True (frameSent s) := by
  have sent : ∀ x, Sound s₀ True (setOut x s) := fun _ => h.link rfl
  unfold Machine.frameSent
  split
  · exact h
  · split
    · split
      · exact (sent _).arbitrate
      · exact sent _
    · split
      · exact (sent _).startUp true
      · exact sent _

/-- A request is executed on a state in which nothing holds execution and no start-up survey is in progress (R164, R165). -/
theorem Sound.runRequest {α : Type} (h : Sound s₀ True s) (row : Instr) (read : State → List Byte → Option α)
    (owner : Request → α → State → State)
    (own : ∀ r a {u : State}, Sound s₀ True u → (∀ pos, inSurvey pos u = false) → u.offers = s.offers → Sound s₀ True (owner r a u)) :
    Sound s₀ True (runRequest row read owner s) := by
  have popped : Sound s₀ True (popRequest s) := h.link rfl
  unfold Machine.runRequest
  split
  · exact h
  · next r front =>
    have may : mayExecute s = true := by
      by_contra no
      rw [frontRequest, if_neg no] at front
      cases front
    obtain ⟨⟨free, ended⟩, -⟩ : (s.link.held.isNone = true ∧ (!s.bench.surveying) = true) ∧ replyFree s = true := by
      simpa only [mayExecute, Bool.and_eq_true] using may
    dsimp only
    split
    · exact popped.answer ..
    · split
      · exact popped.answer ..
      · exact own r _ popped (popped.noSurvey (Option.isNone_iff_eq_none.mp free) (by simpa using ended)) rfl

end

end Sys2Proof.Machine

namespace Sys2Proof.Machine

/-!
Every step keeps the records of the part in agreement: places, records on the wall, lists and surveys, the lit cycle, and the
figures of the lines (R4, R22, R62, R81, R117, R157, R160).
-/

section
variable {s₀ s t : State}

/-! ## One tenth of a second -/

theorem SrcPos.tick_slots (x : SrcPos) (sl : Slot) : x.tick.stage sl = x.stage sl ∧ x.tick.named sl = x.named sl := by
  cases sl <;> exact ⟨rfl, rfl⟩

theorem Offer.tick_kept (o : Offer) : o.tick.tote = o.tote ∧ o.tick.state = o.state ∧ o.tick.lines = o.lines ∧
    o.tick.placing = o.placing := by
  unfold Offer.tick
  split <;> exact ⟨rfl, rfl, rfl, rfl⟩

theorem inSurvey_tick (pos : Pos) (s : State) : inSurvey pos (tick s) = inSurvey pos s :=
  inSurvey_congr (fun p => by rw [tick_src]; exact isSome_timerTick _) (fun q => by rw [tick_ord]; exact isSome_timerTick _) pos

/-- One tenth moves timers and the exposure of counted offers, and nothing that the records agree on. -/
theorem Sound.tick (h : Sound s₀ True s) : Sound s₀ True (tick s) := by
  have kept := keepsClosedStep.ticked s
  have fixed := fixedKeptClosedStep.ticked s
  have src := tick_src s
  have ord := tick_ord s
  have line := tick_line s
  have survey := fun pos => inSurvey_tick pos s
  obtain ⟨-, link, offers, -, -, put, -, bench, -⟩ := tick_frame s
  generalize Machine.tick s = t at *
  have later : OffersLater s t := .map offers fun o _ => .tick o
  have placing := fun o : Offer => (o.tick_kept).2.2.2
  refine ⟨State.offersOk_of_fixedKept fixed h.offers, kept.slots h.slots, kept.wall h.wall, kept.profile h.profile,
    h.places.congr (fun p sl => by rw [src]; exact s.src[p].tick_slots sl) (fun o ho => ?_) (fun o ho => ?_),
    h.records.heirs fun q => by rw [ord]; exact (h.records.held q).heir_of_same rfl id, fun pos => ?_,
    h.surveys.of_fewer (fun pos run => (survey pos).symm.trans run) (by rw [bench]) (by rw [link]), h.progress.later later,
    exposureGrows_later h.grows later, fun l => (h.cycle l).keep (by rw [put]) (fun c _ => ?_) (fun c _ o found here => ?_)
      fun c _ => by rw [ord]; exact .of_eq rfl rfl⟩
  · rw [offers] at ho
    obtain ⟨o', ho', rfl⟩ := List.mem_map.mp ho
    exact ⟨o', ho', placing o'⟩
  · exact ⟨o.tick, by rw [offers]; exact List.mem_map_of_mem ho, placing o⟩
  · obtain ⟨list, surveyed⟩ := h.lists pos
    rw [line]
    exact ⟨list, fun o ho is => (survey pos).trans (surveyed o ho is)⟩
  · rw [src]
    exact fun present named still => ⟨present, named, by show timerTick _ = none; rw [still] <;> rfl⟩
  · refine ⟨o.tick, ?_, (o.tick_kept).2.1.trans here, (o.tick_kept).2.2.1⟩
    rw [findOffer, offers, List.find?_map]
    show (s.offers.find? fun x => x.tick.tote == c.offer).map Offer.tick = _
    simp only [fun x : Offer => (x.tick_kept).1]
    rw [show (s.offers.find? fun x => x.tote == c.offer) = some o from found] <;> rfl

/-! ## Every command, every step -/

theorem Sound.live {f : State → State} (h : Sound s₀ True s) (run : live f s = .next t) (keep : Sound s₀ True (f s)) :
    Sound s₀ True t := live_keeps run h fun _ => keep

/-- A request that needs neither a quiet part nor the list as it was. -/
theorem Sound.request {α : Type} (h : Sound s₀ True s) (row : Instr) (read : State → List Byte → Option α)
    {owner : Request → α → State → State} (own : ∀ {u : State}, Sound s₀ True u → ∀ r a, Sound s₀ True (owner r a u)) :
    Sound s₀ True (Machine.runRequest row read owner s) :=
  h.runRequest row read owner fun r a _ ok _ _ => own ok r a

/-- A report a module sends, or one that is not taken. -/
theorem Sound.ite (h : Sound s₀ True s) {c : Prop} [Decidable c] (k : Sound s₀ True t) :
    Sound s₀ True (if c then t else s) := by
  split
  · exact k
  · exact h

theorem Sound.exec (h : Sound s₀ True s) (same : s.offers = s₀.offers) {c : Instr} (run : exec c s = .next t) :
    Sound s₀ True t := by
  have level : ∀ b, Sound s₀ True (setHold b s) := fun b =>
    h.same (Keeps.same rfl rfl rfl rfl rfl rfl rfl) rfl rfl rfl rfl rfl rfl rfl
  cases c with
  | powerUp => exact h.live run (h.startUp _)
  | resetLine => exact Host.Outcome.next.inj run ▸ h.startUp false
  | holdOn => exact (level true).live run (level true).holdGoesOn
  | holdOff => exact (level false).live run (level false).holdGoesOff
  | keyInputChange l =>
    exact Host.Outcome.next.inj run ▸ h.same (Keeps.same rfl rfl rfl rfl rfl rfl rfl) rfl rfl rfl rfl rfl rfl rfl
  | frameReceived bytes => exact h.live (f := fun s => bytes.foldl Machine.receiveByte s) run (Sound.foldl (fun b h => h.receiveByte b) bytes h)
  | byteGapTimeout b => exact h.live (f := fun s => Machine.receiveByte (setRx [] s) b) run (Sound.receiveByte (s := setRx [] s) (h.link rfl) b)
  | frameSent => exact h.live run h.frameSent
  | unknownRequest => exact h.live run (h.request _ _ fun ok r _ => ok.answer r _)
  | offer => exact h.live run (h.runRequest _ _ _ fun r bs _ ok _ e => ok.ownOffer (e.trans same) r bs)
  | wallAdd => exact h.live run (h.request _ _ fun ok => ok.ownWallAdd)
  | wallUrge => exact h.live run (h.request _ _ fun ok => ok.ownWallUrge)
  | wallWindow => exact h.live run (h.request _ _ fun ok => ok.ownWallWindow)
  | wallShut => exact h.live run (h.request _ _ fun ok => ok.ownWallShut)
  | wallRebase => exact h.live run (h.request _ _ fun ok => ok.ownWallRebase)
  | wallRelease => exact h.live run (h.request _ _ fun ok => ok.ownWallRelease)
  | posOpen => exact h.live run (h.runRequest _ _ _ fun r n _ ok quiet _ => ok.ownPosOpen quiet r n)
  | posClose => exact h.live run (h.request _ _ fun ok => ok.ownPosClose)
  | posOpenOrder => exact h.live run (h.runRequest _ _ _ fun r n _ ok quiet _ => ok.ownPosOpenOrder quiet r n)
  | posCloseOrder => exact h.live run (h.request _ _ fun ok => ok.ownPosCloseOrder)
  | benchStart => exact h.live run (h.request _ _ fun ok => ok.ownBenchStart)
  | benchDrain => exact h.live run (h.request _ _ fun ok => ok.ownBenchDrain)
  | restart => exact h.live run (h.runRequest _ _ _ fun r a _ ok quiet _ => ok.ownRestart quiet r a)
  | profileSet => exact h.live run (h.request _ _ fun ok => ok.ownProfileSet)
  | profileGet => exact h.live run (h.request _ _ fun ok => ok.ownProfileGet)
  | profileStore => exact h.live run (h.request _ _ fun ok => ok.ownProfileStore)
  | lockShift => exact h.live run (h.request _ _ fun ok => ok.ownLockShift)
  | queryBench => exact h.live run (h.request _ _ fun ok => ok.ownQueryBench)
  | queryPosition => exact h.live run (h.request _ _ fun ok => ok.ownQueryPosition)
  | queryOffer => exact h.live run (h.request _ _ fun ok => ok.ownQueryOffer)
  | queryOrder => exact h.live run (h.request _ _ fun ok => ok.ownQueryOrder)
  | storeCompletion o => exact h.live run (h.completeStore o)
  | sourceArrived p sl id => exact h.live run (h.ite (h.takeArrival ..))
  | sourceDeparted p sl => exact h.live run (h.ite (h.takeDeparture ..))
  | orderArrived q sl id => exact h.live run (h.ite (h.takeOrderArrival ..))
  | orderDeparted q sl => exact h.live run (h.ite (h.takeOrderDeparture ..))
  | stable pos g =>
    dsimp only [Machine.exec, execStable] at run
    refine h.live run ?_
    cases pos with
    | src p => exact h
    | ord q => exact h.ite (h.takeStable ..)
  | keyShort pos =>
    dsimp only [Machine.exec, execKeyShort] at run
    refine h.live run ?_
    cases pos with
    | src p => exact h.ite ((h.takeShort p).activity ..)
    | ord q => exact h
  | keyButton pos b =>
    dsimp only [Machine.exec, execKeyButton] at run
    refine h.live run ?_
    cases pos with
    | src p => exact h
    | ord q => exact h.ite ((h.takeButton q b).activity ..)
  | faultReport pos cause => exact h.live run (h.takeFault ..)
  | surveyAnswer pos a => exact h.live run (h.takeAnswer ..)
  | ack pos n => exact h.live run (h.takeAck ..)
  | ackTimerExpiry pos => exact h.live run (h.lineFailed ..)
  | surveyTimerExpiry pos => exact h.live run (h.surveyExpired ..)
  | lapse p sl => exact h.live run (h.callExpired ..)
  | jam p sl => exact h.live run (h.leaveExpired ..)
  | settleTimerExpiry p => exact h.live run (h.settleExpired ..)
  | orphanTimerExpiry p => exact h.live run (h.orphanExpired ..)
  | orderLeaveTimerExpiry q => exact h.live run (h.orderLeaveExpired ..)
  | orderSettleTimerExpiry q => exact h.live run (h.orderSettleExpired ..)
  | idleTimerExpiry => exact h.live run h.idleExpired
  | warningMarginReached n => exact h.live run (h.judgeWarning ..)
  | exposureExpiry n => exact h.live run (h.exposureExpired ..)
  | putGraceTimerExpiry => exact h.live run h.graceExpired
  | resetOn =>
    exact Host.Outcome.next.inj run ▸ h.same (Keeps.same rfl rfl rfl rfl rfl rfl rfl) rfl rfl rfl rfl rfl rfl rfl
  | badLength lo hi =>
    exact h.live (f := fun s => [Config.startByte, lo, hi].foldl Machine.receiveByte s) run
      (Sound.foldl (fun b h => h.receiveByte b) _ h)
  -- the one command left is RECALL, whose name is a keyword here
  | _ => exact h.live run (h.request _ _ fun ok => ok.ownRecall)

theorem Sound.step (h : Sound s₀ True s) (same : s.offers = s₀.offers) (run : step s = .next t) : Sound s₀ True t := by
  unfold Machine.step at run
  have queued : ∀ l, Sound s₀ True { s with pending := l } := fun l =>
    h.same (Keeps.same rfl rfl rfl rfl rfl rfl rfl) rfl rfl rfl rfl rfl rfl rfl
  split at run
  · cases run
    unfold idle
    split
    · exact h
    · split
      · exact queued _
      · exact h.tick
  · next rest _ => exact (queued rest).exec same run

end

/-- A step from a state whose records agree keeps them in agreement. -/
theorem step_keepsSound {s t : State} (h : s.consistent) (run : step s = .next t) : Sound s True t :=
  (Sound.of_consistent h).step rfl run

/-- Settles O7: `step_keepsAll` has the slots and DRAINED, the bundle the places of the offers. -/
theorem stepKeepsSlotTable : Obligations.StepKeepsSlotTable :=
  ⟨fun _ _ slots drained run => ⟨(step_keepsAll run).slots slots, (step_keepsAll run).drained drained⟩, fun _ _ h run =>
    (step_keepsSound h run).conclusions.1⟩

/-- Settles O8: `step_keepsAll` has the items of the positions, the bundle the records on the wall. -/
theorem stepKeepsOrderPositionItems : Obligations.StepKeepsOrderPositionItems :=
  ⟨fun _ _ ok run => (step_keepsAll run).wall ok, fun _ _ h run => by
    obtain ⟨-, records, -⟩ := (step_keepsSound h run).conclusions
    exact records⟩

/-- Settles O9: `step_keepsAll` has the acknowledgement timers, the bundle the lists and the surveys. -/
theorem stepKeepsAckTimerWithOutstandingOrder : Obligations.StepKeepsAckTimerWithOutstandingOrder :=
  ⟨fun _ _ ok run => (step_keepsAll run).lines ok, fun _ _ h run => by
    obtain ⟨-, -, lists, surveys, -⟩ := (step_keepsSound h run).conclusions
    exact ⟨lists, surveys⟩⟩

/-- Settles O10: the timers by their own closed relation, the lit cycle by the bundle. -/
theorem stepKeepsCycleTimers : Obligations.StepKeepsCycleTimers :=
  ⟨fun _ _ ok run => step_keeps_cycleTimersOk run ok, fun _ _ h run => by
    obtain ⟨-, -, -, -, cycle, -⟩ := (step_keepsSound h run).conclusions
    exact cycle⟩

/-- Settles O12: `step_keepsAll` has the sums of the put lists, the bundle the lines' figures and the growing exposure. -/
theorem stepKeepsPutListsAddingUp : Obligations.StepKeepsPutListsAddingUp :=
  ⟨fun _ _ ok run => (step_keepsAll run).puts ok, fun _ _ h run => by
    obtain ⟨-, -, -, -, -, progress, grows⟩ := (step_keepsSound h run).conclusions
    exact ⟨progress, grows⟩⟩

end Sys2Proof.Machine
